-- ==== Sys2Proof/Word.lean ====
section
/-!
DEFINITION. Word types of the S9 (00 R2, R3) and the plainest arithmetic on them.
-/

namespace Sys2Proof

/-- A byte (R2). -/
abbrev Byte := BitVec 8

/-- A word: word A, word B or an extension (R2, R176). -/
abbrev W32 := BitVec 32

/-- A dword: the width of a general register (R2). -/
abbrev W64 := BitVec 64

/-- A register number g0 to g31 (R201). -/
abbrev Reg := BitVec 5

/-- A guard or predicate number p0 to p7 (R179). -/
abbrev Pred := BitVec 3

/-- A segment register number sg0 to sg7 (R15). -/
abbrev Seg := BitVec 3

end Sys2Proof
end

