-- ==== Sys2Proof/Syntax.lean ====
section
/-!
DEFINITION. The syntax of the S9: one constructor of `Instr` for each row of the opcode table. The rows with a
format (08 R182, R189) carry the format's record; the event rows carry the names and values the event is about.
-/

namespace Sys2Proof

/-- Format AR (R182): register instructions of word A. `x` is the extension that stands for operand b (R188). -/
structure AR where
  d : Reg
  a : Reg
  b : Reg
  g : Pred
  sa : Bool
  sb : Bool
  x : Option W32
  deriving DecidableEq, Repr

/-- Format AK (R182): messages. `k` is the channel and `n` the count field. -/
structure AK where
  d : Reg
  a : Reg
  b : Reg
  g : Pred
  k : BitVec 3
  n : BitVec 3
  x : Option W32
  deriving DecidableEq, Repr

/-- Format AM (R182): LD, LDS, LDSYNC, LDFF. `o` is the offset field oh:ol and `la` the lookahead. -/
structure AM where
  d : Reg
  a : Reg
  seg : Seg
  o : BitVec 4
  g : Pred
  la : BitVec 4
  x : Option W32
  deriving DecidableEq, Repr

/-- Format AS (R182): ST, STSYNC, STFILL, SETE. `f` is the size of ST and the selector of the others. -/
structure AS where
  d : Reg
  a : Reg
  seg : Seg
  f : BitVec 2
  g : Pred
  off : BitVec 6
  x : Option W32
  deriving DecidableEq, Repr

/-- Format AX (R182): LDX, STX. -/
structure AX where
  d : Reg
  a : Reg
  seg : Seg
  sz : BitVec 2
  g : Pred
  la : BitVec 4
  sx : Bool
  x : Option W32
  deriving DecidableEq, Repr

/-- Format AQ (R182): stash control and fences. -/
structure AQ where
  a : Reg
  seg : Seg
  g : Pred
  x : Option W32
  deriving DecidableEq, Repr

/-- Format AA with the extension of R184: atomics. `sz` selects the dword, `off` is the signed byte offset. -/
structure AA where
  d : Reg
  a : Reg
  b : Reg
  g : Pred
  seg : Seg
  off : BitVec 16
  la : BitVec 4
  sz : Bool
  deriving DecidableEq, Repr

/-- Format AZ (R187): SYSR, SYSW. -/
structure AZ where
  d : Reg
  num : BitVec 12
  g : Pred
  sd : Bool
  deriving DecidableEq, Repr

/-- Format AB (R185): BR, JMP. -/
structure AB where
  disp : BitVec 21
  g : Pred
  deriving DecidableEq, Repr

/-- Format AC (R185): CALL. -/
structure AC where
  d : Reg
  disp : BitVec 16
  g : Pred
  x : Option W32
  deriving DecidableEq, Repr

/-- Format AP (R186), the register form: LOOP. -/
structure LoopR where
  a : Reg
  sa : Bool
  lc : Bool
  bl : BitVec 7
  deriving DecidableEq, Repr

/-- Format AP (R186), the immediate form: LOOPI. -/
structure LoopI where
  count : BitVec 16
  lc : Bool
  bl : BitVec 7
  deriving DecidableEq, Repr

/-- Format BR (R189): word B register arithmetic. -/
structure BR where
  d : Reg
  a : Reg
  b : Reg
  sa : Bool
  sb : Bool
  g : Pred
  fn : BitVec 4
  deriving DecidableEq, Repr

/-- Format BI (R189): a 10-bit immediate. -/
structure BI where
  d : Reg
  a : Reg
  sa : Bool
  imm : BitVec 10
  g : Pred
  deriving DecidableEq, Repr

/-- Format BK (R189): a 16-bit immediate. -/
structure BK where
  d : Reg
  imm : BitVec 16
  g : Pred
  deriving DecidableEq, Repr

/-- Format BC (R189): compares. `b` is a register of CMP and the signed imm5 of CMPI. -/
structure BC where
  pd : Pred
  a : Reg
  b : Reg
  sa : Bool
  sb : Bool
  g : Pred
  cond : BitVec 4
  deriving DecidableEq, Repr

/-- Format BF (R189): FCMP. -/
structure BF where
  cond : BitVec 2
  pd : Pred
  a : Reg
  b : Reg
  sa : Bool
  sb : Bool
  g : Pred
  fmt : BitVec 4
  deriving DecidableEq, Repr

/-- Format BV (R189): FCVT. -/
structure BV where
  d : Reg
  a : Reg
  sa : Bool
  src : BitVec 5
  g : Pred
  dst : BitVec 4
  deriving DecidableEq, Repr

/-- The instructions and events of the opcode table, in the table's order. -/
inductive Instr where
  /-- R197. Does nothing, whatever its guard; with L = 0 it carries a word B. -/
  | nop (r : AR)
  /-- R198. Lands pending results, waits as FENCE.H does, then makes the slot absent unless a refusal turns it into SEGV. -/
  | halt (r : AR)
  /-- R199. Makes the slot unable to issue until the second following occurrence of its home position. -/
  | yield (r : AR)
  /-- R215. Branches to PC + 8 times a 21-bit signed displacement after the target check. -/
  | br (r : AB)
  /-- R215. Jumps to 8 times an unsigned displacement after the target check. -/
  | jmp (r : AB)
  /-- R215. Branches PC-relative and writes the return offset PC + 8 to gd. -/
  | call (r : AC)
  /-- R215. Jumps to the offset in ga, checking alignment and target, and writes the link to gd. -/
  | jr (r : AR)
  /-- R217. Sets up hardware loop lc with the trip count in ga, or skips the body when the count is zero. -/
  | loop (r : LoopR)
  /-- R217. Sets up hardware loop lc with a 16-bit immediate trip count, or skips the body when it is zero. -/
  | loopi (r : LoopI)
  /-- R224. Loads one byte zero-extended into gd through a landing. -/
  | ldB (r : AM)
  /-- R224. Loads a half zero-extended into gd through a landing. -/
  | ldH (r : AM)
  /-- R224. Loads a word zero-extended into gd through a landing. -/
  | ldW (r : AM)
  /-- R224. Loads a dword into gd through a landing. -/
  | ldD (r : AM)
  /-- R224. Loads one byte sign-extended into gd. -/
  | ldsB (r : AM)
  /-- R224. Loads a half sign-extended into gd. -/
  | ldsH (r : AM)
  /-- R224. Loads a word sign-extended into gd. -/
  | ldsW (r : AM)
  /-- R225. Places the low bytes of gd in the chunk buffer, to be applied when the chunk commits. -/
  | st (r : AS)
  /-- R224. Loads with a scaled index, sign-extending when sx is set. -/
  | ldx (r : AX)
  /-- R225. Stores with a scaled index into the chunk buffer. -/
  | stx (r : AX)
  /-- R226. Reads a full local word and empties it, waiting in the word's queue while it is empty. -/
  | ldsync (r : AM)
  /-- R226. Reads a full local word and leaves it full, waiting while it is empty. -/
  | ldff (r : AM)
  /-- R226. Writes an empty local word and fills it, waiting while it is full. -/
  | stsync (r : AS)
  /-- R226. Writes a local word and sets it full whatever its state. -/
  | stfill (r : AS)
  /-- R226. Sets a local word empty whatever its state. -/
  | sete (r : AS)
  /-- R231. Adds gd to the addressed word in one step and lands the old value. -/
  | afaa (r : AA)
  /-- R231. Exchanges gd with the addressed word in one step and lands the old value. -/
  | axchg (r : AA)
  /-- R231. Writes gb when the word equals gd and lands the old value. -/
  | acas (r : AA)
  /-- R231. Writes the signed minimum of the word and gd and lands the old value. -/
  | amin (r : AA)
  /-- R231. Writes the signed maximum of the word and gd and lands the old value. -/
  | amax (r : AA)
  /-- R231. Writes the unsigned minimum of the word and gd and lands the old value. -/
  | aminu (r : AA)
  /-- R231. Writes the unsigned maximum of the word and gd and lands the old value. -/
  | amaxu (r : AA)
  /-- R231. ANDs gd into the word and lands the old value. -/
  | aand (r : AA)
  /-- R231. ORs gd into the word and lands the old value. -/
  | aor (r : AA)
  /-- R231. Adds gd to the addressed word in one step without returning a value. -/
  | afaaN (r : AA)
  /-- R231. Writes gd to the addressed word in one step without returning a value. -/
  | axchgN (r : AA)
  /-- R231. Writes gb when the word equals gd, without returning a value. -/
  | acasN (r : AA)
  /-- R231. Writes the signed minimum without returning a value. -/
  | aminN (r : AA)
  /-- R231. Writes the signed maximum without returning a value. -/
  | amaxN (r : AA)
  /-- R231. Writes the unsigned minimum without returning a value. -/
  | aminuN (r : AA)
  /-- R231. Writes the unsigned maximum without returning a value. -/
  | amaxuN (r : AA)
  /-- R231. ANDs gd into the word without returning a value. -/
  | aandN (r : AA)
  /-- R231. ORs gd into the word without returning a value. -/
  | aorN (r : AA)
  /-- R234. Installs the addressed sector in the stash, pins the line if the set allows, and reports in SPINRES. -/
  | spin (r : AQ)
  /-- R236. Writes back the dirty sectors of a matching stash line and leaves it in S. -/
  | sflush (r : AQ)
  /-- R236. Writes back and invalidates a matching stash line, drops its pin and squashes chunks that read it. -/
  | sinv (r : AQ)
  /-- R237. Installs the addressed sector in the stash without waiting, with no effect on any failure. -/
  | pref (r : AQ)
  /-- R156. Waits until every earlier non-returning atomic of the thread is acknowledged. -/
  | fenceH (r : AQ)
  /-- R156. Waits until every engine operation started by slot 15 has placed its completion, and adopts them. -/
  | fenceE (r : AQ)
  /-- R156. Waits as FENCE.H and until every earlier SEND and g30 push has been placed at its receiver. -/
  | fenceP (r : AQ)
  /-- R155. Ends the current chunk and is performed once its predecessor has committed. -/
  | chunk (r : AQ)
  /-- R80. Empties the slot's fetch buffer so later bundles see every earlier write. -/
  | iflush (r : AQ)
  /-- R253. Numbers a message of 1 to 8 payload registers and releases it to the destination process on channel k. -/
  | send (r : AK)
  /-- R254. Removes the head message of channel k into the header and payload registers, waiting while none is receivable. -/
  | recv (r : AK)
  /-- R254. Copies the head message of channel k without removing it, or writes a zero header when none is receivable. -/
  | peek (r : AK)
  /-- R255. Writes the status of receive channel k to gd. -/
  | chstat (r : AK)
  /-- R256. Waits until channel k holds a receivable message, taking nothing. -/
  | waitm (r : AK)
  /-- R256. Waits until the inbox holds an entry, taking nothing. -/
  | waitmI (r : AK)
  /-- R257. Removes the head inbox entry into gd and gd+1, adopting an engine's writes, or writes zeros from an empty inbox. -/
  | inb (r : AR)
  /-- R274. Writes the old interrupt mask to gd and sets MASK from gb bits 8:0. -/
  | msgmask (r : AR)
  /-- R273. Leaves the user-interrupt handler, returning to h0 after the target check. -/
  | retu (r : AR)
  /-- R388. Places a task record in the ready queue of the named process and reports success in predicate pd. -/
  | spawn (r : AR)
  /-- R389. Makes one take from the ready queue and writes the slot started, or all ones. -/
  | tnext (r : AR)
  /-- R388. Places a task record in the named process's ready queue, retrying while its level is full. -/
  | tpost (r : AR)
  /-- R390. Decrements the join word, places the continuation when it reaches zero, and makes the slot absent. -/
  | retj (r : AR)
  /-- R392. Waits up to a count of cycles or until an undelivered interrupt bit becomes pending. -/
  | sleep (r : AR)
  /-- R243. Arrives at a named barrier with a weight and waits for the generation to complete. -/
  | barw (r : AR)
  /-- R243. Arrives at a named barrier with a weight without waiting. -/
  | bara (r : AR)
  /-- R242. Sets a barrier record's COUNT, completing filled generations or timing out waiters on zero, and returns the old record. -/
  | barcfg (r : AR)
  /-- R398. Cancels the launch with the given LID of the own job. -/
  | cancelL (r : AR)
  /-- R398. Cancels every launch of the own job whose graph counter is the given one. -/
  | cancelG (r : AR)
  /-- R398. Cancels the own job, or at M the named job. -/
  | cancelJ (r : AR)
  /-- R306. Reads a transfer descriptor and starts a bulk copy engine operation in slot 15. -/
  | bcopy (r : AR)
  /-- R311. Binds a stream register to a slot for an inbound or outbound stream described by a descriptor. -/
  | strm (r : AR)
  /-- R315. Ends stream N, squashing chunks that use it, and writes its progress to gd. -/
  | strmx (r : AR)
  /-- R300. Writes ga into mailbox N when it is empty and sets it full, waiting otherwise. -/
  | mbw (r : AR)
  /-- R300. Takes the content of a full mailbox N into gd and empties it, waiting otherwise. -/
  | mbr (r : AR)
  /-- R346. Installs a matrix configuration word and gang key, returning the old word. -/
  | mcfg (r : AR)
  /-- R348. Zeroes every accumulator and its queues and makes the slice live. -/
  | mzero (r : AR)
  /-- R354. Streams A rows past a stationary B block, forming exact group sums and visiting the pairing accumulators. -/
  | mma (r : AR)
  /-- R355. Drains every accumulator queue row by row and traps on indeterminate or overflowed accumulators. -/
  | mend (r : AR)
  /-- R359. Rounds accumulator rows with the epilogue and writes them as engine writes, placing a completion entry. -/
  | msto (r : AR)
  /-- R362. Writes the matrix status to gd and clears the sticky bits selected by ga. -/
  | mstat (r : AR)
  /-- R357. When every core of the row has joined, compares their parameters and starts the gang or makes all take GANGTO. -/
  | gangStart (row : Nat)
  /-- R357. A core that has waited GANGLIM cycles in a gang join is withdrawn and takes GANGTO. -/
  | ganglimExpiry (lpn : Nat) (slot : Nat) (id : Nat)
  /-- R424. Sets the thread's position and binds it, migrating to the owner of its bin when that is another core. -/
  | setpos (r : AR)
  /-- R425. Writes pos with the bound bit to gd. -/
  | getpos (r : AR)
  /-- R425. Sets the thread's payload word for the next snapshot. -/
  | publ (r : AR)
  /-- R427. Records a neighbour query within a squared radius of pos and writes the number of candidates. -/
  | neigh (r : AR)
  /-- R428. Returns the next candidate of the query by ascending handle in three registers. -/
  | nextn (r : AR)
  /-- R426. Migrates the thread, unbound, to the host of the named process. -/
  | migr (r : AR)
  /-- R445. Looks up the named process and writes its host core number. -/
  | whereIs (r : AR)
  /-- R446. Sets the program anchor ANC of the process in one step of the Flutter unit and returns the old anchor bits. -/
  | anchor (r : AR)
  /-- R447. Reports the weights and hops of the channel to a named process. -/
  | peer (r : AR)
  /-- R329. Reads a system register into gd after the number and privilege checks. -/
  | sysr (r : AZ)
  /-- R329. Writes gd to a system register that has no row of its own, after the number, privilege and reserved-bit checks. -/
  | sysw (r : AZ)
  /-- R55. Removes the first-stage translations of the page holding ga for the own VMID and job across the domain. -/
  | tlbiVa (r : AR)
  /-- R55. Removes every first-stage translation of the own VMID and job. -/
  | tlbiJob (r : AR)
  /-- R55. Removes every first-stage translation of a VMID. -/
  | tlbiVm (r : AR)
  /-- R55. Removes second-stage leaves and walk entries for a guest-physical page and releases a drained block slot. -/
  | tlbiGpa (r : AR)
  /-- R55. Removes every translation of both stages. -/
  | tlbiAll (r : AR)
  /-- R56. A member of the reach receives a TLBI broadcast, removes matching entries and acknowledges. -/
  | tlbiInvalidate (core : Nat)
  /-- R57. When every member has acknowledged, the TLBI retires and the thread resumes. -/
  | tlbiDone (lpn : Nat) (slot : Nat)
  /-- R330. Takes the SVC trap with the service number in TADDR after performing word B. -/
  | svc (r : AR)
  /-- R331. Leaves a trap handler to TPC, restoring the saved privilege and arming a resume issue. -/
  | eret (r : AR)
  /-- R332. Answers a parked fault record with resume or invalid. -/
  | wake (r : AR)
  /-- R204. Adds two registers at dword or word width. -/
  | add (r : BR)
  /-- R204. Subtracts two registers. -/
  | sub (r : BR)
  /-- R204. Multiplies two registers, keeping the low bits. -/
  | mul (r : BR)
  /-- R204. Returns the high half of a signed product. -/
  | mulh (r : BR)
  /-- R204. Returns the high half of an unsigned product. -/
  | mulhu (r : BR)
  /-- R205. Divides signed, truncating, with defined results for zero and overflow. -/
  | div (r : BR)
  /-- R205. Divides unsigned. -/
  | divu (r : BR)
  /-- R205. Returns the signed remainder. -/
  | rem (r : BR)
  /-- R205. Returns the unsigned remainder. -/
  | remu (r : BR)
  /-- R204. Bitwise AND. -/
  | and (r : BR)
  /-- R204. Bitwise OR. -/
  | or (r : BR)
  /-- R204. Bitwise exclusive OR. -/
  | xor (r : BR)
  /-- R204. ANDs a with the complement of b. -/
  | andn (r : BR)
  /-- R204. Shifts left by a register count. -/
  | shl (r : BR)
  /-- R204. Shifts right logically by a register count. -/
  | shr (r : BR)
  /-- R204. Shifts right arithmetically by a register count. -/
  | sar (r : BR)
  /-- R204. Rotates right by a register count. -/
  | ror (r : BR)
  /-- R204. Signed minimum. -/
  | min (r : BR)
  /-- R204. Signed maximum. -/
  | max (r : BR)
  /-- R204. Unsigned minimum. -/
  | minu (r : BR)
  /-- R204. Unsigned maximum. -/
  | maxu (r : BR)
  /-- R204. Counts leading zeros. -/
  | clz (r : BR)
  /-- R204. Counts trailing zeros. -/
  | ctz (r : BR)
  /-- R204. Counts one bits. -/
  | popc (r : BR)
  /-- R206. Extracts a bit field whose position and length come from b. -/
  | extr (r : BR)
  /-- R206. Inserts a bit field of a into d at the position and length given by b. -/
  | insr (r : BR)
  /-- R207. Adds a signed 10-bit immediate. -/
  | addi (r : BI)
  /-- R207. ANDs a sign-extended immediate. -/
  | andi (r : BI)
  /-- R207. ORs a sign-extended immediate. -/
  | ori (r : BI)
  /-- R207. XORs a sign-extended immediate. -/
  | xori (r : BI)
  /-- R207. Shifts left by an immediate count. -/
  | shli (r : BI)
  /-- R207. Shifts right logically by an immediate count. -/
  | shri (r : BI)
  /-- R207. Shifts right arithmetically by an immediate count. -/
  | sari (r : BI)
  /-- R207. Rotates right by an immediate count. -/
  | rori (r : BI)
  /-- R208. Writes a sign-extended 16-bit immediate. -/
  | movi (r : BK)
  /-- R208. Shifts d left by 16 and inserts a 16-bit immediate. -/
  | movh (r : BK)
  /-- R209. Compares two registers under cond and writes a predicate. -/
  | cmp (r : BC)
  /-- R209. Compares a register with a 5-bit signed immediate and writes a predicate. -/
  | cmpi (r : BC)
  /-- R210. ANDs two predicates. -/
  | pand (r : BR)
  /-- R210. ANDs a predicate with the complement of another. -/
  | pandn (r : BR)
  /-- R210. ORs two predicates. -/
  | por (r : BR)
  /-- R210. XORs two predicates. -/
  | pxor (r : BR)
  /-- R210. Complements a predicate. -/
  | pnot (r : BR)
  /-- R210. Reads the predicate word into a register. -/
  | rdpw (r : BR)
  /-- R210. Writes predicates p1 to p7 from a register. -/
  | wrpw (r : BR)
  /-- R211. Selects a or b by a predicate. -/
  | sel (r : BR)
  /-- R212. Adds lanes modulo the lane width. -/
  | vadd (r : BR)
  /-- R212. Adds lanes with saturation. -/
  | vadds (r : BR)
  /-- R212. Subtracts lanes modulo the lane width. -/
  | vsub (r : BR)
  /-- R212. Subtracts lanes with saturation. -/
  | vsubs (r : BR)
  /-- R212. Multiplies lanes keeping the low bits. -/
  | vmul (r : BR)
  /-- R212. Multiplies lanes keeping the high bits. -/
  | vmulh (r : BR)
  /-- R212. Lane-wise minimum. -/
  | vmin (r : BR)
  /-- R212. Lane-wise maximum. -/
  | vmax (r : BR)
  /-- R212. Lane-wise rounded average. -/
  | vavg (r : BR)
  /-- R212. Lane-wise absolute difference. -/
  | vabsd (r : BR)
  /-- R212. Shifts lanes left. -/
  | vshl (r : BR)
  /-- R212. Shifts lanes right, arithmetic or logical by type. -/
  | vshr (r : BR)
  /-- R212. Sets lanes to all ones where equal. -/
  | vcmpeq (r : BR)
  /-- R212. Sets lanes to all ones where greater. -/
  | vcmpgt (r : BR)
  /-- R212. Copies lane 0 of a into every lane. -/
  | vsplat (r : BR)
  /-- R213. Packs wide lanes of a and b into narrow lanes with clamping. -/
  | vpack (r : BR)
  /-- R213. Extends the narrow lanes of the low half of a to double width. -/
  | vunpk (r : BR)
  /-- R293. Float addition, scalar or packed, rounded under FCSR.RM. -/
  | fadd (r : BR)
  /-- R293. Float subtraction. -/
  | fsub (r : BR)
  /-- R293. Float multiplication. -/
  | fmul (r : BR)
  /-- R293. Float division. -/
  | fdiv (r : BR)
  /-- R293. Float square root. -/
  | fsqrt (r : BR)
  /-- R293. Float minimum. -/
  | fmin (r : BR)
  /-- R293. Float maximum. -/
  | fmax (r : BR)
  /-- R293. Fused multiply-add into d, rounded once. -/
  | fma (r : BR)
  /-- R294. Inverts the sign of each lane. -/
  | fneg (r : BR)
  /-- R294. Clears the sign of each lane. -/
  | fabs (r : BR)
  /-- R295. Compares two floats under cond and writes a predicate. -/
  | fcmp (r : BF)
  /-- R296. Writes a one-hot class mask of a float. -/
  | fclass (r : BR)
  /-- R297. Converts a value between float and integer formats. -/
  | fcvt (r : BV)
  /-- R160. At its home or a lent position a slot able to issue issues one bundle. -/
  | bundleIssue (core : Nat) (slot : Nat)
  /-- R159. At position 0 starting slots become ready, one queued arrival and one take may start. -/
  | rotationBoundary (core : Nat)
  /-- R165. A long-latency result returns and is held in its landing entry until the close. -/
  | landingResult (id : Nat)
  /-- R226. The reply to a remote synchronising operation, atomic or barrier operation arrives and completes the waiting instruction. -/
  | remoteReply (id : Nat)
  /-- R333. A bundle that fails a timing check is discarded and replayed at the next issue opportunity. -/
  | timingReplay (lpn : Nat) (slot : Nat)
  /-- R333. After 2 cycles a latched request whose bundle passed timing is released to the network. -/
  | egressLatchRelease (core : Nat)
  /-- R141. An ended chunk whose loads have returned acquires its domains in ascending order and applies its stores. -/
  | chunkCommit (lpn : Nat) (slot : Nat)
  /-- R140. A domain's arbiter admits a commit that conflicts with no held commit, or queues it in arrival order. -/
  | domainAcquire (dom : Nat) (lpn : Nat) (slot : Nat)
  /-- R141. One arbiter step invalidates other copies, squashes readers and writes the chunk's bytes in a domain. -/
  | domainApply (dom : Nat) (lpn : Nat) (slot : Nat)
  /-- R153. After a commit has waited 4,096 slice cycles on pins, new pin-free tile requests for its lines wait at the slice. -/
  | pinWaitLimit (lpn : Nat) (slot : Nat)
  /-- R150. One engine element write is one step of its domain, invalidating and squashing as an Apply does. -/
  | engineElementWrite (id : Nat)
  /-- R150. One engine element read returns the line's value at one step of its domain. -/
  | engineElementRead (id : Nat)
  /-- R151. After every element write is performed, the operation places its completion entry in the inbox. -/
  | engineCompletion (id : Nat)
  /-- R257. A completion entry that waited for room is placed when an inbox place frees. -/
  | inboxEntryPlace (lpn : Nat)
  /-- R78. A request for a window address arrives at a core, passes the job check and is performed against local memory. -/
  | remoteRequest (id : Nat)
  /-- R32. A refusal arrives at the requester and raises SEGV reason 5 at the instruction or at the next issue. -/
  | refusalArrival (id : Nat)
  /-- R67. After a word's state changes from outside its queue, the head waiters that may proceed are performed one step each. -/
  | fullEmptyService (lpn : Nat) (off : Nat)
  /-- R68. A local synchronising operation that found the wait list full is retried every 16 cycles. -/
  | waitListRetry (lpn : Nat) (slot : Nat)
  /-- R68. A requester reissues a remote operation 64 cycles after a busy reply. -/
  | busyReissue (lpn : Nat) (slot : Nat)
  /-- R228. A wait bounded by WAITLIM expires; the operation is withdrawn and the thread takes WAITTO. -/
  | waitlimExpiry (lpn : Nat) (slot : Nat) (id : Nat)
  /-- R228. A withdrawal request reaches the target and removes the waiting operation from the word's queue if still there. -/
  | waitWithdrawal (id : Nat)
  /-- R244. A BARW that has waited BARLIM cycles is withdrawn and takes BARTO, its arrival still counted. -/
  | barlimExpiry (lpn : Nat) (slot : Nat) (id : Nat)
  /-- R22. A SYSW to SGnLO places the low half in the slot's segment stage. -/
  | segStageWrite (n : BitVec 3) (v : BitVec 64)
  /-- R23. A SYSW to SGnHI commits both halves of a segment register if accepted under the narrowing rule. -/
  | segCommit (n : BitVec 3) (v : BitVec 64)
  /-- R30. A write of the process's core tag, which first empties the stash. -/
  | coretagWrite (v : BitVec 64)
  /-- R34. A write of the first-stage root, which first empties the stash. -/
  | xrootWrite (v : BitVec 64)
  /-- R62. Changes the local-memory layout, refusing queue or field changes in use, emptying the stash and zeroing moved areas. -/
  | lmmapWrite (v : BitVec 64)
  /-- R38. The row port walks the first-stage tables for a queued stash miss and caches the leaf. -/
  | pageWalk (row : Nat)
  /-- R326. An answer to a parked record reaches the slot, which reissues the bundle or takes XLATE. -/
  | parkedAnswer (seq : BitVec 32) (inv : Bool)
  /-- R73. A fill reply installs a sector in the stash and registers the core as sharer. -/
  | stashFillReply (id : Nat)
  /-- R73. Another core's commit invalidates a shared stash line and squashes chunks that read it. -/
  | stashInvalidate (core : Nat) (sec : Nat)
  /-- R73. A recall makes an owned line write back its dirty sectors and become shared or invalid. -/
  | stashRecall (core : Nat) (sec : Nat) (inv : Bool)
  /-- R73. A revoke makes a line held in X write back and drop. -/
  | stashRevoke (core : Nat) (sec : Nat)
  /-- R98. The locality predictor's grant moves a stash line to X so later atomics run in the stash. -/
  | exclusiveGrant (core : Nat) (sec : Nat)
  /-- R95. A fill request at the home slice sends the sector and updates the directory. -/
  | l2FillRequest (id : Nat)
  /-- R95. A commit's ownership request invalidates or recalls other holders at the home slice. -/
  | l2OwnershipRequest (id : Nat)
  /-- R95. A drop notice removes a sharer from the directory. -/
  | l2DropNotice (id : Nat)
  /-- R95. A stash write-back installs dirty sectors in the L2 line. -/
  | l2Writeback (id : Nat)
  /-- R95. A holder's acknowledgement arrives, ending the busy state when all have acknowledged. -/
  | l2InvalidateAck (id : Nat)
  /-- R97. An atomic is performed at the home slice and trains the locality predictor. -/
  | l2Atomic (id : Nat)
  /-- R91. Two combinable AFAA requests meet at a switch output and combine into one. -/
  | omegaCombine (first : Nat) (second : Nat)
  /-- R91. The reply to a combined request splits at its switch into the two requesters' values. -/
  | combineSplit (id : Nat)
  /-- R99. A tile request reaches the home slice, pins the line and is held for merging. -/
  | tileRequest (id : Nat)
  /-- R100. At the end of the merge window the slice reads the line once and replies to each merged requester. -/
  | tileMergeClose (slice : Nat) (line : Nat)
  /-- R99. The tile fetch unit releases a pin on a line. -/
  | tilePinRelease (core : Nat) (line : Nat)
  /-- R102. Every 64 slice cycles a slice writes back dirty lines standing outside their VMID's way mask in the next set. -/
  | maskScrub (slice : Nat)
  /-- R104. Every 1,024 slice cycles each bandwidth bucket is refilled and its excess goes to the die pool. -/
  | bucketRefill (slice : Nat)
  /-- R105. A miss waiting for a token asks the die pool again in the next cycle. -/
  | tokenRetry (slice : Nat)
  /-- R102. A write of a VMID's way masks restarts that VMID's mask scrub at set 0. -/
  | l2partWrite (vmid : BitVec 8) (v : BitVec 64)
  /-- R110. A write of a VMID's bucket parameters takes effect at each slice's next refill with b clipped. -/
  | l2bwWrite (vmid : BitVec 8) (v : BitVec 64)
  /-- R110. A write clears the mask-scrub write-back counter. -/
  | l2statClear
  /-- R47. A request that missed every cache is translated and checked at the stage-two unit and sent to its controller. -/
  | s2Translate (id : Nat)
  /-- R47. A store to a line recorded without second-stage W asks the stage-two unit, which parks it with kind 5 if W is 0. -/
  | s2UpgradeCheck (id : Nat)
  /-- R121. A fill meeting B = 1 with no covering slot retries every 64 cycles at the stage-two unit. -/
  | s2BlockedRetry (id : Nat)
  /-- R115. A fill reaches the memory-side cache and returns the sector or passes to the stage-two unit. -/
  | mscFill (id : Nat)
  /-- R115. A write-back of a sector is written into the memory-side cache or to memory. -/
  | mscWriteback (id : Nat)
  /-- R115. A non-allocating write is written into a present line or to memory. -/
  | mscNonallocWrite (id : Nat)
  /-- R115. Data returns from a memory controller and is installed and sent on. -/
  | controllerFillReturn (id : Nat) (lost : Bool)
  /-- R126. Lomter answers a repair wait as repaired, and the slice repeats the fill and serves the waiters. -/
  | psnansRepaired (seq : BitVec 32)
  /-- R126. Lomter answers a repair wait as lost, and the sector is written poisoned and returned poisoned. -/
  | psnansLost (seq : BitVec 32)
  /-- R124. A repair wait unanswered for 2^28 slice cycles is treated as lost. -/
  | repairTimeout (seq : BitVec 32)
  /-- R120. A PGBLK write with OP 0 opens a block slot and starts queuing and draining the page. -/
  | pgblkBlock (v : BitVec 64)
  /-- R122. A PGBLK write with OP 1 releases a block slot without changing the leaf and replays its queues. -/
  | pgblkAbandon (v : BitVec 64)
  /-- R120. When every slice and memory-side cache has drained the page and its write-backs are accepted, DRAINED is set. -/
  | pageDrainDone (block : BitVec 3)
  /-- R119. A write of PGCDST starts the page copy engine. -/
  | pageCopyStart (v : BitVec 64)
  /-- R119. The page copy engine finishes its copy and clears CBUSY. -/
  | pageCopyDone
  /-- R129. A write of CKPT.GO begins a checkpoint with the stop phase. -/
  | checkpointStart
  /-- R128. The power-fail input starts a checkpoint when CKPT.AUTO is set. -/
  | powerFailInput
  /-- R129. Once stopped, every cache writes its dirty and poisoned sectors to memory. -/
  | checkpointFlush
  /-- R129. Once flushed, every HBM4E sector is copied to the checkpoint region. -/
  | checkpointCopy
  /-- R130. Once copied, the header is written, DONE set and the cores stay frozen. -/
  | checkpointSeal
  /-- R171. When a launch's counter reaches zero and its engines are done, its status is written and its graph counter stepped. -/
  | launchComplete (id : Nat)
  /-- R258. A message reaches its destination's host and is placed, held in reorder or spill, or refused, then acknowledged. -/
  | messageArrive (id : Nat)
  /-- R258. A skip notice enters Arrive and advances or is held for its triple's sequence. -/
  | skipNoticeArrive (id : Nat)
  /-- R249. An acknowledgement reaches the sender's core and lowers OUT of the send entry. -/
  | messageAck (id : Nat)
  /-- R260. A refused message returns to the sender's core and is held for its slot, which then waits. -/
  | messageRefused (id : Nat)
  /-- R260. Every 256 cycles a held refused message is offered again. -/
  | messageReoffer (lpn : Nat) (slot : Nat)
  /-- R258. Every 256 cycles a refused skip notice is offered again. -/
  | skipNoticeReoffer (id : Nat)
  /-- R261. A send wait reaches SENDLIM; the message is discarded, SENDSTALL taken and a skip notice sent. -/
  | sendlimExpiry (lpn : Nat) (slot : Nat) (id : Nat)
  /-- R434. A placement update replaces the receiving core's cached entry for an LPN. -/
  | placementUpdate (core : Nat) (lpn : Nat) (host : Nat)
  /-- R272. At the slot's next issue opportunity a pending unmasked interrupt enters the handler with h0 and h1 set. -/
  | userInterruptDeliver (lpn : Nat) (slot : Nat)
  /-- R300. A waiting MBW or MBR is served when its mailbox changes state. -/
  | mailboxService (lpn : Nat) (n : BitVec 2)
  /-- R313. The engine reads the next inbound stream element into the stream buffer. -/
  | streamReadAhead (core : Nat) (n : BitVec 2)
  /-- R377. A doorbell write sets the mapped hardware queue slot's TAIL, or records the tail in the summary and notifies Imago. -/
  | doorbellWrite (queue : BitVec 16) (v : BitVec 32)
  /-- R377. A read at doorbell offset 4 returns the mapped slot's HEAD or all ones. -/
  | doorbellHeadRead (queue : BitVec 16)
  /-- R377. A write mapping a user queue loads TAIL from its summary tail word and clears its bit. -/
  | dqptrWrite (v : BitVec 64)
  /-- R378. The dispenser serves one pending hardware queue slot, taking its head launch or task record. -/
  | dispatch
  /-- R379. Every 1,024 dispenser cycles the head record's DEP dword is read again. -/
  | depReread (queue : Nat)
  /-- R380. 256 cycles after finding its target level full, the dispenser retries a queued task record. -/
  | taskRecordRetry (queue : Nat)
  /-- R466. A multi-module launch record arrives at another module's dispenser, which checks it as its own. -/
  | remoteLaunchRecord (rec : List (BitVec 64)) (job : BitVec 16) (vmid : BitVec 8) (root : BitVec 64) (lid : BitVec 16) (pg : Bool)
  /-- R373. A launch wake reaches a core, writes CORETAG and XROOT and fills the launch latch. -/
  | launchWake (id : Nat)
  /-- R379. The core starts slot 0 from its launch latch once slot 0, or every slot, is absent. -/
  | launchStart (core : Nat)
  /-- R394. In the cycle after a candidate exists, the core selects the slot with the largest RUN for saving. -/
  | preemptSelect (core : Nat)
  /-- R395. The spill engine finishes the Cocoon and the slot becomes absent, reserved, with a resume record queued. -/
  | cocoonSaveDone (core : Nat)
  /-- R390. Every 256 cycles the continuation buffer retries a continuation whose target level was full. -/
  | continuationRetry (lpn : Nat)
  /-- R388. Every 64 cycles a TPOST that found its level full is reissued. -/
  | tpostRetry (lpn : Nat) (slot : Nat)
  /-- R392. A SLEEP's count runs out and it ends with zero in gd. -/
  | sleepExpiry (lpn : Nat) (slot : Nat) (id : Nat)
  /-- R416. A carry packet reaches its target and is accepted into a slot or the arrival queue, or refused. -/
  | carryPacketArrive (id : Nat)
  /-- R416. The target's acknowledgement makes the origin slot absent. -/
  | carryAck (id : Nat)
  /-- R416. A carry refusal returns and the thread resumes on the origin with a trap. -/
  | carryRefused (id : Nat)
  /-- R416. A packet refused busy is offered again every 64 cycles until WAITLIM expires. -/
  | carryReoffer (id : Nat)
  /-- R420. A write of the field configuration checks the field rules and writes the core's own block of the field table. -/
  | fieldcfgWrite (v : BitVec 64)
  /-- R429. A field core receives step G from the owner, checks its configuration and counts its residents. -/
  | fieldStepNotice (core : Nat) (owner : Nat) (gen : BitVec 16)
  /-- R429. A core receives resident counts from cores owning adjacent bins. -/
  | fieldResidentCount (core : Nat) (src : Nat) (n : Nat)
  /-- R430. A crowded core hands its fullest boundary bin to the least crowded neighbour and broadcasts the change. -/
  | fieldHandover (core : Nat)
  /-- R429. Each core forms its snapshot of bound threads under the updated map. -/
  | fieldSnapshot (core : Nat)
  /-- R429. Snapshot entries arrive in the halo tables of cores owning neighbouring bins. -/
  | fieldHaloCopy (core : Nat) (src : Nat)
  /-- R429. When every core has acknowledged, the owner releases the barrier waiters and displaced residents migrate. -/
  | fieldStepRelease (owner : Nat)
  /-- R433. A placement cache miss asks the placement arbiter, which returns the entry and registers the cacher. -/
  | placementLookup (core : Nat) (lpn : Nat)
  /-- R434. An item for a process the core no longer hosts is forwarded or sent via the arbiter, with an update to the sender. -/
  | forwardItem (id : Nat) (core : Nat)
  /-- R436. At each sweep period the core halves its send weights, reports them and cools its temperature. -/
  | flutterSweep (core : Nat)
  /-- R436. A reported weight arrives and is written to RWT of the receive entry. -/
  | weightReport (id : Nat)
  /-- R439. At each proposal period the core draws a direction and sends a swap proposal with its half of the cost change. -/
  | flutterPropose (core : Nat)
  /-- R440. A neighbour receives a proposal and answers with its half of the cost change or a refusal. -/
  | proposalAnswer (core : Nat) (src : Nat)
  /-- R441. The proposer receives the answer, rechecks and decides by the cost change, temperature and a draw. -/
  | proposalDecide (core : Nat)
  /-- R440. The neighbour receives an accepting decision and rechecks before the swap starts. -/
  | decisionReceive (core : Nat)
  /-- R448. Both cores freeze, land results, finish saves and empty their stashes. -/
  | swapFreeze (x : Nat) (y : Nat)
  /-- R448. The two processes' state, contexts, queues and used pages cross the link. -/
  | swapMove (x : Nat) (y : Nat)
  /-- R448. The placement arbiter changes both entries in one step and invalidates their cachers. -/
  | swapFlip (x : Nat) (y : Nat)
  /-- R448. Each core enters a forwarding entry, thaws and handles waiting items. -/
  | swapResume (x : Nat) (y : Nat)
  /-- R449. A cacher drops its placement entry and acknowledges to the arbiter. -/
  | placementInvalidate (core : Nat) (lpn : Nat)
  /-- R449. After all cachers acknowledged, a retire drops the forwarding entry. -/
  | forwardRetire (core : Nat) (lpn : Nat)
  /-- R461. An inbound BAR2 read or write is performed as engine elements of the VF's VMID. -/
  | bar2Access (vf : Nat) (addr : BitVec 40) (wr : Bool) (v : BitVec 64)
  /-- R463. A host-window PCIe request completes, returning data or all ones on error. -/
  | hostWindowCompletion (id : Nat) (ok : Bool) (v : BitVec 64)
  /-- R467. A Bronex flit that fails authentication is dropped, retried and raises alarm source 5. -/
  | bronexAuthFail (link : Nat)
  /-- R467. A failed Bronex link is removed from the routes. -/
  | bronexLinkFail (link : Nat)
  /-- R467. A request that waited 2^24 cycles without a route is refused. -/
  | routeWaitTimeout (id : Nat)
  /-- R469. A core idle for 2^16 cycles with AG set closes its power switch. -/
  | powerGate (core : Nat)
  /-- R470. A packet or launch wake for a core aborts gating or powers the core up. -/
  | coreWake (core : Nat)
  /-- R473. A row reaching the RUN temperature goes to step 7 and raises alarm source 3. -/
  | thermalRunaway (row : Nat)
  /-- R475. At the end of each 2^20-cycle interval the controller allots tenant power and sets OVER. -/
  | powerInterval
  /-- R478. The voltage glitch detector raises alarm source 0. -/
  | voltageGlitch
  /-- R478. The clock glitch detector raises alarm source 1. -/
  | clockGlitch
  /-- R478. Opening the package tamper loop raises alarm source 2. -/
  | tamperLoopOpen
  /-- R335. An alarm acts on running work by its configured level: notify, freeze the tenant or zeroise and stop the module. -/
  | chrysalisAlarm (src : Nat) (tenants : List Nat)
  /-- R478. A write of alarm levels, refused with PRIV and source 4 when LOCK is set and a level is lowered. -/
  | chalcfgWrite (v : BitVec 64)
  /-- R478. A write clears the alarm log. -/
  | challogClear
  /-- R477. Chrysalis signs a report of Lomter's hash, security version, zeroise count and a nonce. -/
  | attestationReport (nonce : BitVec 256)
  /-- R476. At reset Chrysalis verifies Lomter's signature and version and starts or holds Imago. -/
  | chrysalisBoot (sigOk : Bool) (version : BitVec 64) (hash : BitVec 256)
  /-- R479. Reset powers every core with CORETAG 0, every slot absent and every queue slot disabled. -/
  | reset
  /-- R159. Lomter stops a slot, which enters halted with its context kept and readable at M. -/
  | stopByLomter (lpn : Nat) (slot : Nat)
  /-- R159. Lomter restarts a halted slot, making it ready, or releases it, making it absent. -/
  | slotRestart (lpn : Nat) (slot : Nat) (release : Bool)
  /-- R335. Lomter thaws cores frozen by a level-2 alarm or left frozen after a checkpoint seal, and they resume issue. -/
  | thaw (core : Nat)
  /-- R173. Lomter ends a job, clearing CORETAG and XROOT in its cores, the used bits, the sequence tables and the job's placement entries. -/
  | jobEnd (job : BitVec 16)
  /-- R464. A Bronex link comes up, Chrysalis sets its session key and checks the domain, and its BRXUP bit is set. -/
  | bronexLinkUp (link : Nat) (domain : BitVec 8)
  /-- R473. A row's temperature or power reading changes, updating TEMP, PWR and HOT and so the thermal step and withholding. -/
  | rowSensorReading (row : Nat) (temp : BitVec 12) (pwr : BitVec 12)
  deriving DecidableEq, Repr

end Sys2Proof
end

