-- ==== Sys2Proof/Machine/Access.lean ====
section
/-!
DEFINITION. What the words of a bundle name before they act: the guard of a word (R179), whether word A is a boundary
operation (R135), the registers read with their sync bits (R180) and the registers written. Events name none.
-/

namespace Sys2Proof

/-- Operand b: the register, unless an extension stands for it (R188). -/
def opB (b : Reg) (sb : Bool) : Option W32 → List (Reg × Bool)
  | none => [(b, sb)]
  | some _ => []

/-- The run of n + 1 registers that starts at d (R188). -/
def regRun (d : Reg) (n : BitVec 3) : List Reg :=
  (List.range (n.toNat + 1)).map fun i => d + BitVec.ofNat 5 i

/-- The guard; LOOP and LOOPI have none (R179). -/
def Instr.guard : Instr → Pred
  | .nop r => r.g
  | .halt r => r.g
  | .yield r => r.g
  | .br r => r.g
  | .jmp r => r.g
  | .call r => r.g
  | .jr r => r.g
  | .loop _ => 0
  | .loopi _ => 0
  | .ldB r => r.g
  | .ldH r => r.g
  | .ldW r => r.g
  | .ldD r => r.g
  | .ldsB r => r.g
  | .ldsH r => r.g
  | .ldsW r => r.g
  | .st r => r.g
  | .ldx r => r.g
  | .stx r => r.g
  | .ldsync r => r.g
  | .ldff r => r.g
  | .stsync r => r.g
  | .stfill r => r.g
  | .sete r => r.g
  | .afaa r => r.g
  | .axchg r => r.g
  | .acas r => r.g
  | .amin r => r.g
  | .amax r => r.g
  | .aminu r => r.g
  | .amaxu r => r.g
  | .aand r => r.g
  | .aor r => r.g
  | .afaaN r => r.g
  | .axchgN r => r.g
  | .acasN r => r.g
  | .aminN r => r.g
  | .amaxN r => r.g
  | .aminuN r => r.g
  | .amaxuN r => r.g
  | .aandN r => r.g
  | .aorN r => r.g
  | .spin r => r.g
  | .sflush r => r.g
  | .sinv r => r.g
  | .pref r => r.g
  | .fenceH r => r.g
  | .fenceE r => r.g
  | .fenceP r => r.g
  | .chunk r => r.g
  | .iflush r => r.g
  | .send r => r.g
  | .recv r => r.g
  | .peek r => r.g
  | .chstat r => r.g
  | .waitm r => r.g
  | .waitmI r => r.g
  | .inb r => r.g
  | .msgmask r => r.g
  | .retu r => r.g
  | .spawn r => r.g
  | .tnext r => r.g
  | .tpost r => r.g
  | .retj r => r.g
  | .sleep r => r.g
  | .barw r => r.g
  | .bara r => r.g
  | .barcfg r => r.g
  | .cancelL r => r.g
  | .cancelG r => r.g
  | .cancelJ r => r.g
  | .bcopy r => r.g
  | .strm r => r.g
  | .strmx r => r.g
  | .mbw r => r.g
  | .mbr r => r.g
  | .mcfg r => r.g
  | .mzero r => r.g
  | .mma r => r.g
  | .mend r => r.g
  | .msto r => r.g
  | .mstat r => r.g
  | .gangStart _ => 0
  | .ganglimExpiry _ _ _ => 0
  | .setpos r => r.g
  | .getpos r => r.g
  | .publ r => r.g
  | .neigh r => r.g
  | .nextn r => r.g
  | .migr r => r.g
  | .whereIs r => r.g
  | .anchor r => r.g
  | .peer r => r.g
  | .sysr r => r.g
  | .sysw r => r.g
  | .tlbiVa r => r.g
  | .tlbiJob r => r.g
  | .tlbiVm r => r.g
  | .tlbiGpa r => r.g
  | .tlbiAll r => r.g
  | .tlbiInvalidate _ => 0
  | .tlbiDone _ _ => 0
  | .svc r => r.g
  | .eret r => r.g
  | .wake r => r.g
  | .add r => r.g
  | .sub r => r.g
  | .mul r => r.g
  | .mulh r => r.g
  | .mulhu r => r.g
  | .div r => r.g
  | .divu r => r.g
  | .rem r => r.g
  | .remu r => r.g
  | .and r => r.g
  | .or r => r.g
  | .xor r => r.g
  | .andn r => r.g
  | .shl r => r.g
  | .shr r => r.g
  | .sar r => r.g
  | .ror r => r.g
  | .min r => r.g
  | .max r => r.g
  | .minu r => r.g
  | .maxu r => r.g
  | .clz r => r.g
  | .ctz r => r.g
  | .popc r => r.g
  | .extr r => r.g
  | .insr r => r.g
  | .addi r => r.g
  | .andi r => r.g
  | .ori r => r.g
  | .xori r => r.g
  | .shli r => r.g
  | .shri r => r.g
  | .sari r => r.g
  | .rori r => r.g
  | .movi r => r.g
  | .movh r => r.g
  | .cmp r => r.g
  | .cmpi r => r.g
  | .pand r => r.g
  | .pandn r => r.g
  | .por r => r.g
  | .pxor r => r.g
  | .pnot r => r.g
  | .rdpw r => r.g
  | .wrpw r => r.g
  | .sel r => r.g
  | .vadd r => r.g
  | .vadds r => r.g
  | .vsub r => r.g
  | .vsubs r => r.g
  | .vmul r => r.g
  | .vmulh r => r.g
  | .vmin r => r.g
  | .vmax r => r.g
  | .vavg r => r.g
  | .vabsd r => r.g
  | .vshl r => r.g
  | .vshr r => r.g
  | .vcmpeq r => r.g
  | .vcmpgt r => r.g
  | .vsplat r => r.g
  | .vpack r => r.g
  | .vunpk r => r.g
  | .fadd r => r.g
  | .fsub r => r.g
  | .fmul r => r.g
  | .fdiv r => r.g
  | .fsqrt r => r.g
  | .fmin r => r.g
  | .fmax r => r.g
  | .fma r => r.g
  | .fneg r => r.g
  | .fabs r => r.g
  | .fcmp r => r.g
  | .fclass r => r.g
  | .fcvt r => r.g
  | .bundleIssue _ _ => 0
  | .rotationBoundary _ => 0
  | .landingResult _ => 0
  | .remoteReply _ => 0
  | .timingReplay _ _ => 0
  | .egressLatchRelease _ => 0
  | .chunkCommit _ _ => 0
  | .domainAcquire _ _ _ => 0
  | .domainApply _ _ _ => 0
  | .pinWaitLimit _ _ => 0
  | .engineElementWrite _ => 0
  | .engineElementRead _ => 0
  | .engineCompletion _ => 0
  | .inboxEntryPlace _ => 0
  | .remoteRequest _ => 0
  | .refusalArrival _ => 0
  | .fullEmptyService _ _ => 0
  | .waitListRetry _ _ => 0
  | .busyReissue _ _ => 0
  | .waitlimExpiry _ _ _ => 0
  | .waitWithdrawal _ => 0
  | .barlimExpiry _ _ _ => 0
  | .segStageWrite _ _ => 0
  | .segCommit _ _ => 0
  | .coretagWrite _ => 0
  | .xrootWrite _ => 0
  | .lmmapWrite _ => 0
  | .pageWalk _ => 0
  | .parkedAnswer _ _ => 0
  | .stashFillReply _ => 0
  | .stashInvalidate _ _ => 0
  | .stashRecall _ _ _ => 0
  | .stashRevoke _ _ => 0
  | .exclusiveGrant _ _ => 0
  | .l2FillRequest _ => 0
  | .l2OwnershipRequest _ => 0
  | .l2DropNotice _ => 0
  | .l2Writeback _ => 0
  | .l2InvalidateAck _ => 0
  | .l2Atomic _ => 0
  | .omegaCombine _ _ => 0
  | .combineSplit _ => 0
  | .tileRequest _ => 0
  | .tileMergeClose _ _ => 0
  | .tilePinRelease _ _ => 0
  | .maskScrub _ => 0
  | .bucketRefill _ => 0
  | .tokenRetry _ => 0
  | .l2partWrite _ _ => 0
  | .l2bwWrite _ _ => 0
  | .l2statClear => 0
  | .s2Translate _ => 0
  | .s2UpgradeCheck _ => 0
  | .s2BlockedRetry _ => 0
  | .mscFill _ => 0
  | .mscWriteback _ => 0
  | .mscNonallocWrite _ => 0
  | .controllerFillReturn _ _ => 0
  | .psnansRepaired _ => 0
  | .psnansLost _ => 0
  | .repairTimeout _ => 0
  | .pgblkBlock _ => 0
  | .pgblkAbandon _ => 0
  | .pageDrainDone _ => 0
  | .pageCopyStart _ => 0
  | .pageCopyDone => 0
  | .checkpointStart => 0
  | .powerFailInput => 0
  | .checkpointFlush => 0
  | .checkpointCopy => 0
  | .checkpointSeal => 0
  | .launchComplete _ => 0
  | .messageArrive _ => 0
  | .skipNoticeArrive _ => 0
  | .messageAck _ => 0
  | .messageRefused _ => 0
  | .messageReoffer _ _ => 0
  | .skipNoticeReoffer _ => 0
  | .sendlimExpiry _ _ _ => 0
  | .placementUpdate _ _ _ => 0
  | .userInterruptDeliver _ _ => 0
  | .mailboxService _ _ => 0
  | .streamReadAhead _ _ => 0
  | .doorbellWrite _ _ => 0
  | .doorbellHeadRead _ => 0
  | .dqptrWrite _ => 0
  | .dispatch => 0
  | .depReread _ => 0
  | .taskRecordRetry _ => 0
  | .remoteLaunchRecord _ _ _ _ _ _ => 0
  | .launchWake _ => 0
  | .launchStart _ => 0
  | .preemptSelect _ => 0
  | .cocoonSaveDone _ => 0
  | .continuationRetry _ => 0
  | .tpostRetry _ _ => 0
  | .sleepExpiry _ _ _ => 0
  | .carryPacketArrive _ => 0
  | .carryAck _ => 0
  | .carryRefused _ => 0
  | .carryReoffer _ => 0
  | .fieldcfgWrite _ => 0
  | .fieldStepNotice _ _ _ => 0
  | .fieldResidentCount _ _ _ => 0
  | .fieldHandover _ => 0
  | .fieldSnapshot _ => 0
  | .fieldHaloCopy _ _ => 0
  | .fieldStepRelease _ => 0
  | .placementLookup _ _ => 0
  | .forwardItem _ _ => 0
  | .flutterSweep _ => 0
  | .weightReport _ => 0
  | .flutterPropose _ => 0
  | .proposalAnswer _ _ => 0
  | .proposalDecide _ => 0
  | .decisionReceive _ => 0
  | .swapFreeze _ _ => 0
  | .swapMove _ _ => 0
  | .swapFlip _ _ => 0
  | .swapResume _ _ => 0
  | .placementInvalidate _ _ => 0
  | .forwardRetire _ _ => 0
  | .bar2Access _ _ _ _ => 0
  | .hostWindowCompletion _ _ _ => 0
  | .bronexAuthFail _ => 0
  | .bronexLinkFail _ => 0
  | .routeWaitTimeout _ => 0
  | .powerGate _ => 0
  | .coreWake _ => 0
  | .thermalRunaway _ => 0
  | .powerInterval => 0
  | .voltageGlitch => 0
  | .clockGlitch => 0
  | .tamperLoopOpen => 0
  | .chrysalisAlarm _ _ => 0
  | .chalcfgWrite _ => 0
  | .challogClear => 0
  | .attestationReport _ => 0
  | .chrysalisBoot _ _ _ => 0
  | .reset => 0
  | .stopByLomter _ _ => 0
  | .slotRestart _ _ _ => 0
  | .thaw _ => 0
  | .jobEnd _ => 0
  | .bronexLinkUp _ _ => 0
  | .rowSensorReading _ _ _ => 0

/-- A boundary operation by its class; the rows on an access depend on where it goes (R135). -/
def Instr.boundary : Instr → Bool
  | .nop _ => false
  | .halt _ => true
  | .yield _ => true
  | .br _ => false
  | .jmp _ => false
  | .call _ => false
  | .jr _ => false
  | .loop _ => false
  | .loopi _ => false
  | .ldB _ => false
  | .ldH _ => false
  | .ldW _ => false
  | .ldD _ => false
  | .ldsB _ => false
  | .ldsH _ => false
  | .ldsW _ => false
  | .st _ => false
  | .ldx _ => false
  | .stx _ => false
  | .ldsync _ => true
  | .ldff _ => true
  | .stsync _ => true
  | .stfill _ => true
  | .sete _ => true
  | .afaa _ => true
  | .axchg _ => true
  | .acas _ => true
  | .amin _ => true
  | .amax _ => true
  | .aminu _ => true
  | .amaxu _ => true
  | .aand _ => true
  | .aor _ => true
  | .afaaN _ => true
  | .axchgN _ => true
  | .acasN _ => true
  | .aminN _ => true
  | .amaxN _ => true
  | .aminuN _ => true
  | .amaxuN _ => true
  | .aandN _ => true
  | .aorN _ => true
  | .spin _ => true
  | .sflush _ => true
  | .sinv _ => true
  | .pref _ => false
  | .fenceH _ => true
  | .fenceE _ => true
  | .fenceP _ => true
  | .chunk _ => true
  | .iflush _ => true
  | .send _ => true
  | .recv _ => true
  | .peek _ => true
  | .chstat _ => true
  | .waitm _ => true
  | .waitmI _ => true
  | .inb _ => true
  | .msgmask _ => true
  | .retu _ => true
  | .spawn _ => true
  | .tnext _ => true
  | .tpost _ => true
  | .retj _ => true
  | .sleep _ => true
  | .barw _ => true
  | .bara _ => true
  | .barcfg _ => true
  | .cancelL _ => true
  | .cancelG _ => true
  | .cancelJ _ => true
  | .bcopy _ => true
  | .strm _ => true
  | .strmx _ => true
  | .mbw _ => true
  | .mbr _ => true
  | .mcfg _ => true
  | .mzero _ => true
  | .mma _ => true
  | .mend _ => true
  | .msto _ => true
  | .mstat _ => true
  | .gangStart _ => false
  | .ganglimExpiry _ _ _ => false
  | .setpos _ => true
  | .getpos _ => true
  | .publ _ => true
  | .neigh _ => true
  | .nextn _ => true
  | .migr _ => true
  | .whereIs _ => true
  | .anchor _ => true
  | .peer _ => true
  | .sysr _ => true
  | .sysw _ => true
  | .tlbiVa _ => true
  | .tlbiJob _ => true
  | .tlbiVm _ => true
  | .tlbiGpa _ => true
  | .tlbiAll _ => true
  | .tlbiInvalidate _ => false
  | .tlbiDone _ _ => false
  | .svc _ => true
  | .eret _ => true
  | .wake _ => true
  | .add _ => false
  | .sub _ => false
  | .mul _ => false
  | .mulh _ => false
  | .mulhu _ => false
  | .div _ => false
  | .divu _ => false
  | .rem _ => false
  | .remu _ => false
  | .and _ => false
  | .or _ => false
  | .xor _ => false
  | .andn _ => false
  | .shl _ => false
  | .shr _ => false
  | .sar _ => false
  | .ror _ => false
  | .min _ => false
  | .max _ => false
  | .minu _ => false
  | .maxu _ => false
  | .clz _ => false
  | .ctz _ => false
  | .popc _ => false
  | .extr _ => false
  | .insr _ => false
  | .addi _ => false
  | .andi _ => false
  | .ori _ => false
  | .xori _ => false
  | .shli _ => false
  | .shri _ => false
  | .sari _ => false
  | .rori _ => false
  | .movi _ => false
  | .movh _ => false
  | .cmp _ => false
  | .cmpi _ => false
  | .pand _ => false
  | .pandn _ => false
  | .por _ => false
  | .pxor _ => false
  | .pnot _ => false
  | .rdpw _ => false
  | .wrpw _ => false
  | .sel _ => false
  | .vadd _ => false
  | .vadds _ => false
  | .vsub _ => false
  | .vsubs _ => false
  | .vmul _ => false
  | .vmulh _ => false
  | .vmin _ => false
  | .vmax _ => false
  | .vavg _ => false
  | .vabsd _ => false
  | .vshl _ => false
  | .vshr _ => false
  | .vcmpeq _ => false
  | .vcmpgt _ => false
  | .vsplat _ => false
  | .vpack _ => false
  | .vunpk _ => false
  | .fadd _ => false
  | .fsub _ => false
  | .fmul _ => false
  | .fdiv _ => false
  | .fsqrt _ => false
  | .fmin _ => false
  | .fmax _ => false
  | .fma _ => false
  | .fneg _ => false
  | .fabs _ => false
  | .fcmp _ => false
  | .fclass _ => false
  | .fcvt _ => false
  | .bundleIssue _ _ => false
  | .rotationBoundary _ => false
  | .landingResult _ => false
  | .remoteReply _ => false
  | .timingReplay _ _ => false
  | .egressLatchRelease _ => false
  | .chunkCommit _ _ => false
  | .domainAcquire _ _ _ => false
  | .domainApply _ _ _ => false
  | .pinWaitLimit _ _ => false
  | .engineElementWrite _ => false
  | .engineElementRead _ => false
  | .engineCompletion _ => false
  | .inboxEntryPlace _ => false
  | .remoteRequest _ => false
  | .refusalArrival _ => false
  | .fullEmptyService _ _ => false
  | .waitListRetry _ _ => false
  | .busyReissue _ _ => false
  | .waitlimExpiry _ _ _ => false
  | .waitWithdrawal _ => false
  | .barlimExpiry _ _ _ => false
  | .segStageWrite _ _ => false
  | .segCommit _ _ => false
  | .coretagWrite _ => false
  | .xrootWrite _ => false
  | .lmmapWrite _ => false
  | .pageWalk _ => false
  | .parkedAnswer _ _ => false
  | .stashFillReply _ => false
  | .stashInvalidate _ _ => false
  | .stashRecall _ _ _ => false
  | .stashRevoke _ _ => false
  | .exclusiveGrant _ _ => false
  | .l2FillRequest _ => false
  | .l2OwnershipRequest _ => false
  | .l2DropNotice _ => false
  | .l2Writeback _ => false
  | .l2InvalidateAck _ => false
  | .l2Atomic _ => false
  | .omegaCombine _ _ => false
  | .combineSplit _ => false
  | .tileRequest _ => false
  | .tileMergeClose _ _ => false
  | .tilePinRelease _ _ => false
  | .maskScrub _ => false
  | .bucketRefill _ => false
  | .tokenRetry _ => false
  | .l2partWrite _ _ => false
  | .l2bwWrite _ _ => false
  | .l2statClear => false
  | .s2Translate _ => false
  | .s2UpgradeCheck _ => false
  | .s2BlockedRetry _ => false
  | .mscFill _ => false
  | .mscWriteback _ => false
  | .mscNonallocWrite _ => false
  | .controllerFillReturn _ _ => false
  | .psnansRepaired _ => false
  | .psnansLost _ => false
  | .repairTimeout _ => false
  | .pgblkBlock _ => false
  | .pgblkAbandon _ => false
  | .pageDrainDone _ => false
  | .pageCopyStart _ => false
  | .pageCopyDone => false
  | .checkpointStart => false
  | .powerFailInput => false
  | .checkpointFlush => false
  | .checkpointCopy => false
  | .checkpointSeal => false
  | .launchComplete _ => false
  | .messageArrive _ => false
  | .skipNoticeArrive _ => false
  | .messageAck _ => false
  | .messageRefused _ => false
  | .messageReoffer _ _ => false
  | .skipNoticeReoffer _ => false
  | .sendlimExpiry _ _ _ => false
  | .placementUpdate _ _ _ => false
  | .userInterruptDeliver _ _ => false
  | .mailboxService _ _ => false
  | .streamReadAhead _ _ => false
  | .doorbellWrite _ _ => false
  | .doorbellHeadRead _ => false
  | .dqptrWrite _ => false
  | .dispatch => false
  | .depReread _ => false
  | .taskRecordRetry _ => false
  | .remoteLaunchRecord _ _ _ _ _ _ => false
  | .launchWake _ => false
  | .launchStart _ => false
  | .preemptSelect _ => false
  | .cocoonSaveDone _ => false
  | .continuationRetry _ => false
  | .tpostRetry _ _ => false
  | .sleepExpiry _ _ _ => false
  | .carryPacketArrive _ => false
  | .carryAck _ => false
  | .carryRefused _ => false
  | .carryReoffer _ => false
  | .fieldcfgWrite _ => false
  | .fieldStepNotice _ _ _ => false
  | .fieldResidentCount _ _ _ => false
  | .fieldHandover _ => false
  | .fieldSnapshot _ => false
  | .fieldHaloCopy _ _ => false
  | .fieldStepRelease _ => false
  | .placementLookup _ _ => false
  | .forwardItem _ _ => false
  | .flutterSweep _ => false
  | .weightReport _ => false
  | .flutterPropose _ => false
  | .proposalAnswer _ _ => false
  | .proposalDecide _ => false
  | .decisionReceive _ => false
  | .swapFreeze _ _ => false
  | .swapMove _ _ => false
  | .swapFlip _ _ => false
  | .swapResume _ _ => false
  | .placementInvalidate _ _ => false
  | .forwardRetire _ _ => false
  | .bar2Access _ _ _ _ => false
  | .hostWindowCompletion _ _ _ => false
  | .bronexAuthFail _ => false
  | .bronexLinkFail _ => false
  | .routeWaitTimeout _ => false
  | .powerGate _ => false
  | .coreWake _ => false
  | .thermalRunaway _ => false
  | .powerInterval => false
  | .voltageGlitch => false
  | .clockGlitch => false
  | .tamperLoopOpen => false
  | .chrysalisAlarm _ _ => false
  | .chalcfgWrite _ => false
  | .challogClear => false
  | .attestationReport _ => false
  | .chrysalisBoot _ _ _ => false
  | .reset => false
  | .stopByLomter _ _ => false
  | .slotRestart _ _ _ => false
  | .thaw _ => false
  | .jobEnd _ => false
  | .bronexLinkUp _ _ => false
  | .rowSensorReading _ _ _ => false

/-- The registers read, each with its sync bit. -/
def Instr.reads : Instr → List (Reg × Bool)
  | .nop _ => []
  | .halt _ => []
  | .yield _ => []
  | .br _ => []
  | .jmp _ => []
  | .call _ => []
  | .jr r => [(r.a, r.sa)]
  | .loop r => [(r.a, r.sa)]
  | .loopi _ => []
  | .ldB r => [(r.a, false)]
  | .ldH r => [(r.a, false)]
  | .ldW r => [(r.a, false)]
  | .ldD r => [(r.a, false)]
  | .ldsB r => [(r.a, false)]
  | .ldsH r => [(r.a, false)]
  | .ldsW r => [(r.a, false)]
  | .st r => [(r.a, false), (r.d, false)]
  | .ldx r => [(r.a, false)]
  | .stx r => [(r.a, false), (r.d, false)]
  | .ldsync r => [(r.a, false)]
  | .ldff r => [(r.a, false)]
  | .stsync r => [(r.a, false), (r.d, false)]
  | .stfill r => [(r.a, false), (r.d, false)]
  | .sete r => [(r.a, false)]
  | .afaa r => [(r.a, false), (r.d, false)]
  | .axchg r => [(r.a, false), (r.d, false)]
  | .acas r => [(r.a, false), (r.d, false), (r.b, false)]
  | .amin r => [(r.a, false), (r.d, false)]
  | .amax r => [(r.a, false), (r.d, false)]
  | .aminu r => [(r.a, false), (r.d, false)]
  | .amaxu r => [(r.a, false), (r.d, false)]
  | .aand r => [(r.a, false), (r.d, false)]
  | .aor r => [(r.a, false), (r.d, false)]
  | .afaaN r => [(r.a, false), (r.d, false)]
  | .axchgN r => [(r.a, false), (r.d, false)]
  | .acasN r => [(r.a, false), (r.d, false), (r.b, false)]
  | .aminN r => [(r.a, false), (r.d, false)]
  | .amaxN r => [(r.a, false), (r.d, false)]
  | .aminuN r => [(r.a, false), (r.d, false)]
  | .amaxuN r => [(r.a, false), (r.d, false)]
  | .aandN r => [(r.a, false), (r.d, false)]
  | .aorN r => [(r.a, false), (r.d, false)]
  | .spin r => [(r.a, false)]
  | .sflush r => [(r.a, false)]
  | .sinv r => [(r.a, false)]
  | .pref r => [(r.a, false)]
  | .fenceH _ => []
  | .fenceE _ => []
  | .fenceP _ => []
  | .chunk _ => []
  | .iflush _ => []
  | .send r => opB r.b false r.x ++ (regRun r.d r.n).map fun q => (q, false)
  | .recv _ => []
  | .peek _ => []
  | .chstat _ => []
  | .waitm _ => []
  | .waitmI _ => []
  | .inb _ => []
  | .msgmask r => opB r.b r.sb r.x
  | .retu _ => []
  | .spawn r => [(r.a, r.sa)] ++ opB r.b r.sb r.x
  | .tnext _ => []
  | .tpost r => [(r.a, r.sa)] ++ opB r.b r.sb r.x
  | .retj _ => []
  | .sleep r => opB r.b r.sb r.x
  | .barw r => [(r.a, r.sa)] ++ opB r.b r.sb r.x
  | .bara r => [(r.a, r.sa)] ++ opB r.b r.sb r.x
  | .barcfg r => [(r.a, r.sa)] ++ opB r.b r.sb r.x
  | .cancelL r => opB r.b r.sb r.x
  | .cancelG r => opB r.b r.sb r.x
  | .cancelJ r => opB r.b r.sb r.x
  | .bcopy r => [(r.a, r.sa)] ++ opB r.b r.sb r.x
  | .strm r => [(r.a, r.sa)] ++ opB r.b r.sb r.x
  | .strmx _ => []
  | .mbw r => [(r.a, r.sa)]
  | .mbr _ => []
  | .mcfg r => [(r.a, r.sa)] ++ opB r.b r.sb r.x
  | .mzero _ => []
  | .mma r => [(r.a, r.sa)] ++ opB r.b r.sb r.x
  | .mend _ => []
  | .msto r => [(r.a, r.sa)] ++ opB r.b r.sb r.x
  | .mstat r => [(r.a, r.sa)]
  | .gangStart _ => []
  | .ganglimExpiry _ _ _ => []
  | .setpos r => opB r.b r.sb r.x
  | .getpos _ => []
  | .publ r => opB r.b r.sb r.x
  | .neigh r => opB r.b r.sb r.x
  | .nextn _ => []
  | .migr r => opB r.b r.sb r.x
  | .whereIs r => opB r.b r.sb r.x
  | .anchor r => opB r.b r.sb r.x
  | .peer r => opB r.b r.sb r.x
  | .sysr _ => []
  | .sysw r => [(r.d, r.sd)]
  | .tlbiVa r => [(r.a, r.sa)]
  | .tlbiJob _ => []
  | .tlbiVm r => [(r.b, r.sb)]
  | .tlbiGpa r => [(r.a, r.sa), (r.b, r.sb)]
  | .tlbiAll _ => []
  | .tlbiInvalidate _ => []
  | .tlbiDone _ _ => []
  | .svc _ => []
  | .eret _ => []
  | .wake r => [(r.a, r.sa), (r.b, r.sb)]
  | .add r => [(r.a, r.sa), (r.b, r.sb)]
  | .sub r => [(r.a, r.sa), (r.b, r.sb)]
  | .mul r => [(r.a, r.sa), (r.b, r.sb)]
  | .mulh r => [(r.a, r.sa), (r.b, r.sb)]
  | .mulhu r => [(r.a, r.sa), (r.b, r.sb)]
  | .div r => [(r.a, r.sa), (r.b, r.sb)]
  | .divu r => [(r.a, r.sa), (r.b, r.sb)]
  | .rem r => [(r.a, r.sa), (r.b, r.sb)]
  | .remu r => [(r.a, r.sa), (r.b, r.sb)]
  | .and r => [(r.a, r.sa), (r.b, r.sb)]
  | .or r => [(r.a, r.sa), (r.b, r.sb)]
  | .xor r => [(r.a, r.sa), (r.b, r.sb)]
  | .andn r => [(r.a, r.sa), (r.b, r.sb)]
  | .shl r => [(r.a, r.sa), (r.b, r.sb)]
  | .shr r => [(r.a, r.sa), (r.b, r.sb)]
  | .sar r => [(r.a, r.sa), (r.b, r.sb)]
  | .ror r => [(r.a, r.sa), (r.b, r.sb)]
  | .min r => [(r.a, r.sa), (r.b, r.sb)]
  | .max r => [(r.a, r.sa), (r.b, r.sb)]
  | .minu r => [(r.a, r.sa), (r.b, r.sb)]
  | .maxu r => [(r.a, r.sa), (r.b, r.sb)]
  | .clz r => [(r.a, r.sa)]
  | .ctz r => [(r.a, r.sa)]
  | .popc r => [(r.a, r.sa)]
  | .extr r => [(r.a, r.sa), (r.b, r.sb)]
  | .insr r => [(r.a, r.sa), (r.b, r.sb), (r.d, false)]
  | .addi r => [(r.a, r.sa)]
  | .andi r => [(r.a, r.sa)]
  | .ori r => [(r.a, r.sa)]
  | .xori r => [(r.a, r.sa)]
  | .shli r => [(r.a, r.sa)]
  | .shri r => [(r.a, r.sa)]
  | .sari r => [(r.a, r.sa)]
  | .rori r => [(r.a, r.sa)]
  | .movi _ => []
  | .movh r => [(r.d, false)]
  | .cmp r => [(r.a, r.sa), (r.b, r.sb)]
  | .cmpi r => [(r.a, r.sa)]
  | .pand _ => []
  | .pandn _ => []
  | .por _ => []
  | .pxor _ => []
  | .pnot _ => []
  | .rdpw _ => []
  | .wrpw r => [(r.a, r.sa)]
  | .sel r => [(r.a, r.sa), (r.b, r.sb)]
  | .vadd r => [(r.a, r.sa), (r.b, r.sb)]
  | .vadds r => [(r.a, r.sa), (r.b, r.sb)]
  | .vsub r => [(r.a, r.sa), (r.b, r.sb)]
  | .vsubs r => [(r.a, r.sa), (r.b, r.sb)]
  | .vmul r => [(r.a, r.sa), (r.b, r.sb)]
  | .vmulh r => [(r.a, r.sa), (r.b, r.sb)]
  | .vmin r => [(r.a, r.sa), (r.b, r.sb)]
  | .vmax r => [(r.a, r.sa), (r.b, r.sb)]
  | .vavg r => [(r.a, r.sa), (r.b, r.sb)]
  | .vabsd r => [(r.a, r.sa), (r.b, r.sb)]
  | .vshl r => [(r.a, r.sa), (r.b, r.sb)]
  | .vshr r => [(r.a, r.sa), (r.b, r.sb)]
  | .vcmpeq r => [(r.a, r.sa), (r.b, r.sb)]
  | .vcmpgt r => [(r.a, r.sa), (r.b, r.sb)]
  | .vsplat r => [(r.a, r.sa)]
  | .vpack r => [(r.a, r.sa), (r.b, r.sb)]
  | .vunpk r => [(r.a, r.sa)]
  | .fadd r => [(r.a, r.sa), (r.b, r.sb)]
  | .fsub r => [(r.a, r.sa), (r.b, r.sb)]
  | .fmul r => [(r.a, r.sa), (r.b, r.sb)]
  | .fdiv r => [(r.a, r.sa), (r.b, r.sb)]
  | .fsqrt r => [(r.a, r.sa)]
  | .fmin r => [(r.a, r.sa), (r.b, r.sb)]
  | .fmax r => [(r.a, r.sa), (r.b, r.sb)]
  | .fma r => [(r.a, r.sa), (r.b, r.sb), (r.d, false)]
  | .fneg r => [(r.a, r.sa)]
  | .fabs r => [(r.a, r.sa)]
  | .fcmp r => [(r.a, r.sa), (r.b, r.sb)]
  | .fclass r => [(r.a, r.sa)]
  | .fcvt r => [(r.a, r.sa)]
  | .bundleIssue _ _ => []
  | .rotationBoundary _ => []
  | .landingResult _ => []
  | .remoteReply _ => []
  | .timingReplay _ _ => []
  | .egressLatchRelease _ => []
  | .chunkCommit _ _ => []
  | .domainAcquire _ _ _ => []
  | .domainApply _ _ _ => []
  | .pinWaitLimit _ _ => []
  | .engineElementWrite _ => []
  | .engineElementRead _ => []
  | .engineCompletion _ => []
  | .inboxEntryPlace _ => []
  | .remoteRequest _ => []
  | .refusalArrival _ => []
  | .fullEmptyService _ _ => []
  | .waitListRetry _ _ => []
  | .busyReissue _ _ => []
  | .waitlimExpiry _ _ _ => []
  | .waitWithdrawal _ => []
  | .barlimExpiry _ _ _ => []
  | .segStageWrite _ _ => []
  | .segCommit _ _ => []
  | .coretagWrite _ => []
  | .xrootWrite _ => []
  | .lmmapWrite _ => []
  | .pageWalk _ => []
  | .parkedAnswer _ _ => []
  | .stashFillReply _ => []
  | .stashInvalidate _ _ => []
  | .stashRecall _ _ _ => []
  | .stashRevoke _ _ => []
  | .exclusiveGrant _ _ => []
  | .l2FillRequest _ => []
  | .l2OwnershipRequest _ => []
  | .l2DropNotice _ => []
  | .l2Writeback _ => []
  | .l2InvalidateAck _ => []
  | .l2Atomic _ => []
  | .omegaCombine _ _ => []
  | .combineSplit _ => []
  | .tileRequest _ => []
  | .tileMergeClose _ _ => []
  | .tilePinRelease _ _ => []
  | .maskScrub _ => []
  | .bucketRefill _ => []
  | .tokenRetry _ => []
  | .l2partWrite _ _ => []
  | .l2bwWrite _ _ => []
  | .l2statClear => []
  | .s2Translate _ => []
  | .s2UpgradeCheck _ => []
  | .s2BlockedRetry _ => []
  | .mscFill _ => []
  | .mscWriteback _ => []
  | .mscNonallocWrite _ => []
  | .controllerFillReturn _ _ => []
  | .psnansRepaired _ => []
  | .psnansLost _ => []
  | .repairTimeout _ => []
  | .pgblkBlock _ => []
  | .pgblkAbandon _ => []
  | .pageDrainDone _ => []
  | .pageCopyStart _ => []
  | .pageCopyDone => []
  | .checkpointStart => []
  | .powerFailInput => []
  | .checkpointFlush => []
  | .checkpointCopy => []
  | .checkpointSeal => []
  | .launchComplete _ => []
  | .messageArrive _ => []
  | .skipNoticeArrive _ => []
  | .messageAck _ => []
  | .messageRefused _ => []
  | .messageReoffer _ _ => []
  | .skipNoticeReoffer _ => []
  | .sendlimExpiry _ _ _ => []
  | .placementUpdate _ _ _ => []
  | .userInterruptDeliver _ _ => []
  | .mailboxService _ _ => []
  | .streamReadAhead _ _ => []
  | .doorbellWrite _ _ => []
  | .doorbellHeadRead _ => []
  | .dqptrWrite _ => []
  | .dispatch => []
  | .depReread _ => []
  | .taskRecordRetry _ => []
  | .remoteLaunchRecord _ _ _ _ _ _ => []
  | .launchWake _ => []
  | .launchStart _ => []
  | .preemptSelect _ => []
  | .cocoonSaveDone _ => []
  | .continuationRetry _ => []
  | .tpostRetry _ _ => []
  | .sleepExpiry _ _ _ => []
  | .carryPacketArrive _ => []
  | .carryAck _ => []
  | .carryRefused _ => []
  | .carryReoffer _ => []
  | .fieldcfgWrite _ => []
  | .fieldStepNotice _ _ _ => []
  | .fieldResidentCount _ _ _ => []
  | .fieldHandover _ => []
  | .fieldSnapshot _ => []
  | .fieldHaloCopy _ _ => []
  | .fieldStepRelease _ => []
  | .placementLookup _ _ => []
  | .forwardItem _ _ => []
  | .flutterSweep _ => []
  | .weightReport _ => []
  | .flutterPropose _ => []
  | .proposalAnswer _ _ => []
  | .proposalDecide _ => []
  | .decisionReceive _ => []
  | .swapFreeze _ _ => []
  | .swapMove _ _ => []
  | .swapFlip _ _ => []
  | .swapResume _ _ => []
  | .placementInvalidate _ _ => []
  | .forwardRetire _ _ => []
  | .bar2Access _ _ _ _ => []
  | .hostWindowCompletion _ _ _ => []
  | .bronexAuthFail _ => []
  | .bronexLinkFail _ => []
  | .routeWaitTimeout _ => []
  | .powerGate _ => []
  | .coreWake _ => []
  | .thermalRunaway _ => []
  | .powerInterval => []
  | .voltageGlitch => []
  | .clockGlitch => []
  | .tamperLoopOpen => []
  | .chrysalisAlarm _ _ => []
  | .chalcfgWrite _ => []
  | .challogClear => []
  | .attestationReport _ => []
  | .chrysalisBoot _ _ _ => []
  | .reset => []
  | .stopByLomter _ _ => []
  | .slotRestart _ _ _ => []
  | .thaw _ => []
  | .jobEnd _ => []
  | .bronexLinkUp _ _ => []
  | .rowSensorReading _ _ _ => []

/-- The general registers written, in order; a landing names its destination here. -/
def Instr.writes : Instr → List Reg
  | .nop _ => []
  | .halt _ => []
  | .yield _ => []
  | .br _ => []
  | .jmp _ => []
  | .call r => [r.d]
  | .jr r => [r.d]
  | .loop _ => []
  | .loopi _ => []
  | .ldB r => [r.d]
  | .ldH r => [r.d]
  | .ldW r => [r.d]
  | .ldD r => [r.d]
  | .ldsB r => [r.d]
  | .ldsH r => [r.d]
  | .ldsW r => [r.d]
  | .st _ => []
  | .ldx r => [r.d]
  | .stx _ => []
  | .ldsync r => [r.d]
  | .ldff r => [r.d]
  | .stsync _ => []
  | .stfill _ => []
  | .sete _ => []
  | .afaa r => [r.d]
  | .axchg r => [r.d]
  | .acas r => [r.d]
  | .amin r => [r.d]
  | .amax r => [r.d]
  | .aminu r => [r.d]
  | .amaxu r => [r.d]
  | .aand r => [r.d]
  | .aor r => [r.d]
  | .afaaN _ => []
  | .axchgN _ => []
  | .acasN _ => []
  | .aminN _ => []
  | .amaxN _ => []
  | .aminuN _ => []
  | .amaxuN _ => []
  | .aandN _ => []
  | .aorN _ => []
  | .spin _ => []
  | .sflush _ => []
  | .sinv _ => []
  | .pref _ => []
  | .fenceH _ => []
  | .fenceE _ => []
  | .fenceP _ => []
  | .chunk _ => []
  | .iflush _ => []
  | .send _ => []
  | .recv r => r.a :: regRun r.d r.n
  | .peek r => r.a :: regRun r.d r.n
  | .chstat r => [r.d]
  | .waitm _ => []
  | .waitmI _ => []
  | .inb r => [r.d, r.d + 1]
  | .msgmask r => [r.d]
  | .retu _ => []
  | .spawn _ => []
  | .tnext r => [r.d]
  | .tpost _ => []
  | .retj _ => []
  | .sleep r => [r.d]
  | .barw r => [r.d]
  | .bara r => [r.d]
  | .barcfg r => [r.d]
  | .cancelL r => [r.d]
  | .cancelG r => [r.d]
  | .cancelJ r => [r.d]
  | .bcopy _ => []
  | .strm _ => []
  | .strmx r => [r.d]
  | .mbw _ => []
  | .mbr r => [r.d]
  | .mcfg r => [r.d]
  | .mzero _ => []
  | .mma _ => []
  | .mend _ => []
  | .msto _ => []
  | .mstat r => [r.d]
  | .gangStart _ => []
  | .ganglimExpiry _ _ _ => []
  | .setpos _ => []
  | .getpos r => [r.d]
  | .publ _ => []
  | .neigh r => [r.d]
  | .nextn r => [r.d, r.d + 1, r.d + 2]
  | .migr _ => []
  | .whereIs r => [r.d]
  | .anchor r => [r.d]
  | .peer r => [r.d]
  | .sysr r => [r.d]
  | .sysw _ => []
  | .tlbiVa _ => []
  | .tlbiJob _ => []
  | .tlbiVm _ => []
  | .tlbiGpa _ => []
  | .tlbiAll _ => []
  | .tlbiInvalidate _ => []
  | .tlbiDone _ _ => []
  | .svc _ => []
  | .eret _ => []
  | .wake r => [r.d]
  | .add r => [r.d]
  | .sub r => [r.d]
  | .mul r => [r.d]
  | .mulh r => [r.d]
  | .mulhu r => [r.d]
  | .div r => [r.d]
  | .divu r => [r.d]
  | .rem r => [r.d]
  | .remu r => [r.d]
  | .and r => [r.d]
  | .or r => [r.d]
  | .xor r => [r.d]
  | .andn r => [r.d]
  | .shl r => [r.d]
  | .shr r => [r.d]
  | .sar r => [r.d]
  | .ror r => [r.d]
  | .min r => [r.d]
  | .max r => [r.d]
  | .minu r => [r.d]
  | .maxu r => [r.d]
  | .clz r => [r.d]
  | .ctz r => [r.d]
  | .popc r => [r.d]
  | .extr r => [r.d]
  | .insr r => [r.d]
  | .addi r => [r.d]
  | .andi r => [r.d]
  | .ori r => [r.d]
  | .xori r => [r.d]
  | .shli r => [r.d]
  | .shri r => [r.d]
  | .sari r => [r.d]
  | .rori r => [r.d]
  | .movi r => [r.d]
  | .movh r => [r.d]
  | .cmp _ => []
  | .cmpi _ => []
  | .pand _ => []
  | .pandn _ => []
  | .por _ => []
  | .pxor _ => []
  | .pnot _ => []
  | .rdpw r => [r.d]
  | .wrpw _ => []
  | .sel r => [r.d]
  | .vadd r => [r.d]
  | .vadds r => [r.d]
  | .vsub r => [r.d]
  | .vsubs r => [r.d]
  | .vmul r => [r.d]
  | .vmulh r => [r.d]
  | .vmin r => [r.d]
  | .vmax r => [r.d]
  | .vavg r => [r.d]
  | .vabsd r => [r.d]
  | .vshl r => [r.d]
  | .vshr r => [r.d]
  | .vcmpeq r => [r.d]
  | .vcmpgt r => [r.d]
  | .vsplat r => [r.d]
  | .vpack r => [r.d]
  | .vunpk r => [r.d]
  | .fadd r => [r.d]
  | .fsub r => [r.d]
  | .fmul r => [r.d]
  | .fdiv r => [r.d]
  | .fsqrt r => [r.d]
  | .fmin r => [r.d]
  | .fmax r => [r.d]
  | .fma r => [r.d]
  | .fneg r => [r.d]
  | .fabs r => [r.d]
  | .fcmp _ => []
  | .fclass r => [r.d]
  | .fcvt r => [r.d]
  | .bundleIssue _ _ => []
  | .rotationBoundary _ => []
  | .landingResult _ => []
  | .remoteReply _ => []
  | .timingReplay _ _ => []
  | .egressLatchRelease _ => []
  | .chunkCommit _ _ => []
  | .domainAcquire _ _ _ => []
  | .domainApply _ _ _ => []
  | .pinWaitLimit _ _ => []
  | .engineElementWrite _ => []
  | .engineElementRead _ => []
  | .engineCompletion _ => []
  | .inboxEntryPlace _ => []
  | .remoteRequest _ => []
  | .refusalArrival _ => []
  | .fullEmptyService _ _ => []
  | .waitListRetry _ _ => []
  | .busyReissue _ _ => []
  | .waitlimExpiry _ _ _ => []
  | .waitWithdrawal _ => []
  | .barlimExpiry _ _ _ => []
  | .segStageWrite _ _ => []
  | .segCommit _ _ => []
  | .coretagWrite _ => []
  | .xrootWrite _ => []
  | .lmmapWrite _ => []
  | .pageWalk _ => []
  | .parkedAnswer _ _ => []
  | .stashFillReply _ => []
  | .stashInvalidate _ _ => []
  | .stashRecall _ _ _ => []
  | .stashRevoke _ _ => []
  | .exclusiveGrant _ _ => []
  | .l2FillRequest _ => []
  | .l2OwnershipRequest _ => []
  | .l2DropNotice _ => []
  | .l2Writeback _ => []
  | .l2InvalidateAck _ => []
  | .l2Atomic _ => []
  | .omegaCombine _ _ => []
  | .combineSplit _ => []
  | .tileRequest _ => []
  | .tileMergeClose _ _ => []
  | .tilePinRelease _ _ => []
  | .maskScrub _ => []
  | .bucketRefill _ => []
  | .tokenRetry _ => []
  | .l2partWrite _ _ => []
  | .l2bwWrite _ _ => []
  | .l2statClear => []
  | .s2Translate _ => []
  | .s2UpgradeCheck _ => []
  | .s2BlockedRetry _ => []
  | .mscFill _ => []
  | .mscWriteback _ => []
  | .mscNonallocWrite _ => []
  | .controllerFillReturn _ _ => []
  | .psnansRepaired _ => []
  | .psnansLost _ => []
  | .repairTimeout _ => []
  | .pgblkBlock _ => []
  | .pgblkAbandon _ => []
  | .pageDrainDone _ => []
  | .pageCopyStart _ => []
  | .pageCopyDone => []
  | .checkpointStart => []
  | .powerFailInput => []
  | .checkpointFlush => []
  | .checkpointCopy => []
  | .checkpointSeal => []
  | .launchComplete _ => []
  | .messageArrive _ => []
  | .skipNoticeArrive _ => []
  | .messageAck _ => []
  | .messageRefused _ => []
  | .messageReoffer _ _ => []
  | .skipNoticeReoffer _ => []
  | .sendlimExpiry _ _ _ => []
  | .placementUpdate _ _ _ => []
  | .userInterruptDeliver _ _ => []
  | .mailboxService _ _ => []
  | .streamReadAhead _ _ => []
  | .doorbellWrite _ _ => []
  | .doorbellHeadRead _ => []
  | .dqptrWrite _ => []
  | .dispatch => []
  | .depReread _ => []
  | .taskRecordRetry _ => []
  | .remoteLaunchRecord _ _ _ _ _ _ => []
  | .launchWake _ => []
  | .launchStart _ => []
  | .preemptSelect _ => []
  | .cocoonSaveDone _ => []
  | .continuationRetry _ => []
  | .tpostRetry _ _ => []
  | .sleepExpiry _ _ _ => []
  | .carryPacketArrive _ => []
  | .carryAck _ => []
  | .carryRefused _ => []
  | .carryReoffer _ => []
  | .fieldcfgWrite _ => []
  | .fieldStepNotice _ _ _ => []
  | .fieldResidentCount _ _ _ => []
  | .fieldHandover _ => []
  | .fieldSnapshot _ => []
  | .fieldHaloCopy _ _ => []
  | .fieldStepRelease _ => []
  | .placementLookup _ _ => []
  | .forwardItem _ _ => []
  | .flutterSweep _ => []
  | .weightReport _ => []
  | .flutterPropose _ => []
  | .proposalAnswer _ _ => []
  | .proposalDecide _ => []
  | .decisionReceive _ => []
  | .swapFreeze _ _ => []
  | .swapMove _ _ => []
  | .swapFlip _ _ => []
  | .swapResume _ _ => []
  | .placementInvalidate _ _ => []
  | .forwardRetire _ _ => []
  | .bar2Access _ _ _ _ => []
  | .hostWindowCompletion _ _ _ => []
  | .bronexAuthFail _ => []
  | .bronexLinkFail _ => []
  | .routeWaitTimeout _ => []
  | .powerGate _ => []
  | .coreWake _ => []
  | .thermalRunaway _ => []
  | .powerInterval => []
  | .voltageGlitch => []
  | .clockGlitch => []
  | .tamperLoopOpen => []
  | .chrysalisAlarm _ _ => []
  | .chalcfgWrite _ => []
  | .challogClear => []
  | .attestationReport _ => []
  | .chrysalisBoot _ _ _ => []
  | .reset => []
  | .stopByLomter _ _ => []
  | .slotRestart _ _ _ => []
  | .thaw _ => []
  | .jobEnd _ => []
  | .bronexLinkUp _ _ => []
  | .rowSensorReading _ _ _ => []

end Sys2Proof
end

