-- ==== Sys2Proof/WellFormed.lean ====
section
/-!
DEFINITION. Which operand fields each instruction admits (08 R181, R183 to R196). `Instr.wf` says that every field
the instruction leaves unused is zero and every code lies in its table; the decoder refuses the rest.
-/

namespace Sys2Proof

/-- What an AR instruction reads and accepts (R182, R188): the fields used, the sync bits and the extension allowed. -/
structure ArUse where
  d : Bool
  a : Bool
  b : Bool
  sa : Bool
  sb : Bool
  x : Bool
  deriving DecidableEq, Repr

/-- Unused fields are zero; an extension stands for operand b, whose field and sync bit are then zero (R181, R188). -/
def AR.ok (u : ArUse) (r : AR) : Bool :=
  (u.d || r.d == 0) && (u.a || r.a == 0) && (u.b || r.b == 0) && (u.sa || !r.sa) && (u.sb || !r.sb) &&
  (r.x.isNone || (u.x && r.b == 0 && !r.sb))

/-- A run of n + 1 registers starting at d stays within g31 (R188). -/
def AK.run (r : AK) : Bool := r.d.toNat + r.n.toNat ≤ 31

/-- SEND reads b, which an extension may replace (R252). -/
def AK.okSend (r : AK) : Bool := r.a == 0 && r.run && (r.x.isNone || r.b == 0)

/-- RECV and PEEK write a and a run from d (R252). -/
def AK.okRecv (r : AK) : Bool := r.b == 0 && r.run && r.x.isNone

/-- CHSTAT uses d and the channel (R252). -/
def AK.okStat (r : AK) : Bool := r.a == 0 && r.b == 0 && r.n == 0 && r.x.isNone

/-- WAITM uses the channel alone, or for the inbox neither (R252). -/
def AK.okWait (inbox : Bool) (r : AK) : Bool :=
  r.d == 0 && r.a == 0 && r.b == 0 && r.x.isNone && (if inbox then r.n == 1 && r.k == 0 else r.n == 0)

/-- With an extension the short offset field is zero (R183). -/
def AM.ok (r : AM) : Bool := r.x.isNone || r.o == 0

/-- ST: with an extension the short offset field is zero (R183). -/
def AS.ok (r : AS) : Bool := r.x.isNone || r.off == 0

/-- STSYNC, STFILL, SETE: the selector f, and for SETE no data register (R223, R226). -/
def AS.okSync (f : BitVec 2) (data : Bool) (r : AS) : Bool := r.ok && r.f == f && (data || r.d == 0)

/-- LDX may sign-extend sizes below 8 (R183). -/
def AX.okLoad (r : AX) : Bool := !(r.sx && r.sz == 3)

/-- STX has no landing and no sign extension (R183, R223). -/
def AX.okStore (r : AX) : Bool := !r.sx && r.la == 0

/-- SPIN, SFLUSH, SINV, PREF take any address (R191). -/
def AQ.okAddr (_ : AQ) : Bool := true

/-- FENCE, CHUNK, IFLUSH have no address and no extension (R191, R238). -/
def AQ.okBare (r : AQ) : Bool := r.a == 0 && r.seg == 0 && r.x.isNone

/-- Only ACAS reads b; a no-return atomic has la = 0 (R184, R230). -/
def AA.ok (cas ret : Bool) (r : AA) : Bool := (cas || r.b == 0) && (ret || r.la == 0)

/-- BR of an integer instruction: width 0 or 1; a unary one has no b (R189, R192). -/
def BR.okInt (unary : Bool) (r : BR) : Bool := r.fn.toNat ≤ 1 && (!unary || (r.b == 0 && !r.sb))

/-- Predicate operations name predicates in d, a and b (R189, R193, R210). -/
def BR.okPred (unary : Bool) (r : BR) : Bool :=
  r.d.toNat < 8 && r.a.toNat < 8 && r.b.toNat < 8 && !r.sa && !r.sb && r.fn == 0 && (!unary || r.b == 0)

/-- SIMD types 0 to 5; VPACK and VUNPK only 0 to 3 (R194, R213). -/
def BR.okVec (unary narrow : Bool) (r : BR) : Bool :=
  r.fn.toNat ≤ (if narrow then 3 else 5) && (!unary || (r.b == 0 && !r.sb))

/-- Float formats 0 to 2 in bits 1:0, P in bit 2, bit 3 zero (R195). -/
def BR.okFloat (unary packed : Bool) (r : BR) : Bool :=
  r.fn.toNat % 4 ≤ 2 && r.fn.toNat < (if packed then 8 else 4) && (!unary || (r.b == 0 && !r.sb))

/-- Shift immediates are 0 to 63 (R192). -/
def BI.okShift (r : BI) : Bool := r.imm.toNat < 64

/-- Condition codes 0 to 11; CMPI has no sb (R193). -/
def BC.ok (imm : Bool) (r : BC) : Bool := r.cond.toNat ≤ 11 && (!imm || !r.sb)

/-- FCMP takes a scalar format (R195). -/
def BF.ok (r : BF) : Bool := r.fmt.toNat ≤ 2

/-- FCVT format codes 0 to 11 (R195). -/
def BV.ok (r : BV) : Bool := r.src.toNat ≤ 11 && r.dst.toNat ≤ 11

/-- Every field an instruction leaves unused is zero and every code is assigned (R181, R196). Events have no
encoding, so nothing is asked of them. -/
def Instr.wf : Instr → Bool
  | .nop r => r.ok ⟨false, false, false, false, false, false⟩
  | .halt r => r.ok ⟨false, false, false, false, false, false⟩
  | .yield r => r.ok ⟨false, false, false, false, false, false⟩
  | .br _ => true
  | .jmp r => r.disp.toNat < 2 ^ 17
  | .call r => r.x.isNone || r.disp == 0
  | .jr r => r.ok ⟨true, true, false, true, false, false⟩
  | .loop _ => true
  | .loopi _ => true
  | .ldB r => r.ok
  | .ldH r => r.ok
  | .ldW r => r.ok
  | .ldD r => r.ok
  | .ldsB r => r.ok
  | .ldsH r => r.ok
  | .ldsW r => r.ok
  | .st r => r.ok
  | .ldx r => r.okLoad
  | .stx r => r.okStore
  | .ldsync r => r.ok
  | .ldff r => r.ok
  | .stsync r => r.okSync 0 true
  | .stfill r => r.okSync 1 true
  | .sete r => r.okSync 2 false
  | .afaa r => r.ok false true
  | .axchg r => r.ok false true
  | .acas r => r.ok true true
  | .amin r => r.ok false true
  | .amax r => r.ok false true
  | .aminu r => r.ok false true
  | .amaxu r => r.ok false true
  | .aand r => r.ok false true
  | .aor r => r.ok false true
  | .afaaN r => r.ok false false
  | .axchgN r => r.ok false false
  | .acasN r => r.ok true false
  | .aminN r => r.ok false false
  | .amaxN r => r.ok false false
  | .aminuN r => r.ok false false
  | .amaxuN r => r.ok false false
  | .aandN r => r.ok false false
  | .aorN r => r.ok false false
  | .spin r => r.okAddr
  | .sflush r => r.okAddr
  | .sinv r => r.okAddr
  | .pref r => r.okAddr
  | .fenceH r => r.okBare
  | .fenceE r => r.okBare
  | .fenceP r => r.okBare
  | .chunk r => r.okBare
  | .iflush r => r.okBare
  | .send r => r.okSend
  | .recv r => r.okRecv
  | .peek r => r.okRecv
  | .chstat r => r.okStat
  | .waitm r => r.okWait false
  | .waitmI r => r.okWait true
  | .inb r => r.ok ⟨true, false, false, false, false, false⟩ && r.d.toNat ≤ 30
  | .msgmask r => r.ok ⟨true, false, true, false, false, true⟩
  | .retu r => r.ok ⟨false, false, false, false, false, false⟩
  | .spawn r => r.ok ⟨true, true, true, true, true, true⟩ && r.d.toNat ≤ 7
  | .tnext r => r.ok ⟨true, false, false, false, false, false⟩
  | .tpost r => r.ok ⟨false, true, true, true, true, true⟩
  | .retj r => r.ok ⟨false, false, false, false, false, false⟩
  | .sleep r => r.ok ⟨true, false, true, false, true, true⟩
  | .barw r => r.ok ⟨true, true, true, true, true, true⟩
  | .bara r => r.ok ⟨true, true, true, true, true, true⟩
  | .barcfg r => r.ok ⟨true, true, true, true, true, true⟩
  | .cancelL r => r.ok ⟨true, false, true, false, true, true⟩
  | .cancelG r => r.ok ⟨true, false, true, false, true, true⟩
  | .cancelJ r => r.ok ⟨true, false, true, false, true, true⟩
  | .bcopy r => r.ok ⟨false, true, true, false, false, true⟩
  | .strm r => r.ok ⟨false, true, true, false, false, true⟩
  | .strmx r => r.ok ⟨true, false, true, false, false, false⟩ && r.b.toNat ≤ 3
  | .mbw r => r.ok ⟨false, true, true, true, false, false⟩ && r.b.toNat ≤ 3
  | .mbr r => r.ok ⟨true, false, true, false, false, false⟩ && r.b.toNat ≤ 3
  | .mcfg r => r.ok ⟨true, true, true, true, true, true⟩
  | .mzero r => r.ok ⟨false, false, false, false, false, false⟩
  | .mma r => r.ok ⟨false, true, true, true, true, true⟩
  | .mend r => r.ok ⟨false, false, false, false, false, false⟩
  | .msto r => r.ok ⟨false, true, true, true, true, true⟩
  | .mstat r => r.ok ⟨true, true, false, true, false, false⟩
  | .gangStart _ => true
  | .ganglimExpiry _ _ _ => true
  | .setpos r => r.ok ⟨false, false, true, false, true, true⟩
  | .getpos r => r.ok ⟨true, false, false, false, false, false⟩
  | .publ r => r.ok ⟨false, false, true, false, true, true⟩
  | .neigh r => r.ok ⟨true, false, true, false, true, true⟩
  | .nextn r => r.ok ⟨true, false, false, false, false, false⟩ && r.d.toNat ≤ 29
  | .migr r => r.ok ⟨false, false, true, false, true, true⟩
  | .whereIs r => r.ok ⟨true, false, true, false, true, true⟩
  | .anchor r => r.ok ⟨true, false, true, false, true, true⟩
  | .peer r => r.ok ⟨true, false, true, false, true, true⟩
  | .sysr r => !r.sd
  | .sysw _ => true
  | .tlbiVa r => r.ok ⟨false, true, false, false, false, false⟩
  | .tlbiJob r => r.ok ⟨false, false, false, false, false, false⟩
  | .tlbiVm r => r.ok ⟨false, false, true, false, false, false⟩
  | .tlbiGpa r => r.ok ⟨false, true, true, false, false, false⟩
  | .tlbiAll r => r.ok ⟨false, false, false, false, false, false⟩
  | .tlbiInvalidate _ => true
  | .tlbiDone _ _ => true
  | .svc r => r.ok ⟨false, true, true, false, false, false⟩
  | .eret r => r.ok ⟨false, false, false, false, false, false⟩
  | .wake r => r.ok ⟨true, true, true, true, true, false⟩
  | .add r => r.okInt false
  | .sub r => r.okInt false
  | .mul r => r.okInt false
  | .mulh r => r.okInt false
  | .mulhu r => r.okInt false
  | .div r => r.okInt false
  | .divu r => r.okInt false
  | .rem r => r.okInt false
  | .remu r => r.okInt false
  | .and r => r.okInt false
  | .or r => r.okInt false
  | .xor r => r.okInt false
  | .andn r => r.okInt false
  | .shl r => r.okInt false
  | .shr r => r.okInt false
  | .sar r => r.okInt false
  | .ror r => r.okInt false
  | .min r => r.okInt false
  | .max r => r.okInt false
  | .minu r => r.okInt false
  | .maxu r => r.okInt false
  | .clz r => r.okInt true
  | .ctz r => r.okInt true
  | .popc r => r.okInt true
  | .extr r => r.okInt false
  | .insr r => r.okInt false
  | .addi _ => true
  | .andi _ => true
  | .ori _ => true
  | .xori _ => true
  | .shli r => r.okShift
  | .shri r => r.okShift
  | .sari r => r.okShift
  | .rori r => r.okShift
  | .movi _ => true
  | .movh _ => true
  | .cmp r => r.ok false
  | .cmpi r => r.ok true
  | .pand r => r.okPred false
  | .pandn r => r.okPred false
  | .por r => r.okPred false
  | .pxor r => r.okPred false
  | .pnot r => r.okPred true
  | .rdpw r => r.a == 0 && r.b == 0 && !r.sa && !r.sb && r.fn == 0
  | .wrpw r => r.d == 0 && r.b == 0 && !r.sb && r.fn == 0
  | .sel r => r.fn.toNat ≤ 7
  | .vadd r => r.okVec false false
  | .vadds r => r.okVec false false
  | .vsub r => r.okVec false false
  | .vsubs r => r.okVec false false
  | .vmul r => r.okVec false false
  | .vmulh r => r.okVec false false
  | .vmin r => r.okVec false false
  | .vmax r => r.okVec false false
  | .vavg r => r.okVec false false
  | .vabsd r => r.okVec false false
  | .vshl r => r.okVec false false
  | .vshr r => r.okVec false false
  | .vcmpeq r => r.okVec false false
  | .vcmpgt r => r.okVec false false
  | .vsplat r => r.okVec true false
  | .vpack r => r.okVec false true
  | .vunpk r => r.okVec true true
  | .fadd r => r.okFloat false true
  | .fsub r => r.okFloat false true
  | .fmul r => r.okFloat false true
  | .fdiv r => r.okFloat false true
  | .fsqrt r => r.okFloat true true
  | .fmin r => r.okFloat false true
  | .fmax r => r.okFloat false true
  | .fma r => r.okFloat false true
  | .fneg r => r.okFloat true true
  | .fabs r => r.okFloat true true
  | .fcmp r => r.ok
  | .fclass r => r.okFloat true false
  | .fcvt r => r.ok
  | .bundleIssue _ _ => true
  | .rotationBoundary _ => true
  | .landingResult _ => true
  | .remoteReply _ => true
  | .timingReplay _ _ => true
  | .egressLatchRelease _ => true
  | .chunkCommit _ _ => true
  | .domainAcquire _ _ _ => true
  | .domainApply _ _ _ => true
  | .pinWaitLimit _ _ => true
  | .engineElementWrite _ => true
  | .engineElementRead _ => true
  | .engineCompletion _ => true
  | .inboxEntryPlace _ => true
  | .remoteRequest _ => true
  | .refusalArrival _ => true
  | .fullEmptyService _ _ => true
  | .waitListRetry _ _ => true
  | .busyReissue _ _ => true
  | .waitlimExpiry _ _ _ => true
  | .waitWithdrawal _ => true
  | .barlimExpiry _ _ _ => true
  | .segStageWrite _ _ => true
  | .segCommit _ _ => true
  | .coretagWrite _ => true
  | .xrootWrite _ => true
  | .lmmapWrite _ => true
  | .pageWalk _ => true
  | .parkedAnswer _ _ => true
  | .stashFillReply _ => true
  | .stashInvalidate _ _ => true
  | .stashRecall _ _ _ => true
  | .stashRevoke _ _ => true
  | .exclusiveGrant _ _ => true
  | .l2FillRequest _ => true
  | .l2OwnershipRequest _ => true
  | .l2DropNotice _ => true
  | .l2Writeback _ => true
  | .l2InvalidateAck _ => true
  | .l2Atomic _ => true
  | .omegaCombine _ _ => true
  | .combineSplit _ => true
  | .tileRequest _ => true
  | .tileMergeClose _ _ => true
  | .tilePinRelease _ _ => true
  | .maskScrub _ => true
  | .bucketRefill _ => true
  | .tokenRetry _ => true
  | .l2partWrite _ _ => true
  | .l2bwWrite _ _ => true
  | .l2statClear => true
  | .s2Translate _ => true
  | .s2UpgradeCheck _ => true
  | .s2BlockedRetry _ => true
  | .mscFill _ => true
  | .mscWriteback _ => true
  | .mscNonallocWrite _ => true
  | .controllerFillReturn _ _ => true
  | .psnansRepaired _ => true
  | .psnansLost _ => true
  | .repairTimeout _ => true
  | .pgblkBlock _ => true
  | .pgblkAbandon _ => true
  | .pageDrainDone _ => true
  | .pageCopyStart _ => true
  | .pageCopyDone => true
  | .checkpointStart => true
  | .powerFailInput => true
  | .checkpointFlush => true
  | .checkpointCopy => true
  | .checkpointSeal => true
  | .launchComplete _ => true
  | .messageArrive _ => true
  | .skipNoticeArrive _ => true
  | .messageAck _ => true
  | .messageRefused _ => true
  | .messageReoffer _ _ => true
  | .skipNoticeReoffer _ => true
  | .sendlimExpiry _ _ _ => true
  | .placementUpdate _ _ _ => true
  | .userInterruptDeliver _ _ => true
  | .mailboxService _ _ => true
  | .streamReadAhead _ _ => true
  | .doorbellWrite _ _ => true
  | .doorbellHeadRead _ => true
  | .dqptrWrite _ => true
  | .dispatch => true
  | .depReread _ => true
  | .taskRecordRetry _ => true
  | .remoteLaunchRecord _ _ _ _ _ _ => true
  | .launchWake _ => true
  | .launchStart _ => true
  | .preemptSelect _ => true
  | .cocoonSaveDone _ => true
  | .continuationRetry _ => true
  | .tpostRetry _ _ => true
  | .sleepExpiry _ _ _ => true
  | .carryPacketArrive _ => true
  | .carryAck _ => true
  | .carryRefused _ => true
  | .carryReoffer _ => true
  | .fieldcfgWrite _ => true
  | .fieldStepNotice _ _ _ => true
  | .fieldResidentCount _ _ _ => true
  | .fieldHandover _ => true
  | .fieldSnapshot _ => true
  | .fieldHaloCopy _ _ => true
  | .fieldStepRelease _ => true
  | .placementLookup _ _ => true
  | .forwardItem _ _ => true
  | .flutterSweep _ => true
  | .weightReport _ => true
  | .flutterPropose _ => true
  | .proposalAnswer _ _ => true
  | .proposalDecide _ => true
  | .decisionReceive _ => true
  | .swapFreeze _ _ => true
  | .swapMove _ _ => true
  | .swapFlip _ _ => true
  | .swapResume _ _ => true
  | .placementInvalidate _ _ => true
  | .forwardRetire _ _ => true
  | .bar2Access _ _ _ _ => true
  | .hostWindowCompletion _ _ _ => true
  | .bronexAuthFail _ => true
  | .bronexLinkFail _ => true
  | .routeWaitTimeout _ => true
  | .powerGate _ => true
  | .coreWake _ => true
  | .thermalRunaway _ => true
  | .powerInterval => true
  | .voltageGlitch => true
  | .clockGlitch => true
  | .tamperLoopOpen => true
  | .chrysalisAlarm _ _ => true
  | .chalcfgWrite _ => true
  | .challogClear => true
  | .attestationReport _ => true
  | .chrysalisBoot _ _ _ => true
  | .reset => true
  | .stopByLomter _ _ => true
  | .slotRestart _ _ _ => true
  | .thaw _ => true
  | .jobEnd _ => true
  | .bronexLinkUp _ _ => true
  | .rowSensorReading _ _ _ => true

/-- Does the instruction stand in word A (R190)? -/
def Instr.isWordA : Instr → Bool
  | .nop _ => true
  | .halt _ => true
  | .yield _ => true
  | .br _ => true
  | .jmp _ => true
  | .call _ => true
  | .jr _ => true
  | .loop _ => true
  | .loopi _ => true
  | .ldB _ => true
  | .ldH _ => true
  | .ldW _ => true
  | .ldD _ => true
  | .ldsB _ => true
  | .ldsH _ => true
  | .ldsW _ => true
  | .st _ => true
  | .ldx _ => true
  | .stx _ => true
  | .ldsync _ => true
  | .ldff _ => true
  | .stsync _ => true
  | .stfill _ => true
  | .sete _ => true
  | .afaa _ => true
  | .axchg _ => true
  | .acas _ => true
  | .amin _ => true
  | .amax _ => true
  | .aminu _ => true
  | .amaxu _ => true
  | .aand _ => true
  | .aor _ => true
  | .afaaN _ => true
  | .axchgN _ => true
  | .acasN _ => true
  | .aminN _ => true
  | .amaxN _ => true
  | .aminuN _ => true
  | .amaxuN _ => true
  | .aandN _ => true
  | .aorN _ => true
  | .spin _ => true
  | .sflush _ => true
  | .sinv _ => true
  | .pref _ => true
  | .fenceH _ => true
  | .fenceE _ => true
  | .fenceP _ => true
  | .chunk _ => true
  | .iflush _ => true
  | .send _ => true
  | .recv _ => true
  | .peek _ => true
  | .chstat _ => true
  | .waitm _ => true
  | .waitmI _ => true
  | .inb _ => true
  | .msgmask _ => true
  | .retu _ => true
  | .spawn _ => true
  | .tnext _ => true
  | .tpost _ => true
  | .retj _ => true
  | .sleep _ => true
  | .barw _ => true
  | .bara _ => true
  | .barcfg _ => true
  | .cancelL _ => true
  | .cancelG _ => true
  | .cancelJ _ => true
  | .bcopy _ => true
  | .strm _ => true
  | .strmx _ => true
  | .mbw _ => true
  | .mbr _ => true
  | .mcfg _ => true
  | .mzero _ => true
  | .mma _ => true
  | .mend _ => true
  | .msto _ => true
  | .mstat _ => true
  | .gangStart _ => false
  | .ganglimExpiry _ _ _ => false
  | .setpos _ => true
  | .getpos _ => true
  | .publ _ => true
  | .neigh _ => true
  | .nextn _ => true
  | .migr _ => true
  | .whereIs _ => true
  | .anchor _ => true
  | .peer _ => true
  | .sysr _ => true
  | .sysw _ => true
  | .tlbiVa _ => true
  | .tlbiJob _ => true
  | .tlbiVm _ => true
  | .tlbiGpa _ => true
  | .tlbiAll _ => true
  | .tlbiInvalidate _ => false
  | .tlbiDone _ _ => false
  | .svc _ => true
  | .eret _ => true
  | .wake _ => true
  | .add _ => false
  | .sub _ => false
  | .mul _ => false
  | .mulh _ => false
  | .mulhu _ => false
  | .div _ => false
  | .divu _ => false
  | .rem _ => false
  | .remu _ => false
  | .and _ => false
  | .or _ => false
  | .xor _ => false
  | .andn _ => false
  | .shl _ => false
  | .shr _ => false
  | .sar _ => false
  | .ror _ => false
  | .min _ => false
  | .max _ => false
  | .minu _ => false
  | .maxu _ => false
  | .clz _ => false
  | .ctz _ => false
  | .popc _ => false
  | .extr _ => false
  | .insr _ => false
  | .addi _ => false
  | .andi _ => false
  | .ori _ => false
  | .xori _ => false
  | .shli _ => false
  | .shri _ => false
  | .sari _ => false
  | .rori _ => false
  | .movi _ => false
  | .movh _ => false
  | .cmp _ => false
  | .cmpi _ => false
  | .pand _ => false
  | .pandn _ => false
  | .por _ => false
  | .pxor _ => false
  | .pnot _ => false
  | .rdpw _ => false
  | .wrpw _ => false
  | .sel _ => false
  | .vadd _ => false
  | .vadds _ => false
  | .vsub _ => false
  | .vsubs _ => false
  | .vmul _ => false
  | .vmulh _ => false
  | .vmin _ => false
  | .vmax _ => false
  | .vavg _ => false
  | .vabsd _ => false
  | .vshl _ => false
  | .vshr _ => false
  | .vcmpeq _ => false
  | .vcmpgt _ => false
  | .vsplat _ => false
  | .vpack _ => false
  | .vunpk _ => false
  | .fadd _ => false
  | .fsub _ => false
  | .fmul _ => false
  | .fdiv _ => false
  | .fsqrt _ => false
  | .fmin _ => false
  | .fmax _ => false
  | .fma _ => false
  | .fneg _ => false
  | .fabs _ => false
  | .fcmp _ => false
  | .fclass _ => false
  | .fcvt _ => false
  | .bundleIssue _ _ => false
  | .rotationBoundary _ => false
  | .landingResult _ => false
  | .remoteReply _ => false
  | .timingReplay _ _ => false
  | .egressLatchRelease _ => false
  | .chunkCommit _ _ => false
  | .domainAcquire _ _ _ => false
  | .domainApply _ _ _ => false
  | .pinWaitLimit _ _ => false
  | .engineElementWrite _ => false
  | .engineElementRead _ => false
  | .engineCompletion _ => false
  | .inboxEntryPlace _ => false
  | .remoteRequest _ => false
  | .refusalArrival _ => false
  | .fullEmptyService _ _ => false
  | .waitListRetry _ _ => false
  | .busyReissue _ _ => false
  | .waitlimExpiry _ _ _ => false
  | .waitWithdrawal _ => false
  | .barlimExpiry _ _ _ => false
  | .segStageWrite _ _ => false
  | .segCommit _ _ => false
  | .coretagWrite _ => false
  | .xrootWrite _ => false
  | .lmmapWrite _ => false
  | .pageWalk _ => false
  | .parkedAnswer _ _ => false
  | .stashFillReply _ => false
  | .stashInvalidate _ _ => false
  | .stashRecall _ _ _ => false
  | .stashRevoke _ _ => false
  | .exclusiveGrant _ _ => false
  | .l2FillRequest _ => false
  | .l2OwnershipRequest _ => false
  | .l2DropNotice _ => false
  | .l2Writeback _ => false
  | .l2InvalidateAck _ => false
  | .l2Atomic _ => false
  | .omegaCombine _ _ => false
  | .combineSplit _ => false
  | .tileRequest _ => false
  | .tileMergeClose _ _ => false
  | .tilePinRelease _ _ => false
  | .maskScrub _ => false
  | .bucketRefill _ => false
  | .tokenRetry _ => false
  | .l2partWrite _ _ => false
  | .l2bwWrite _ _ => false
  | .l2statClear => false
  | .s2Translate _ => false
  | .s2UpgradeCheck _ => false
  | .s2BlockedRetry _ => false
  | .mscFill _ => false
  | .mscWriteback _ => false
  | .mscNonallocWrite _ => false
  | .controllerFillReturn _ _ => false
  | .psnansRepaired _ => false
  | .psnansLost _ => false
  | .repairTimeout _ => false
  | .pgblkBlock _ => false
  | .pgblkAbandon _ => false
  | .pageDrainDone _ => false
  | .pageCopyStart _ => false
  | .pageCopyDone => false
  | .checkpointStart => false
  | .powerFailInput => false
  | .checkpointFlush => false
  | .checkpointCopy => false
  | .checkpointSeal => false
  | .launchComplete _ => false
  | .messageArrive _ => false
  | .skipNoticeArrive _ => false
  | .messageAck _ => false
  | .messageRefused _ => false
  | .messageReoffer _ _ => false
  | .skipNoticeReoffer _ => false
  | .sendlimExpiry _ _ _ => false
  | .placementUpdate _ _ _ => false
  | .userInterruptDeliver _ _ => false
  | .mailboxService _ _ => false
  | .streamReadAhead _ _ => false
  | .doorbellWrite _ _ => false
  | .doorbellHeadRead _ => false
  | .dqptrWrite _ => false
  | .dispatch => false
  | .depReread _ => false
  | .taskRecordRetry _ => false
  | .remoteLaunchRecord _ _ _ _ _ _ => false
  | .launchWake _ => false
  | .launchStart _ => false
  | .preemptSelect _ => false
  | .cocoonSaveDone _ => false
  | .continuationRetry _ => false
  | .tpostRetry _ _ => false
  | .sleepExpiry _ _ _ => false
  | .carryPacketArrive _ => false
  | .carryAck _ => false
  | .carryRefused _ => false
  | .carryReoffer _ => false
  | .fieldcfgWrite _ => false
  | .fieldStepNotice _ _ _ => false
  | .fieldResidentCount _ _ _ => false
  | .fieldHandover _ => false
  | .fieldSnapshot _ => false
  | .fieldHaloCopy _ _ => false
  | .fieldStepRelease _ => false
  | .placementLookup _ _ => false
  | .forwardItem _ _ => false
  | .flutterSweep _ => false
  | .weightReport _ => false
  | .flutterPropose _ => false
  | .proposalAnswer _ _ => false
  | .proposalDecide _ => false
  | .decisionReceive _ => false
  | .swapFreeze _ _ => false
  | .swapMove _ _ => false
  | .swapFlip _ _ => false
  | .swapResume _ _ => false
  | .placementInvalidate _ _ => false
  | .forwardRetire _ _ => false
  | .bar2Access _ _ _ _ => false
  | .hostWindowCompletion _ _ _ => false
  | .bronexAuthFail _ => false
  | .bronexLinkFail _ => false
  | .routeWaitTimeout _ => false
  | .powerGate _ => false
  | .coreWake _ => false
  | .thermalRunaway _ => false
  | .powerInterval => false
  | .voltageGlitch => false
  | .clockGlitch => false
  | .tamperLoopOpen => false
  | .chrysalisAlarm _ _ => false
  | .chalcfgWrite _ => false
  | .challogClear => false
  | .attestationReport _ => false
  | .chrysalisBoot _ _ _ => false
  | .reset => false
  | .stopByLomter _ _ => false
  | .slotRestart _ _ _ => false
  | .thaw _ => false
  | .jobEnd _ => false
  | .bronexLinkUp _ _ => false
  | .rowSensorReading _ _ _ => false

/-- Does the instruction stand in word B (R192 to R195)? -/
def Instr.isWordB : Instr → Bool
  | .nop _ => false
  | .halt _ => false
  | .yield _ => false
  | .br _ => false
  | .jmp _ => false
  | .call _ => false
  | .jr _ => false
  | .loop _ => false
  | .loopi _ => false
  | .ldB _ => false
  | .ldH _ => false
  | .ldW _ => false
  | .ldD _ => false
  | .ldsB _ => false
  | .ldsH _ => false
  | .ldsW _ => false
  | .st _ => false
  | .ldx _ => false
  | .stx _ => false
  | .ldsync _ => false
  | .ldff _ => false
  | .stsync _ => false
  | .stfill _ => false
  | .sete _ => false
  | .afaa _ => false
  | .axchg _ => false
  | .acas _ => false
  | .amin _ => false
  | .amax _ => false
  | .aminu _ => false
  | .amaxu _ => false
  | .aand _ => false
  | .aor _ => false
  | .afaaN _ => false
  | .axchgN _ => false
  | .acasN _ => false
  | .aminN _ => false
  | .amaxN _ => false
  | .aminuN _ => false
  | .amaxuN _ => false
  | .aandN _ => false
  | .aorN _ => false
  | .spin _ => false
  | .sflush _ => false
  | .sinv _ => false
  | .pref _ => false
  | .fenceH _ => false
  | .fenceE _ => false
  | .fenceP _ => false
  | .chunk _ => false
  | .iflush _ => false
  | .send _ => false
  | .recv _ => false
  | .peek _ => false
  | .chstat _ => false
  | .waitm _ => false
  | .waitmI _ => false
  | .inb _ => false
  | .msgmask _ => false
  | .retu _ => false
  | .spawn _ => false
  | .tnext _ => false
  | .tpost _ => false
  | .retj _ => false
  | .sleep _ => false
  | .barw _ => false
  | .bara _ => false
  | .barcfg _ => false
  | .cancelL _ => false
  | .cancelG _ => false
  | .cancelJ _ => false
  | .bcopy _ => false
  | .strm _ => false
  | .strmx _ => false
  | .mbw _ => false
  | .mbr _ => false
  | .mcfg _ => false
  | .mzero _ => false
  | .mma _ => false
  | .mend _ => false
  | .msto _ => false
  | .mstat _ => false
  | .gangStart _ => false
  | .ganglimExpiry _ _ _ => false
  | .setpos _ => false
  | .getpos _ => false
  | .publ _ => false
  | .neigh _ => false
  | .nextn _ => false
  | .migr _ => false
  | .whereIs _ => false
  | .anchor _ => false
  | .peer _ => false
  | .sysr _ => false
  | .sysw _ => false
  | .tlbiVa _ => false
  | .tlbiJob _ => false
  | .tlbiVm _ => false
  | .tlbiGpa _ => false
  | .tlbiAll _ => false
  | .tlbiInvalidate _ => false
  | .tlbiDone _ _ => false
  | .svc _ => false
  | .eret _ => false
  | .wake _ => false
  | .add _ => true
  | .sub _ => true
  | .mul _ => true
  | .mulh _ => true
  | .mulhu _ => true
  | .div _ => true
  | .divu _ => true
  | .rem _ => true
  | .remu _ => true
  | .and _ => true
  | .or _ => true
  | .xor _ => true
  | .andn _ => true
  | .shl _ => true
  | .shr _ => true
  | .sar _ => true
  | .ror _ => true
  | .min _ => true
  | .max _ => true
  | .minu _ => true
  | .maxu _ => true
  | .clz _ => true
  | .ctz _ => true
  | .popc _ => true
  | .extr _ => true
  | .insr _ => true
  | .addi _ => true
  | .andi _ => true
  | .ori _ => true
  | .xori _ => true
  | .shli _ => true
  | .shri _ => true
  | .sari _ => true
  | .rori _ => true
  | .movi _ => true
  | .movh _ => true
  | .cmp _ => true
  | .cmpi _ => true
  | .pand _ => true
  | .pandn _ => true
  | .por _ => true
  | .pxor _ => true
  | .pnot _ => true
  | .rdpw _ => true
  | .wrpw _ => true
  | .sel _ => true
  | .vadd _ => true
  | .vadds _ => true
  | .vsub _ => true
  | .vsubs _ => true
  | .vmul _ => true
  | .vmulh _ => true
  | .vmin _ => true
  | .vmax _ => true
  | .vavg _ => true
  | .vabsd _ => true
  | .vshl _ => true
  | .vshr _ => true
  | .vcmpeq _ => true
  | .vcmpgt _ => true
  | .vsplat _ => true
  | .vpack _ => true
  | .vunpk _ => true
  | .fadd _ => true
  | .fsub _ => true
  | .fmul _ => true
  | .fdiv _ => true
  | .fsqrt _ => true
  | .fmin _ => true
  | .fmax _ => true
  | .fma _ => true
  | .fneg _ => true
  | .fabs _ => true
  | .fcmp _ => true
  | .fclass _ => true
  | .fcvt _ => true
  | .bundleIssue _ _ => false
  | .rotationBoundary _ => false
  | .landingResult _ => false
  | .remoteReply _ => false
  | .timingReplay _ _ => false
  | .egressLatchRelease _ => false
  | .chunkCommit _ _ => false
  | .domainAcquire _ _ _ => false
  | .domainApply _ _ _ => false
  | .pinWaitLimit _ _ => false
  | .engineElementWrite _ => false
  | .engineElementRead _ => false
  | .engineCompletion _ => false
  | .inboxEntryPlace _ => false
  | .remoteRequest _ => false
  | .refusalArrival _ => false
  | .fullEmptyService _ _ => false
  | .waitListRetry _ _ => false
  | .busyReissue _ _ => false
  | .waitlimExpiry _ _ _ => false
  | .waitWithdrawal _ => false
  | .barlimExpiry _ _ _ => false
  | .segStageWrite _ _ => false
  | .segCommit _ _ => false
  | .coretagWrite _ => false
  | .xrootWrite _ => false
  | .lmmapWrite _ => false
  | .pageWalk _ => false
  | .parkedAnswer _ _ => false
  | .stashFillReply _ => false
  | .stashInvalidate _ _ => false
  | .stashRecall _ _ _ => false
  | .stashRevoke _ _ => false
  | .exclusiveGrant _ _ => false
  | .l2FillRequest _ => false
  | .l2OwnershipRequest _ => false
  | .l2DropNotice _ => false
  | .l2Writeback _ => false
  | .l2InvalidateAck _ => false
  | .l2Atomic _ => false
  | .omegaCombine _ _ => false
  | .combineSplit _ => false
  | .tileRequest _ => false
  | .tileMergeClose _ _ => false
  | .tilePinRelease _ _ => false
  | .maskScrub _ => false
  | .bucketRefill _ => false
  | .tokenRetry _ => false
  | .l2partWrite _ _ => false
  | .l2bwWrite _ _ => false
  | .l2statClear => false
  | .s2Translate _ => false
  | .s2UpgradeCheck _ => false
  | .s2BlockedRetry _ => false
  | .mscFill _ => false
  | .mscWriteback _ => false
  | .mscNonallocWrite _ => false
  | .controllerFillReturn _ _ => false
  | .psnansRepaired _ => false
  | .psnansLost _ => false
  | .repairTimeout _ => false
  | .pgblkBlock _ => false
  | .pgblkAbandon _ => false
  | .pageDrainDone _ => false
  | .pageCopyStart _ => false
  | .pageCopyDone => false
  | .checkpointStart => false
  | .powerFailInput => false
  | .checkpointFlush => false
  | .checkpointCopy => false
  | .checkpointSeal => false
  | .launchComplete _ => false
  | .messageArrive _ => false
  | .skipNoticeArrive _ => false
  | .messageAck _ => false
  | .messageRefused _ => false
  | .messageReoffer _ _ => false
  | .skipNoticeReoffer _ => false
  | .sendlimExpiry _ _ _ => false
  | .placementUpdate _ _ _ => false
  | .userInterruptDeliver _ _ => false
  | .mailboxService _ _ => false
  | .streamReadAhead _ _ => false
  | .doorbellWrite _ _ => false
  | .doorbellHeadRead _ => false
  | .dqptrWrite _ => false
  | .dispatch => false
  | .depReread _ => false
  | .taskRecordRetry _ => false
  | .remoteLaunchRecord _ _ _ _ _ _ => false
  | .launchWake _ => false
  | .launchStart _ => false
  | .preemptSelect _ => false
  | .cocoonSaveDone _ => false
  | .continuationRetry _ => false
  | .tpostRetry _ _ => false
  | .sleepExpiry _ _ _ => false
  | .carryPacketArrive _ => false
  | .carryAck _ => false
  | .carryRefused _ => false
  | .carryReoffer _ => false
  | .fieldcfgWrite _ => false
  | .fieldStepNotice _ _ _ => false
  | .fieldResidentCount _ _ _ => false
  | .fieldHandover _ => false
  | .fieldSnapshot _ => false
  | .fieldHaloCopy _ _ => false
  | .fieldStepRelease _ => false
  | .placementLookup _ _ => false
  | .forwardItem _ _ => false
  | .flutterSweep _ => false
  | .weightReport _ => false
  | .flutterPropose _ => false
  | .proposalAnswer _ _ => false
  | .proposalDecide _ => false
  | .decisionReceive _ => false
  | .swapFreeze _ _ => false
  | .swapMove _ _ => false
  | .swapFlip _ _ => false
  | .swapResume _ _ => false
  | .placementInvalidate _ _ => false
  | .forwardRetire _ _ => false
  | .bar2Access _ _ _ _ => false
  | .hostWindowCompletion _ _ _ => false
  | .bronexAuthFail _ => false
  | .bronexLinkFail _ => false
  | .routeWaitTimeout _ => false
  | .powerGate _ => false
  | .coreWake _ => false
  | .thermalRunaway _ => false
  | .powerInterval => false
  | .voltageGlitch => false
  | .clockGlitch => false
  | .tamperLoopOpen => false
  | .chrysalisAlarm _ _ => false
  | .chalcfgWrite _ => false
  | .challogClear => false
  | .attestationReport _ => false
  | .chrysalisBoot _ _ _ => false
  | .reset => false
  | .stopByLomter _ _ => false
  | .slotRestart _ _ _ => false
  | .thaw _ => false
  | .jobEnd _ => false
  | .bronexLinkUp _ _ => false
  | .rowSensorReading _ _ _ => false

/-- TLBI stands alone in its bundle (R54). -/
def Instr.loneOnly : Instr → Bool
  | .nop _ => false
  | .halt _ => false
  | .yield _ => false
  | .br _ => false
  | .jmp _ => false
  | .call _ => false
  | .jr _ => false
  | .loop _ => false
  | .loopi _ => false
  | .ldB _ => false
  | .ldH _ => false
  | .ldW _ => false
  | .ldD _ => false
  | .ldsB _ => false
  | .ldsH _ => false
  | .ldsW _ => false
  | .st _ => false
  | .ldx _ => false
  | .stx _ => false
  | .ldsync _ => false
  | .ldff _ => false
  | .stsync _ => false
  | .stfill _ => false
  | .sete _ => false
  | .afaa _ => false
  | .axchg _ => false
  | .acas _ => false
  | .amin _ => false
  | .amax _ => false
  | .aminu _ => false
  | .amaxu _ => false
  | .aand _ => false
  | .aor _ => false
  | .afaaN _ => false
  | .axchgN _ => false
  | .acasN _ => false
  | .aminN _ => false
  | .amaxN _ => false
  | .aminuN _ => false
  | .amaxuN _ => false
  | .aandN _ => false
  | .aorN _ => false
  | .spin _ => false
  | .sflush _ => false
  | .sinv _ => false
  | .pref _ => false
  | .fenceH _ => false
  | .fenceE _ => false
  | .fenceP _ => false
  | .chunk _ => false
  | .iflush _ => false
  | .send _ => false
  | .recv _ => false
  | .peek _ => false
  | .chstat _ => false
  | .waitm _ => false
  | .waitmI _ => false
  | .inb _ => false
  | .msgmask _ => false
  | .retu _ => false
  | .spawn _ => false
  | .tnext _ => false
  | .tpost _ => false
  | .retj _ => false
  | .sleep _ => false
  | .barw _ => false
  | .bara _ => false
  | .barcfg _ => false
  | .cancelL _ => false
  | .cancelG _ => false
  | .cancelJ _ => false
  | .bcopy _ => false
  | .strm _ => false
  | .strmx _ => false
  | .mbw _ => false
  | .mbr _ => false
  | .mcfg _ => false
  | .mzero _ => false
  | .mma _ => false
  | .mend _ => false
  | .msto _ => false
  | .mstat _ => false
  | .gangStart _ => false
  | .ganglimExpiry _ _ _ => false
  | .setpos _ => false
  | .getpos _ => false
  | .publ _ => false
  | .neigh _ => false
  | .nextn _ => false
  | .migr _ => false
  | .whereIs _ => false
  | .anchor _ => false
  | .peer _ => false
  | .sysr _ => false
  | .sysw _ => false
  | .tlbiVa _ => true
  | .tlbiJob _ => true
  | .tlbiVm _ => true
  | .tlbiGpa _ => true
  | .tlbiAll _ => true
  | .tlbiInvalidate _ => false
  | .tlbiDone _ _ => false
  | .svc _ => false
  | .eret _ => false
  | .wake _ => false
  | .add _ => false
  | .sub _ => false
  | .mul _ => false
  | .mulh _ => false
  | .mulhu _ => false
  | .div _ => false
  | .divu _ => false
  | .rem _ => false
  | .remu _ => false
  | .and _ => false
  | .or _ => false
  | .xor _ => false
  | .andn _ => false
  | .shl _ => false
  | .shr _ => false
  | .sar _ => false
  | .ror _ => false
  | .min _ => false
  | .max _ => false
  | .minu _ => false
  | .maxu _ => false
  | .clz _ => false
  | .ctz _ => false
  | .popc _ => false
  | .extr _ => false
  | .insr _ => false
  | .addi _ => false
  | .andi _ => false
  | .ori _ => false
  | .xori _ => false
  | .shli _ => false
  | .shri _ => false
  | .sari _ => false
  | .rori _ => false
  | .movi _ => false
  | .movh _ => false
  | .cmp _ => false
  | .cmpi _ => false
  | .pand _ => false
  | .pandn _ => false
  | .por _ => false
  | .pxor _ => false
  | .pnot _ => false
  | .rdpw _ => false
  | .wrpw _ => false
  | .sel _ => false
  | .vadd _ => false
  | .vadds _ => false
  | .vsub _ => false
  | .vsubs _ => false
  | .vmul _ => false
  | .vmulh _ => false
  | .vmin _ => false
  | .vmax _ => false
  | .vavg _ => false
  | .vabsd _ => false
  | .vshl _ => false
  | .vshr _ => false
  | .vcmpeq _ => false
  | .vcmpgt _ => false
  | .vsplat _ => false
  | .vpack _ => false
  | .vunpk _ => false
  | .fadd _ => false
  | .fsub _ => false
  | .fmul _ => false
  | .fdiv _ => false
  | .fsqrt _ => false
  | .fmin _ => false
  | .fmax _ => false
  | .fma _ => false
  | .fneg _ => false
  | .fabs _ => false
  | .fcmp _ => false
  | .fclass _ => false
  | .fcvt _ => false
  | .bundleIssue _ _ => false
  | .rotationBoundary _ => false
  | .landingResult _ => false
  | .remoteReply _ => false
  | .timingReplay _ _ => false
  | .egressLatchRelease _ => false
  | .chunkCommit _ _ => false
  | .domainAcquire _ _ _ => false
  | .domainApply _ _ _ => false
  | .pinWaitLimit _ _ => false
  | .engineElementWrite _ => false
  | .engineElementRead _ => false
  | .engineCompletion _ => false
  | .inboxEntryPlace _ => false
  | .remoteRequest _ => false
  | .refusalArrival _ => false
  | .fullEmptyService _ _ => false
  | .waitListRetry _ _ => false
  | .busyReissue _ _ => false
  | .waitlimExpiry _ _ _ => false
  | .waitWithdrawal _ => false
  | .barlimExpiry _ _ _ => false
  | .segStageWrite _ _ => false
  | .segCommit _ _ => false
  | .coretagWrite _ => false
  | .xrootWrite _ => false
  | .lmmapWrite _ => false
  | .pageWalk _ => false
  | .parkedAnswer _ _ => false
  | .stashFillReply _ => false
  | .stashInvalidate _ _ => false
  | .stashRecall _ _ _ => false
  | .stashRevoke _ _ => false
  | .exclusiveGrant _ _ => false
  | .l2FillRequest _ => false
  | .l2OwnershipRequest _ => false
  | .l2DropNotice _ => false
  | .l2Writeback _ => false
  | .l2InvalidateAck _ => false
  | .l2Atomic _ => false
  | .omegaCombine _ _ => false
  | .combineSplit _ => false
  | .tileRequest _ => false
  | .tileMergeClose _ _ => false
  | .tilePinRelease _ _ => false
  | .maskScrub _ => false
  | .bucketRefill _ => false
  | .tokenRetry _ => false
  | .l2partWrite _ _ => false
  | .l2bwWrite _ _ => false
  | .l2statClear => false
  | .s2Translate _ => false
  | .s2UpgradeCheck _ => false
  | .s2BlockedRetry _ => false
  | .mscFill _ => false
  | .mscWriteback _ => false
  | .mscNonallocWrite _ => false
  | .controllerFillReturn _ _ => false
  | .psnansRepaired _ => false
  | .psnansLost _ => false
  | .repairTimeout _ => false
  | .pgblkBlock _ => false
  | .pgblkAbandon _ => false
  | .pageDrainDone _ => false
  | .pageCopyStart _ => false
  | .pageCopyDone => false
  | .checkpointStart => false
  | .powerFailInput => false
  | .checkpointFlush => false
  | .checkpointCopy => false
  | .checkpointSeal => false
  | .launchComplete _ => false
  | .messageArrive _ => false
  | .skipNoticeArrive _ => false
  | .messageAck _ => false
  | .messageRefused _ => false
  | .messageReoffer _ _ => false
  | .skipNoticeReoffer _ => false
  | .sendlimExpiry _ _ _ => false
  | .placementUpdate _ _ _ => false
  | .userInterruptDeliver _ _ => false
  | .mailboxService _ _ => false
  | .streamReadAhead _ _ => false
  | .doorbellWrite _ _ => false
  | .doorbellHeadRead _ => false
  | .dqptrWrite _ => false
  | .dispatch => false
  | .depReread _ => false
  | .taskRecordRetry _ => false
  | .remoteLaunchRecord _ _ _ _ _ _ => false
  | .launchWake _ => false
  | .launchStart _ => false
  | .preemptSelect _ => false
  | .cocoonSaveDone _ => false
  | .continuationRetry _ => false
  | .tpostRetry _ _ => false
  | .sleepExpiry _ _ _ => false
  | .carryPacketArrive _ => false
  | .carryAck _ => false
  | .carryRefused _ => false
  | .carryReoffer _ => false
  | .fieldcfgWrite _ => false
  | .fieldStepNotice _ _ _ => false
  | .fieldResidentCount _ _ _ => false
  | .fieldHandover _ => false
  | .fieldSnapshot _ => false
  | .fieldHaloCopy _ _ => false
  | .fieldStepRelease _ => false
  | .placementLookup _ _ => false
  | .forwardItem _ _ => false
  | .flutterSweep _ => false
  | .weightReport _ => false
  | .flutterPropose _ => false
  | .proposalAnswer _ _ => false
  | .proposalDecide _ => false
  | .decisionReceive _ => false
  | .swapFreeze _ _ => false
  | .swapMove _ _ => false
  | .swapFlip _ _ => false
  | .swapResume _ _ => false
  | .placementInvalidate _ _ => false
  | .forwardRetire _ _ => false
  | .bar2Access _ _ _ _ => false
  | .hostWindowCompletion _ _ _ => false
  | .bronexAuthFail _ => false
  | .bronexLinkFail _ => false
  | .routeWaitTimeout _ => false
  | .powerGate _ => false
  | .coreWake _ => false
  | .thermalRunaway _ => false
  | .powerInterval => false
  | .voltageGlitch => false
  | .clockGlitch => false
  | .tamperLoopOpen => false
  | .chrysalisAlarm _ _ => false
  | .chalcfgWrite _ => false
  | .challogClear => false
  | .attestationReport _ => false
  | .chrysalisBoot _ _ _ => false
  | .reset => false
  | .stopByLomter _ _ => false
  | .slotRestart _ _ _ => false
  | .thaw _ => false
  | .jobEnd _ => false
  | .bronexLinkUp _ _ => false
  | .rowSensorReading _ _ _ => false

end Sys2Proof
end

