-- ==== Sys2Proof/Decode.lean ====
section
/-!
DEFINITION. The decoder, total on every bundle, and the encoder, both from the encoding tables of 08 (R176 to R196).
A bundle is decoded whole before any part of it acts (R181). `bits hi lo w` is the bit slice w[hi:lo] of R3.
-/

namespace Sys2Proof

/-- The slice w[hi:lo] (R3). -/
abbrev bits {n : Nat} (hi lo : Nat) (w : BitVec n) : BitVec (hi - lo + 1) := w.extractLsb hi lo

/-- One bit of a word. -/
abbrev bit {n : Nat} (i : Nat) (w : BitVec n) : Bool := w.getLsbD i

/-- A flag as one bit. -/
def b1 (b : Bool) : BitVec 1 := BitVec.ofBool b

/-! ## Word A field by field (R182) -/

/-- Major opcode, bits 29:24 (R176). -/
def majorOf (w : W32) : Nat := (bits 29 24 w).toNat

/-- AR fields (R182). -/
def AR.parse (w : W32) (x : Option W32) : AR :=
  { d := bits 23 19 w, a := bits 18 14 w, b := bits 13 9 w, g := bits 8 6 w, sa := bit 2 w, sb := bit 1 w, x := x }

/-- AR bits 29:0 (R182). -/
def AR.enc (major : BitVec 6) (f : BitVec 3) (r : AR) : BitVec 30 :=
  major ++ r.d ++ r.a ++ r.b ++ r.g ++ f ++ b1 r.sa ++ b1 r.sb ++ 0#1

/-- AK fields (R182). -/
def AK.parse (w : W32) (x : Option W32) : AK :=
  { d := bits 23 19 w, a := bits 18 14 w, b := bits 13 9 w, g := bits 8 6 w, k := bits 5 3 w, n := bits 2 0 w, x := x }

/-- AK bits 29:0 (R182). -/
def AK.enc (major : BitVec 6) (r : AK) : BitVec 30 := major ++ r.d ++ r.a ++ r.b ++ r.g ++ r.k ++ r.n

/-- AM fields (R182): oh in 10:9, ol in 1:0. -/
def AM.parse (w : W32) (x : Option W32) : AM :=
  { d := bits 23 19 w, a := bits 18 14 w, seg := bits 13 11 w, o := bits 10 9 w ++ bits 1 0 w, g := bits 8 6 w,
    la := bits 5 2 w, x := x }

/-- AM bits 29:0 (R182). -/
def AM.enc (major : BitVec 6) (r : AM) : BitVec 30 :=
  major ++ r.d ++ r.a ++ r.seg ++ bits 3 2 r.o ++ r.g ++ r.la ++ bits 1 0 r.o

/-- AS fields (R182). -/
def AS.parse (w : W32) (x : Option W32) : AS :=
  { d := bits 23 19 w, a := bits 18 14 w, seg := bits 13 11 w, f := bits 10 9 w, g := bits 8 6 w, off := bits 5 0 w,
    x := x }

/-- AS bits 29:0 (R182). -/
def AS.enc (major : BitVec 6) (r : AS) : BitVec 30 := major ++ r.d ++ r.a ++ r.seg ++ r.f ++ r.g ++ r.off

/-- AX fields (R182). -/
def AX.parse (w : W32) (x : Option W32) : AX :=
  { d := bits 23 19 w, a := bits 18 14 w, seg := bits 13 11 w, sz := bits 10 9 w, g := bits 8 6 w, la := bits 5 2 w,
    sx := bit 1 w, x := x }

/-- AX bits 29:0 (R182). -/
def AX.enc (major : BitVec 6) (r : AX) : BitVec 30 :=
  major ++ r.d ++ r.a ++ r.seg ++ r.sz ++ r.g ++ r.la ++ b1 r.sx ++ 0#1

/-- AQ fields (R182). -/
def AQ.parse (w : W32) (x : Option W32) : AQ :=
  { a := bits 18 14 w, seg := bits 13 11 w, g := bits 8 6 w, x := x }

/-- AQ bits 29:0 (R182), with the selectors f and s of R191. -/
def AQ.enc (f s : BitVec 3) (r : AQ) : BitVec 30 := 0x17#6 ++ 0#5 ++ r.a ++ r.seg ++ 0#2 ++ r.g ++ f ++ s

/-- AA fields of word A and of the extension (R182, R184). -/
def AA.parse (w x : W32) : AA :=
  { d := bits 23 19 w, a := bits 18 14 w, b := bits 13 9 w, g := bits 8 6 w, seg := bits 5 3 w, off := bits 31 16 x,
    la := bits 11 8 x, sz := bit 4 x }

/-- AA bits 29:0 of word A (R182). -/
def AA.enc (major : BitVec 6) (r : AA) : BitVec 30 := major ++ r.d ++ r.a ++ r.b ++ r.g ++ r.seg ++ 0#3

/-- The extension of an atomic (R184). -/
def AA.ext (fn : BitVec 4) (r : AA) : W32 := r.off ++ 0#4 ++ r.la ++ 0#3 ++ b1 r.sz ++ fn

/-- AZ fields: num is 18:14, 13:9, 5:4, high part first (R187). -/
def AZ.parse (w : W32) : AZ :=
  { d := bits 23 19 w, num := bits 18 14 w ++ bits 13 9 w ++ bits 5 4 w, g := bits 8 6 w, sd := bit 3 w }

/-- AZ bits 29:0 (R187). -/
def AZ.enc (major : BitVec 6) (r : AZ) : BitVec 30 :=
  major ++ r.d ++ bits 11 7 r.num ++ bits 6 2 r.num ++ r.g ++ bits 1 0 r.num ++ b1 r.sd ++ 0#3

/-- AB fields (R182, R185). -/
def AB.parse (w : W32) : AB := { disp := bits 23 9 w ++ bits 5 0 w, g := bits 8 6 w }

/-- AB bits 29:0 (R182). -/
def AB.enc (major : BitVec 6) (r : AB) : BitVec 30 := major ++ bits 20 6 r.disp ++ r.g ++ bits 5 0 r.disp

/-- AC fields (R182, R185). -/
def AC.parse (w : W32) (x : Option W32) : AC :=
  { d := bits 23 19 w, disp := bits 18 9 w ++ bits 5 0 w, g := bits 8 6 w, x := x }

/-- AC bits 29:0 (R182). -/
def AC.enc (r : AC) : BitVec 30 := 0x03#6 ++ r.d ++ bits 15 6 r.disp ++ r.g ++ bits 5 0 r.disp

/-- LOOP fields (R186). -/
def LoopR.parse (w : W32) : LoopR := { a := bits 18 14 w, sa := bit 13 w, lc := bit 7 w, bl := bits 6 0 w }

/-- LOOP bits 29:0 (R186). -/
def LoopR.enc (r : LoopR) : BitVec 30 := 0x05#6 ++ 0#5 ++ r.a ++ b1 r.sa ++ 0#5 ++ b1 r.lc ++ r.bl

/-- LOOPI fields (R186). -/
def LoopI.parse (w : W32) : LoopI := { count := bits 23 8 w, lc := bit 7 w, bl := bits 6 0 w }

/-- LOOPI bits 29:0 (R186). -/
def LoopI.enc (r : LoopI) : BitVec 30 := 0x06#6 ++ r.count ++ b1 r.lc ++ r.bl

/-! ## Word B field by field (R189) -/

/-- BR fields (R189). -/
def BR.parse (w : W32) : BR :=
  { d := bits 23 19 w, a := bits 18 14 w, b := bits 12 8 w, sa := bit 13 w, sb := bit 7 w, g := bits 6 4 w,
    fn := bits 3 0 w }

/-- BR word (R189). -/
def BR.enc (op : BitVec 8) (r : BR) : W32 := op ++ r.d ++ r.a ++ b1 r.sa ++ r.b ++ b1 r.sb ++ r.g ++ r.fn

/-- BI fields: imm is 12:8, 7, 3:0 (R189). -/
def BI.parse (w : W32) : BI :=
  { d := bits 23 19 w, a := bits 18 14 w, sa := bit 13 w, imm := bits 12 7 w ++ bits 3 0 w, g := bits 6 4 w }

/-- BI word (R189). -/
def BI.enc (op : BitVec 8) (r : BI) : W32 := op ++ r.d ++ r.a ++ b1 r.sa ++ bits 9 4 r.imm ++ r.g ++ bits 3 0 r.imm

/-- BK fields: imm is 18:14, 13, 12:8, 7, 3:0 (R189). -/
def BK.parse (w : W32) : BK := { d := bits 23 19 w, imm := bits 18 7 w ++ bits 3 0 w, g := bits 6 4 w }

/-- BK word (R189). -/
def BK.enc (op : BitVec 8) (r : BK) : W32 := op ++ r.d ++ bits 15 4 r.imm ++ r.g ++ bits 3 0 r.imm

/-- BC fields (R189). -/
def BC.parse (w : W32) : BC :=
  { pd := bits 21 19 w, a := bits 18 14 w, b := bits 12 8 w, sa := bit 13 w, sb := bit 7 w, g := bits 6 4 w,
    cond := bits 3 0 w }

/-- BC word (R189). -/
def BC.enc (op : BitVec 8) (r : BC) : W32 :=
  op ++ 0#2 ++ r.pd ++ r.a ++ b1 r.sa ++ r.b ++ b1 r.sb ++ r.g ++ r.cond

/-- BF fields (R189). -/
def BF.parse (w : W32) : BF :=
  { cond := bits 23 22 w, pd := bits 21 19 w, a := bits 18 14 w, b := bits 12 8 w, sa := bit 13 w, sb := bit 7 w,
    g := bits 6 4 w, fmt := bits 3 0 w }

/-- BF word (R189). -/
def BF.enc (op : BitVec 8) (r : BF) : W32 :=
  op ++ r.cond ++ r.pd ++ r.a ++ b1 r.sa ++ r.b ++ b1 r.sb ++ r.g ++ r.fmt

/-- BV fields (R189). -/
def BV.parse (w : W32) : BV :=
  { d := bits 23 19 w, a := bits 18 14 w, sa := bit 13 w, src := bits 12 8 w, g := bits 6 4 w, dst := bits 3 0 w }

/-- BV word (R189). -/
def BV.enc (op : BitVec 8) (r : BV) : W32 := op ++ r.d ++ r.a ++ b1 r.sa ++ r.src ++ 0#1 ++ r.g ++ r.dst

/-! ## The maps (R190 to R195) -/

/-- Keeps a well-formed instruction and refuses the rest (R181). -/
def keep (i : Instr) : Option Instr := if i.wf then some i else none

/-- An AR instruction by major and f; bit 0 is zero (R182, R190). -/
def decodeAR (w : W32) (x : Option W32) : Option Instr :=
  let r := AR.parse w x
  if bit 0 w then none else
  match majorOf w, (bits 5 3 w).toNat with
  | 0x00, 0 => keep (.nop r)
  | 0x00, 1 => keep (.halt r)
  | 0x00, 2 => keep (.yield r)
  | 0x04, 0 => keep (.jr r)
  | 0x1D, 0 => keep (.inb r)
  | 0x1E, 0 => keep (.msgmask r)
  | 0x1F, 0 => keep (.retu r)
  | 0x20, 0 => keep (.spawn r)
  | 0x21, 0 => keep (.tnext r)
  | 0x22, 0 => keep (.tpost r)
  | 0x23, 0 => keep (.retj r)
  | 0x24, 0 => keep (.sleep r)
  | 0x25, 0 => keep (.barw r)
  | 0x25, 1 => keep (.bara r)
  | 0x26, 0 => keep (.barcfg r)
  | 0x27, 0 => keep (.cancelL r)
  | 0x27, 1 => keep (.cancelG r)
  | 0x27, 2 => keep (.cancelJ r)
  | 0x28, 0 => keep (.bcopy r)
  | 0x29, 0 => keep (.strm r)
  | 0x2A, 0 => keep (.strmx r)
  | 0x2B, 0 => keep (.mbw r)
  | 0x2C, 0 => keep (.mbr r)
  | 0x30, 0 => keep (.mcfg r)
  | 0x31, 0 => keep (.mzero r)
  | 0x32, 0 => keep (.mma r)
  | 0x33, 0 => keep (.mend r)
  | 0x34, 0 => keep (.msto r)
  | 0x35, 0 => keep (.mstat r)
  | 0x38, 0 => keep (.setpos r)
  | 0x38, 1 => keep (.getpos r)
  | 0x38, 2 => keep (.publ r)
  | 0x39, 0 => keep (.neigh r)
  | 0x39, 1 => keep (.nextn r)
  | 0x3A, 0 => keep (.migr r)
  | 0x3A, 1 => keep (.whereIs r)
  | 0x3A, 2 => keep (.anchor r)
  | 0x3A, 3 => keep (.peer r)
  | 0x3E, 0 => keep (.tlbiVa r)
  | 0x3E, 1 => keep (.tlbiJob r)
  | 0x3E, 2 => keep (.tlbiVm r)
  | 0x3E, 3 => keep (.tlbiGpa r)
  | 0x3E, 4 => keep (.tlbiAll r)
  | 0x3F, 0 => keep (.svc r)
  | 0x3F, 1 => keep (.eret r)
  | 0x3F, 2 => keep (.wake r)
  | _, _ => none

/-- An AK instruction by major; n selects the form of WAITM (R190, R252). -/
def decodeAK (w : W32) (x : Option W32) : Option Instr :=
  let r := AK.parse w x
  match majorOf w with
  | 0x18 => keep (.send r)
  | 0x19 => keep (.recv r)
  | 0x1A => keep (.peek r)
  | 0x1B => keep (.chstat r)
  | 0x1C => if r.n == 0 then keep (.waitm r) else keep (.waitmI r)
  | _ => none

/-- An AM instruction by major (R190). -/
def decodeAM (w : W32) (x : Option W32) : Option Instr :=
  let r := AM.parse w x
  match majorOf w with
  | 0x08 => keep (.ldB r)
  | 0x09 => keep (.ldH r)
  | 0x0A => keep (.ldW r)
  | 0x0B => keep (.ldD r)
  | 0x0C => keep (.ldsB r)
  | 0x0D => keep (.ldsH r)
  | 0x0E => keep (.ldsW r)
  | 0x12 => keep (.ldsync r)
  | 0x13 => keep (.ldff r)
  | _ => none

/-- An AS instruction by major and f (R190). -/
def decodeAS (w : W32) (x : Option W32) : Option Instr :=
  let r := AS.parse w x
  match majorOf w, r.f.toNat with
  | 0x0F, _ => keep (.st r)
  | 0x14, 0 => keep (.stsync r)
  | 0x14, 1 => keep (.stfill r)
  | 0x14, 2 => keep (.sete r)
  | _, _ => none

/-- An AX instruction by major; bit 0 is zero (R182, R190). -/
def decodeAX (w : W32) (x : Option W32) : Option Instr :=
  let r := AX.parse w x
  if bit 0 w then none else
  match majorOf w with
  | 0x10 => keep (.ldx r)
  | 0x11 => keep (.stx r)
  | _ => none

/-- An AQ instruction by f and s; bits 23:19 and 10:9 are zero (R182, R191). -/
def decodeAQ (w : W32) (x : Option W32) : Option Instr :=
  let r := AQ.parse w x
  if bits 23 19 w != 0 || bits 10 9 w != 0 then none else
  match (bits 5 3 w).toNat, (bits 2 0 w).toNat with
  | 0, 0 => keep (.spin r)
  | 1, 0 => keep (.sflush r)
  | 2, 0 => keep (.sinv r)
  | 3, 0 => keep (.pref r)
  | 4, 0 => keep (.fenceH r)
  | 4, 1 => keep (.fenceE r)
  | 4, 2 => keep (.fenceP r)
  | 5, 0 => keep (.chunk r)
  | 6, 0 => keep (.iflush r)
  | _, _ => none

/-- An atomic by major and fn; bits 2:0 of word A and bits 15:12 and 7:5 of the extension are zero (R184). -/
def decodeAA (w x : W32) : Option Instr :=
  let r := AA.parse w x
  if bits 2 0 w != 0 || bits 15 12 x != 0 || bits 7 5 x != 0 then none else
  match majorOf w, (bits 3 0 x).toNat with
  | 0x15, 0 => keep (.afaa r)
  | 0x15, 1 => keep (.axchg r)
  | 0x15, 2 => keep (.acas r)
  | 0x15, 3 => keep (.amin r)
  | 0x15, 4 => keep (.amax r)
  | 0x15, 5 => keep (.aminu r)
  | 0x15, 6 => keep (.amaxu r)
  | 0x15, 7 => keep (.aand r)
  | 0x15, 8 => keep (.aor r)
  | 0x16, 0 => keep (.afaaN r)
  | 0x16, 1 => keep (.axchgN r)
  | 0x16, 2 => keep (.acasN r)
  | 0x16, 3 => keep (.aminN r)
  | 0x16, 4 => keep (.amaxN r)
  | 0x16, 5 => keep (.aminuN r)
  | 0x16, 6 => keep (.amaxuN r)
  | 0x16, 7 => keep (.aandN r)
  | 0x16, 8 => keep (.aorN r)
  | _, _ => none

/-- Word A with its extension, or without one (R181 step 2, R190). Majors that take no extension refuse one. -/
def decodeA (w : W32) (x : Option W32) : Option Instr :=
  let m := majorOf w
  if m == 0x01 then (if x.isSome then none else keep (.br (AB.parse w)))
  else if m == 0x02 then (if x.isSome then none else keep (.jmp (AB.parse w)))
  else if m == 0x03 then keep (.call (AC.parse w x))
  else if m == 0x05 then
    (if x.isSome || bits 23 19 w != 0 || bits 12 8 w != 0 then none else keep (.loop (LoopR.parse w)))
  else if m == 0x06 then (if x.isSome then none else keep (.loopi (LoopI.parse w)))
  else if m == 0x00 || m == 0x04 then decodeAR w x
  else if m ≤ 0x0E then decodeAM w x
  else if m == 0x0F || m == 0x14 then decodeAS w x
  else if m ≤ 0x11 then decodeAX w x
  else if m ≤ 0x13 then decodeAM w x
  else if m ≤ 0x16 then (match x with | some e => decodeAA w e | none => none)
  else if m == 0x17 then decodeAQ w x
  else if m ≤ 0x1C then decodeAK w x
  else if m == 0x3C then (if x.isSome || bits 2 0 w != 0 then none else keep (.sysr (AZ.parse w)))
  else if m == 0x3D then (if x.isSome || bits 2 0 w != 0 then none else keep (.sysw (AZ.parse w)))
  else decodeAR w x

/-- Word B by its opcode (R181 step 3, R192 to R195). Bits 23:22 of BC and bit 7 of BV are zero. -/
def decodeB (w : W32) : Option Instr :=
  match (bits 31 24 w).toNat with
  | 0x00 => keep (.add (BR.parse w))
  | 0x01 => keep (.sub (BR.parse w))
  | 0x02 => keep (.mul (BR.parse w))
  | 0x03 => keep (.mulh (BR.parse w))
  | 0x04 => keep (.mulhu (BR.parse w))
  | 0x05 => keep (.div (BR.parse w))
  | 0x06 => keep (.divu (BR.parse w))
  | 0x07 => keep (.rem (BR.parse w))
  | 0x08 => keep (.remu (BR.parse w))
  | 0x09 => keep (.and (BR.parse w))
  | 0x0A => keep (.or (BR.parse w))
  | 0x0B => keep (.xor (BR.parse w))
  | 0x0C => keep (.andn (BR.parse w))
  | 0x0D => keep (.shl (BR.parse w))
  | 0x0E => keep (.shr (BR.parse w))
  | 0x0F => keep (.sar (BR.parse w))
  | 0x10 => keep (.ror (BR.parse w))
  | 0x11 => keep (.min (BR.parse w))
  | 0x12 => keep (.max (BR.parse w))
  | 0x13 => keep (.minu (BR.parse w))
  | 0x14 => keep (.maxu (BR.parse w))
  | 0x15 => keep (.clz (BR.parse w))
  | 0x16 => keep (.ctz (BR.parse w))
  | 0x17 => keep (.popc (BR.parse w))
  | 0x18 => keep (.extr (BR.parse w))
  | 0x19 => keep (.insr (BR.parse w))
  | 0x20 => keep (.addi (BI.parse w))
  | 0x21 => keep (.andi (BI.parse w))
  | 0x22 => keep (.ori (BI.parse w))
  | 0x23 => keep (.xori (BI.parse w))
  | 0x24 => keep (.shli (BI.parse w))
  | 0x25 => keep (.shri (BI.parse w))
  | 0x26 => keep (.sari (BI.parse w))
  | 0x27 => keep (.rori (BI.parse w))
  | 0x28 => keep (.movi (BK.parse w))
  | 0x29 => keep (.movh (BK.parse w))
  | 0x40 => if bits 23 22 w != 0 then none else keep (.cmp (BC.parse w))
  | 0x41 => if bits 23 22 w != 0 then none else keep (.cmpi (BC.parse w))
  | 0x44 => keep (.pand (BR.parse w))
  | 0x45 => keep (.pandn (BR.parse w))
  | 0x46 => keep (.por (BR.parse w))
  | 0x47 => keep (.pxor (BR.parse w))
  | 0x48 => keep (.pnot (BR.parse w))
  | 0x49 => keep (.rdpw (BR.parse w))
  | 0x4A => keep (.wrpw (BR.parse w))
  | 0x4C => keep (.sel (BR.parse w))
  | 0x60 => keep (.vadd (BR.parse w))
  | 0x61 => keep (.vadds (BR.parse w))
  | 0x62 => keep (.vsub (BR.parse w))
  | 0x63 => keep (.vsubs (BR.parse w))
  | 0x64 => keep (.vmul (BR.parse w))
  | 0x65 => keep (.vmulh (BR.parse w))
  | 0x66 => keep (.vmin (BR.parse w))
  | 0x67 => keep (.vmax (BR.parse w))
  | 0x68 => keep (.vavg (BR.parse w))
  | 0x69 => keep (.vabsd (BR.parse w))
  | 0x6A => keep (.vshl (BR.parse w))
  | 0x6B => keep (.vshr (BR.parse w))
  | 0x6C => keep (.vcmpeq (BR.parse w))
  | 0x6D => keep (.vcmpgt (BR.parse w))
  | 0x6E => keep (.vsplat (BR.parse w))
  | 0x6F => keep (.vpack (BR.parse w))
  | 0x70 => keep (.vunpk (BR.parse w))
  | 0x80 => keep (.fadd (BR.parse w))
  | 0x81 => keep (.fsub (BR.parse w))
  | 0x82 => keep (.fmul (BR.parse w))
  | 0x83 => keep (.fdiv (BR.parse w))
  | 0x84 => keep (.fsqrt (BR.parse w))
  | 0x85 => keep (.fmin (BR.parse w))
  | 0x86 => keep (.fmax (BR.parse w))
  | 0x87 => keep (.fma (BR.parse w))
  | 0x88 => keep (.fneg (BR.parse w))
  | 0x89 => keep (.fabs (BR.parse w))
  | 0x8A => keep (.fcmp (BF.parse w))
  | 0x8B => keep (.fclass (BR.parse w))
  | 0x8C => if bit 7 w then none else keep (.fcvt (BV.parse w))
  | _ => none

/-! ## Bundles (R176, R177, R181) -/

/-- A decoded bundle: word A, which carries its own extension if it has one, and word B when L = X = 0. -/
structure Bundle where
  a : Instr
  b : Option Instr
  deriving DecidableEq, Repr

/-- Decodes a bundle whole from word A and word B (R177, R181). `none` is ILLOP. -/
def decodeWords (wa wb : W32) : Option Bundle :=
  match bit 31 wa, bit 30 wa with
  | true, true => none
  | true, false => if wb != 0 then none else (decodeA wa none).map fun i => { a := i, b := none }
  | false, true =>
    match decodeA wa (some wb) with
    | some i => if i.loneOnly then none else some { a := i, b := none }
    | none => none
  | false, false =>
    match decodeA wa none, decodeB wb with
    | some i, some j => if i.loneOnly then none else some { a := i, b := some j }
    | _, _ => none

/-- Decodes the dword at a bundle's address: word A in bits 31:0, word B in bits 63:32 (R176). -/
def decodeBundle (v : W64) : Option Bundle := decodeWords (bits 31 0 v) (bits 63 32 v)

/-! ## The encoder -/

/-- The extension an instruction carries (R183 to R188). -/
def Instr.ext : Instr → Option W32
  | .nop r => r.x
  | .halt r => r.x
  | .yield r => r.x
  | .br _ => none
  | .jmp _ => none
  | .call r => r.x
  | .jr r => r.x
  | .loop _ => none
  | .loopi _ => none
  | .ldB r => r.x
  | .ldH r => r.x
  | .ldW r => r.x
  | .ldD r => r.x
  | .ldsB r => r.x
  | .ldsH r => r.x
  | .ldsW r => r.x
  | .st r => r.x
  | .ldx r => r.x
  | .stx r => r.x
  | .ldsync r => r.x
  | .ldff r => r.x
  | .stsync r => r.x
  | .stfill r => r.x
  | .sete r => r.x
  | .afaa r => some (r.ext 0)
  | .axchg r => some (r.ext 1)
  | .acas r => some (r.ext 2)
  | .amin r => some (r.ext 3)
  | .amax r => some (r.ext 4)
  | .aminu r => some (r.ext 5)
  | .amaxu r => some (r.ext 6)
  | .aand r => some (r.ext 7)
  | .aor r => some (r.ext 8)
  | .afaaN r => some (r.ext 0)
  | .axchgN r => some (r.ext 1)
  | .acasN r => some (r.ext 2)
  | .aminN r => some (r.ext 3)
  | .amaxN r => some (r.ext 4)
  | .aminuN r => some (r.ext 5)
  | .amaxuN r => some (r.ext 6)
  | .aandN r => some (r.ext 7)
  | .aorN r => some (r.ext 8)
  | .spin r => r.x
  | .sflush r => r.x
  | .sinv r => r.x
  | .pref r => r.x
  | .fenceH r => r.x
  | .fenceE r => r.x
  | .fenceP r => r.x
  | .chunk r => r.x
  | .iflush r => r.x
  | .send r => r.x
  | .recv r => r.x
  | .peek r => r.x
  | .chstat r => r.x
  | .waitm r => r.x
  | .waitmI r => r.x
  | .inb r => r.x
  | .msgmask r => r.x
  | .retu r => r.x
  | .spawn r => r.x
  | .tnext r => r.x
  | .tpost r => r.x
  | .retj r => r.x
  | .sleep r => r.x
  | .barw r => r.x
  | .bara r => r.x
  | .barcfg r => r.x
  | .cancelL r => r.x
  | .cancelG r => r.x
  | .cancelJ r => r.x
  | .bcopy r => r.x
  | .strm r => r.x
  | .strmx r => r.x
  | .mbw r => r.x
  | .mbr r => r.x
  | .mcfg r => r.x
  | .mzero r => r.x
  | .mma r => r.x
  | .mend r => r.x
  | .msto r => r.x
  | .mstat r => r.x
  | .gangStart _ => none
  | .ganglimExpiry _ _ _ => none
  | .setpos r => r.x
  | .getpos r => r.x
  | .publ r => r.x
  | .neigh r => r.x
  | .nextn r => r.x
  | .migr r => r.x
  | .whereIs r => r.x
  | .anchor r => r.x
  | .peer r => r.x
  | .sysr _ => none
  | .sysw _ => none
  | .tlbiVa r => r.x
  | .tlbiJob r => r.x
  | .tlbiVm r => r.x
  | .tlbiGpa r => r.x
  | .tlbiAll r => r.x
  | .tlbiInvalidate _ => none
  | .tlbiDone _ _ => none
  | .svc r => r.x
  | .eret r => r.x
  | .wake r => r.x
  | .add _ => none
  | .sub _ => none
  | .mul _ => none
  | .mulh _ => none
  | .mulhu _ => none
  | .div _ => none
  | .divu _ => none
  | .rem _ => none
  | .remu _ => none
  | .and _ => none
  | .or _ => none
  | .xor _ => none
  | .andn _ => none
  | .shl _ => none
  | .shr _ => none
  | .sar _ => none
  | .ror _ => none
  | .min _ => none
  | .max _ => none
  | .minu _ => none
  | .maxu _ => none
  | .clz _ => none
  | .ctz _ => none
  | .popc _ => none
  | .extr _ => none
  | .insr _ => none
  | .addi _ => none
  | .andi _ => none
  | .ori _ => none
  | .xori _ => none
  | .shli _ => none
  | .shri _ => none
  | .sari _ => none
  | .rori _ => none
  | .movi _ => none
  | .movh _ => none
  | .cmp _ => none
  | .cmpi _ => none
  | .pand _ => none
  | .pandn _ => none
  | .por _ => none
  | .pxor _ => none
  | .pnot _ => none
  | .rdpw _ => none
  | .wrpw _ => none
  | .sel _ => none
  | .vadd _ => none
  | .vadds _ => none
  | .vsub _ => none
  | .vsubs _ => none
  | .vmul _ => none
  | .vmulh _ => none
  | .vmin _ => none
  | .vmax _ => none
  | .vavg _ => none
  | .vabsd _ => none
  | .vshl _ => none
  | .vshr _ => none
  | .vcmpeq _ => none
  | .vcmpgt _ => none
  | .vsplat _ => none
  | .vpack _ => none
  | .vunpk _ => none
  | .fadd _ => none
  | .fsub _ => none
  | .fmul _ => none
  | .fdiv _ => none
  | .fsqrt _ => none
  | .fmin _ => none
  | .fmax _ => none
  | .fma _ => none
  | .fneg _ => none
  | .fabs _ => none
  | .fcmp _ => none
  | .fclass _ => none
  | .fcvt _ => none
  | .bundleIssue _ _ => none
  | .rotationBoundary _ => none
  | .landingResult _ => none
  | .remoteReply _ => none
  | .timingReplay _ _ => none
  | .egressLatchRelease _ => none
  | .chunkCommit _ _ => none
  | .domainAcquire _ _ _ => none
  | .domainApply _ _ _ => none
  | .pinWaitLimit _ _ => none
  | .engineElementWrite _ => none
  | .engineElementRead _ => none
  | .engineCompletion _ => none
  | .inboxEntryPlace _ => none
  | .remoteRequest _ => none
  | .refusalArrival _ => none
  | .fullEmptyService _ _ => none
  | .waitListRetry _ _ => none
  | .busyReissue _ _ => none
  | .waitlimExpiry _ _ _ => none
  | .waitWithdrawal _ => none
  | .barlimExpiry _ _ _ => none
  | .segStageWrite _ _ => none
  | .segCommit _ _ => none
  | .coretagWrite _ => none
  | .xrootWrite _ => none
  | .lmmapWrite _ => none
  | .pageWalk _ => none
  | .parkedAnswer _ _ => none
  | .stashFillReply _ => none
  | .stashInvalidate _ _ => none
  | .stashRecall _ _ _ => none
  | .stashRevoke _ _ => none
  | .exclusiveGrant _ _ => none
  | .l2FillRequest _ => none
  | .l2OwnershipRequest _ => none
  | .l2DropNotice _ => none
  | .l2Writeback _ => none
  | .l2InvalidateAck _ => none
  | .l2Atomic _ => none
  | .omegaCombine _ _ => none
  | .combineSplit _ => none
  | .tileRequest _ => none
  | .tileMergeClose _ _ => none
  | .tilePinRelease _ _ => none
  | .maskScrub _ => none
  | .bucketRefill _ => none
  | .tokenRetry _ => none
  | .l2partWrite _ _ => none
  | .l2bwWrite _ _ => none
  | .l2statClear => none
  | .s2Translate _ => none
  | .s2UpgradeCheck _ => none
  | .s2BlockedRetry _ => none
  | .mscFill _ => none
  | .mscWriteback _ => none
  | .mscNonallocWrite _ => none
  | .controllerFillReturn _ _ => none
  | .psnansRepaired _ => none
  | .psnansLost _ => none
  | .repairTimeout _ => none
  | .pgblkBlock _ => none
  | .pgblkAbandon _ => none
  | .pageDrainDone _ => none
  | .pageCopyStart _ => none
  | .pageCopyDone => none
  | .checkpointStart => none
  | .powerFailInput => none
  | .checkpointFlush => none
  | .checkpointCopy => none
  | .checkpointSeal => none
  | .launchComplete _ => none
  | .messageArrive _ => none
  | .skipNoticeArrive _ => none
  | .messageAck _ => none
  | .messageRefused _ => none
  | .messageReoffer _ _ => none
  | .skipNoticeReoffer _ => none
  | .sendlimExpiry _ _ _ => none
  | .placementUpdate _ _ _ => none
  | .userInterruptDeliver _ _ => none
  | .mailboxService _ _ => none
  | .streamReadAhead _ _ => none
  | .doorbellWrite _ _ => none
  | .doorbellHeadRead _ => none
  | .dqptrWrite _ => none
  | .dispatch => none
  | .depReread _ => none
  | .taskRecordRetry _ => none
  | .remoteLaunchRecord _ _ _ _ _ _ => none
  | .launchWake _ => none
  | .launchStart _ => none
  | .preemptSelect _ => none
  | .cocoonSaveDone _ => none
  | .continuationRetry _ => none
  | .tpostRetry _ _ => none
  | .sleepExpiry _ _ _ => none
  | .carryPacketArrive _ => none
  | .carryAck _ => none
  | .carryRefused _ => none
  | .carryReoffer _ => none
  | .fieldcfgWrite _ => none
  | .fieldStepNotice _ _ _ => none
  | .fieldResidentCount _ _ _ => none
  | .fieldHandover _ => none
  | .fieldSnapshot _ => none
  | .fieldHaloCopy _ _ => none
  | .fieldStepRelease _ => none
  | .placementLookup _ _ => none
  | .forwardItem _ _ => none
  | .flutterSweep _ => none
  | .weightReport _ => none
  | .flutterPropose _ => none
  | .proposalAnswer _ _ => none
  | .proposalDecide _ => none
  | .decisionReceive _ => none
  | .swapFreeze _ _ => none
  | .swapMove _ _ => none
  | .swapFlip _ _ => none
  | .swapResume _ _ => none
  | .placementInvalidate _ _ => none
  | .forwardRetire _ _ => none
  | .bar2Access _ _ _ _ => none
  | .hostWindowCompletion _ _ _ => none
  | .bronexAuthFail _ => none
  | .bronexLinkFail _ => none
  | .routeWaitTimeout _ => none
  | .powerGate _ => none
  | .coreWake _ => none
  | .thermalRunaway _ => none
  | .powerInterval => none
  | .voltageGlitch => none
  | .clockGlitch => none
  | .tamperLoopOpen => none
  | .chrysalisAlarm _ _ => none
  | .chalcfgWrite _ => none
  | .challogClear => none
  | .attestationReport _ => none
  | .chrysalisBoot _ _ _ => none
  | .reset => none
  | .stopByLomter _ _ => none
  | .slotRestart _ _ _ => none
  | .thaw _ => none
  | .jobEnd _ => none
  | .bronexLinkUp _ _ => none
  | .rowSensorReading _ _ _ => none

/-- Bits 29:0 of word A of an instruction that stands there; 0 for the rest (R190). -/
def Instr.encA : Instr → BitVec 30
  | .nop r => AR.enc 0x00 0 r
  | .halt r => AR.enc 0x00 1 r
  | .yield r => AR.enc 0x00 2 r
  | .br r => AB.enc 0x01 r
  | .jmp r => AB.enc 0x02 r
  | .call r => AC.enc r
  | .jr r => AR.enc 0x04 0 r
  | .loop r => LoopR.enc r
  | .loopi r => LoopI.enc r
  | .ldB r => AM.enc 0x08 r
  | .ldH r => AM.enc 0x09 r
  | .ldW r => AM.enc 0x0A r
  | .ldD r => AM.enc 0x0B r
  | .ldsB r => AM.enc 0x0C r
  | .ldsH r => AM.enc 0x0D r
  | .ldsW r => AM.enc 0x0E r
  | .st r => AS.enc 0x0F r
  | .ldx r => AX.enc 0x10 r
  | .stx r => AX.enc 0x11 r
  | .ldsync r => AM.enc 0x12 r
  | .ldff r => AM.enc 0x13 r
  | .stsync r => AS.enc 0x14 r
  | .stfill r => AS.enc 0x14 r
  | .sete r => AS.enc 0x14 r
  | .afaa r => AA.enc 0x15 r
  | .axchg r => AA.enc 0x15 r
  | .acas r => AA.enc 0x15 r
  | .amin r => AA.enc 0x15 r
  | .amax r => AA.enc 0x15 r
  | .aminu r => AA.enc 0x15 r
  | .amaxu r => AA.enc 0x15 r
  | .aand r => AA.enc 0x15 r
  | .aor r => AA.enc 0x15 r
  | .afaaN r => AA.enc 0x16 r
  | .axchgN r => AA.enc 0x16 r
  | .acasN r => AA.enc 0x16 r
  | .aminN r => AA.enc 0x16 r
  | .amaxN r => AA.enc 0x16 r
  | .aminuN r => AA.enc 0x16 r
  | .amaxuN r => AA.enc 0x16 r
  | .aandN r => AA.enc 0x16 r
  | .aorN r => AA.enc 0x16 r
  | .spin r => AQ.enc 0 0 r
  | .sflush r => AQ.enc 1 0 r
  | .sinv r => AQ.enc 2 0 r
  | .pref r => AQ.enc 3 0 r
  | .fenceH r => AQ.enc 4 0 r
  | .fenceE r => AQ.enc 4 1 r
  | .fenceP r => AQ.enc 4 2 r
  | .chunk r => AQ.enc 5 0 r
  | .iflush r => AQ.enc 6 0 r
  | .send r => AK.enc 0x18 r
  | .recv r => AK.enc 0x19 r
  | .peek r => AK.enc 0x1A r
  | .chstat r => AK.enc 0x1B r
  | .waitm r => AK.enc 0x1C r
  | .waitmI r => AK.enc 0x1C r
  | .inb r => AR.enc 0x1D 0 r
  | .msgmask r => AR.enc 0x1E 0 r
  | .retu r => AR.enc 0x1F 0 r
  | .spawn r => AR.enc 0x20 0 r
  | .tnext r => AR.enc 0x21 0 r
  | .tpost r => AR.enc 0x22 0 r
  | .retj r => AR.enc 0x23 0 r
  | .sleep r => AR.enc 0x24 0 r
  | .barw r => AR.enc 0x25 0 r
  | .bara r => AR.enc 0x25 1 r
  | .barcfg r => AR.enc 0x26 0 r
  | .cancelL r => AR.enc 0x27 0 r
  | .cancelG r => AR.enc 0x27 1 r
  | .cancelJ r => AR.enc 0x27 2 r
  | .bcopy r => AR.enc 0x28 0 r
  | .strm r => AR.enc 0x29 0 r
  | .strmx r => AR.enc 0x2A 0 r
  | .mbw r => AR.enc 0x2B 0 r
  | .mbr r => AR.enc 0x2C 0 r
  | .mcfg r => AR.enc 0x30 0 r
  | .mzero r => AR.enc 0x31 0 r
  | .mma r => AR.enc 0x32 0 r
  | .mend r => AR.enc 0x33 0 r
  | .msto r => AR.enc 0x34 0 r
  | .mstat r => AR.enc 0x35 0 r
  | .gangStart _ => 0
  | .ganglimExpiry _ _ _ => 0
  | .setpos r => AR.enc 0x38 0 r
  | .getpos r => AR.enc 0x38 1 r
  | .publ r => AR.enc 0x38 2 r
  | .neigh r => AR.enc 0x39 0 r
  | .nextn r => AR.enc 0x39 1 r
  | .migr r => AR.enc 0x3A 0 r
  | .whereIs r => AR.enc 0x3A 1 r
  | .anchor r => AR.enc 0x3A 2 r
  | .peer r => AR.enc 0x3A 3 r
  | .sysr r => AZ.enc 0x3C r
  | .sysw r => AZ.enc 0x3D r
  | .tlbiVa r => AR.enc 0x3E 0 r
  | .tlbiJob r => AR.enc 0x3E 1 r
  | .tlbiVm r => AR.enc 0x3E 2 r
  | .tlbiGpa r => AR.enc 0x3E 3 r
  | .tlbiAll r => AR.enc 0x3E 4 r
  | .tlbiInvalidate _ => 0
  | .tlbiDone _ _ => 0
  | .svc r => AR.enc 0x3F 0 r
  | .eret r => AR.enc 0x3F 1 r
  | .wake r => AR.enc 0x3F 2 r
  | .add _ => 0
  | .sub _ => 0
  | .mul _ => 0
  | .mulh _ => 0
  | .mulhu _ => 0
  | .div _ => 0
  | .divu _ => 0
  | .rem _ => 0
  | .remu _ => 0
  | .and _ => 0
  | .or _ => 0
  | .xor _ => 0
  | .andn _ => 0
  | .shl _ => 0
  | .shr _ => 0
  | .sar _ => 0
  | .ror _ => 0
  | .min _ => 0
  | .max _ => 0
  | .minu _ => 0
  | .maxu _ => 0
  | .clz _ => 0
  | .ctz _ => 0
  | .popc _ => 0
  | .extr _ => 0
  | .insr _ => 0
  | .addi _ => 0
  | .andi _ => 0
  | .ori _ => 0
  | .xori _ => 0
  | .shli _ => 0
  | .shri _ => 0
  | .sari _ => 0
  | .rori _ => 0
  | .movi _ => 0
  | .movh _ => 0
  | .cmp _ => 0
  | .cmpi _ => 0
  | .pand _ => 0
  | .pandn _ => 0
  | .por _ => 0
  | .pxor _ => 0
  | .pnot _ => 0
  | .rdpw _ => 0
  | .wrpw _ => 0
  | .sel _ => 0
  | .vadd _ => 0
  | .vadds _ => 0
  | .vsub _ => 0
  | .vsubs _ => 0
  | .vmul _ => 0
  | .vmulh _ => 0
  | .vmin _ => 0
  | .vmax _ => 0
  | .vavg _ => 0
  | .vabsd _ => 0
  | .vshl _ => 0
  | .vshr _ => 0
  | .vcmpeq _ => 0
  | .vcmpgt _ => 0
  | .vsplat _ => 0
  | .vpack _ => 0
  | .vunpk _ => 0
  | .fadd _ => 0
  | .fsub _ => 0
  | .fmul _ => 0
  | .fdiv _ => 0
  | .fsqrt _ => 0
  | .fmin _ => 0
  | .fmax _ => 0
  | .fma _ => 0
  | .fneg _ => 0
  | .fabs _ => 0
  | .fcmp _ => 0
  | .fclass _ => 0
  | .fcvt _ => 0
  | .bundleIssue _ _ => 0
  | .rotationBoundary _ => 0
  | .landingResult _ => 0
  | .remoteReply _ => 0
  | .timingReplay _ _ => 0
  | .egressLatchRelease _ => 0
  | .chunkCommit _ _ => 0
  | .domainAcquire _ _ _ => 0
  | .domainApply _ _ _ => 0
  | .pinWaitLimit _ _ => 0
  | .engineElementWrite _ => 0
  | .engineElementRead _ => 0
  | .engineCompletion _ => 0
  | .inboxEntryPlace _ => 0
  | .remoteRequest _ => 0
  | .refusalArrival _ => 0
  | .fullEmptyService _ _ => 0
  | .waitListRetry _ _ => 0
  | .busyReissue _ _ => 0
  | .waitlimExpiry _ _ _ => 0
  | .waitWithdrawal _ => 0
  | .barlimExpiry _ _ _ => 0
  | .segStageWrite _ _ => 0
  | .segCommit _ _ => 0
  | .coretagWrite _ => 0
  | .xrootWrite _ => 0
  | .lmmapWrite _ => 0
  | .pageWalk _ => 0
  | .parkedAnswer _ _ => 0
  | .stashFillReply _ => 0
  | .stashInvalidate _ _ => 0
  | .stashRecall _ _ _ => 0
  | .stashRevoke _ _ => 0
  | .exclusiveGrant _ _ => 0
  | .l2FillRequest _ => 0
  | .l2OwnershipRequest _ => 0
  | .l2DropNotice _ => 0
  | .l2Writeback _ => 0
  | .l2InvalidateAck _ => 0
  | .l2Atomic _ => 0
  | .omegaCombine _ _ => 0
  | .combineSplit _ => 0
  | .tileRequest _ => 0
  | .tileMergeClose _ _ => 0
  | .tilePinRelease _ _ => 0
  | .maskScrub _ => 0
  | .bucketRefill _ => 0
  | .tokenRetry _ => 0
  | .l2partWrite _ _ => 0
  | .l2bwWrite _ _ => 0
  | .l2statClear => 0
  | .s2Translate _ => 0
  | .s2UpgradeCheck _ => 0
  | .s2BlockedRetry _ => 0
  | .mscFill _ => 0
  | .mscWriteback _ => 0
  | .mscNonallocWrite _ => 0
  | .controllerFillReturn _ _ => 0
  | .psnansRepaired _ => 0
  | .psnansLost _ => 0
  | .repairTimeout _ => 0
  | .pgblkBlock _ => 0
  | .pgblkAbandon _ => 0
  | .pageDrainDone _ => 0
  | .pageCopyStart _ => 0
  | .pageCopyDone => 0
  | .checkpointStart => 0
  | .powerFailInput => 0
  | .checkpointFlush => 0
  | .checkpointCopy => 0
  | .checkpointSeal => 0
  | .launchComplete _ => 0
  | .messageArrive _ => 0
  | .skipNoticeArrive _ => 0
  | .messageAck _ => 0
  | .messageRefused _ => 0
  | .messageReoffer _ _ => 0
  | .skipNoticeReoffer _ => 0
  | .sendlimExpiry _ _ _ => 0
  | .placementUpdate _ _ _ => 0
  | .userInterruptDeliver _ _ => 0
  | .mailboxService _ _ => 0
  | .streamReadAhead _ _ => 0
  | .doorbellWrite _ _ => 0
  | .doorbellHeadRead _ => 0
  | .dqptrWrite _ => 0
  | .dispatch => 0
  | .depReread _ => 0
  | .taskRecordRetry _ => 0
  | .remoteLaunchRecord _ _ _ _ _ _ => 0
  | .launchWake _ => 0
  | .launchStart _ => 0
  | .preemptSelect _ => 0
  | .cocoonSaveDone _ => 0
  | .continuationRetry _ => 0
  | .tpostRetry _ _ => 0
  | .sleepExpiry _ _ _ => 0
  | .carryPacketArrive _ => 0
  | .carryAck _ => 0
  | .carryRefused _ => 0
  | .carryReoffer _ => 0
  | .fieldcfgWrite _ => 0
  | .fieldStepNotice _ _ _ => 0
  | .fieldResidentCount _ _ _ => 0
  | .fieldHandover _ => 0
  | .fieldSnapshot _ => 0
  | .fieldHaloCopy _ _ => 0
  | .fieldStepRelease _ => 0
  | .placementLookup _ _ => 0
  | .forwardItem _ _ => 0
  | .flutterSweep _ => 0
  | .weightReport _ => 0
  | .flutterPropose _ => 0
  | .proposalAnswer _ _ => 0
  | .proposalDecide _ => 0
  | .decisionReceive _ => 0
  | .swapFreeze _ _ => 0
  | .swapMove _ _ => 0
  | .swapFlip _ _ => 0
  | .swapResume _ _ => 0
  | .placementInvalidate _ _ => 0
  | .forwardRetire _ _ => 0
  | .bar2Access _ _ _ _ => 0
  | .hostWindowCompletion _ _ _ => 0
  | .bronexAuthFail _ => 0
  | .bronexLinkFail _ => 0
  | .routeWaitTimeout _ => 0
  | .powerGate _ => 0
  | .coreWake _ => 0
  | .thermalRunaway _ => 0
  | .powerInterval => 0
  | .voltageGlitch => 0
  | .clockGlitch => 0
  | .tamperLoopOpen => 0
  | .chrysalisAlarm _ _ => 0
  | .chalcfgWrite _ => 0
  | .challogClear => 0
  | .attestationReport _ => 0
  | .chrysalisBoot _ _ _ => 0
  | .reset => 0
  | .stopByLomter _ _ => 0
  | .slotRestart _ _ _ => 0
  | .thaw _ => 0
  | .jobEnd _ => 0
  | .bronexLinkUp _ _ => 0
  | .rowSensorReading _ _ _ => 0

/-- Word B of an arithmetic instruction; 0 for the rest (R192 to R195). -/
def Instr.encB : Instr → W32
  | .nop _ => 0
  | .halt _ => 0
  | .yield _ => 0
  | .br _ => 0
  | .jmp _ => 0
  | .call _ => 0
  | .jr _ => 0
  | .loop _ => 0
  | .loopi _ => 0
  | .ldB _ => 0
  | .ldH _ => 0
  | .ldW _ => 0
  | .ldD _ => 0
  | .ldsB _ => 0
  | .ldsH _ => 0
  | .ldsW _ => 0
  | .st _ => 0
  | .ldx _ => 0
  | .stx _ => 0
  | .ldsync _ => 0
  | .ldff _ => 0
  | .stsync _ => 0
  | .stfill _ => 0
  | .sete _ => 0
  | .afaa _ => 0
  | .axchg _ => 0
  | .acas _ => 0
  | .amin _ => 0
  | .amax _ => 0
  | .aminu _ => 0
  | .amaxu _ => 0
  | .aand _ => 0
  | .aor _ => 0
  | .afaaN _ => 0
  | .axchgN _ => 0
  | .acasN _ => 0
  | .aminN _ => 0
  | .amaxN _ => 0
  | .aminuN _ => 0
  | .amaxuN _ => 0
  | .aandN _ => 0
  | .aorN _ => 0
  | .spin _ => 0
  | .sflush _ => 0
  | .sinv _ => 0
  | .pref _ => 0
  | .fenceH _ => 0
  | .fenceE _ => 0
  | .fenceP _ => 0
  | .chunk _ => 0
  | .iflush _ => 0
  | .send _ => 0
  | .recv _ => 0
  | .peek _ => 0
  | .chstat _ => 0
  | .waitm _ => 0
  | .waitmI _ => 0
  | .inb _ => 0
  | .msgmask _ => 0
  | .retu _ => 0
  | .spawn _ => 0
  | .tnext _ => 0
  | .tpost _ => 0
  | .retj _ => 0
  | .sleep _ => 0
  | .barw _ => 0
  | .bara _ => 0
  | .barcfg _ => 0
  | .cancelL _ => 0
  | .cancelG _ => 0
  | .cancelJ _ => 0
  | .bcopy _ => 0
  | .strm _ => 0
  | .strmx _ => 0
  | .mbw _ => 0
  | .mbr _ => 0
  | .mcfg _ => 0
  | .mzero _ => 0
  | .mma _ => 0
  | .mend _ => 0
  | .msto _ => 0
  | .mstat _ => 0
  | .gangStart _ => 0
  | .ganglimExpiry _ _ _ => 0
  | .setpos _ => 0
  | .getpos _ => 0
  | .publ _ => 0
  | .neigh _ => 0
  | .nextn _ => 0
  | .migr _ => 0
  | .whereIs _ => 0
  | .anchor _ => 0
  | .peer _ => 0
  | .sysr _ => 0
  | .sysw _ => 0
  | .tlbiVa _ => 0
  | .tlbiJob _ => 0
  | .tlbiVm _ => 0
  | .tlbiGpa _ => 0
  | .tlbiAll _ => 0
  | .tlbiInvalidate _ => 0
  | .tlbiDone _ _ => 0
  | .svc _ => 0
  | .eret _ => 0
  | .wake _ => 0
  | .add r => BR.enc 0x00 r
  | .sub r => BR.enc 0x01 r
  | .mul r => BR.enc 0x02 r
  | .mulh r => BR.enc 0x03 r
  | .mulhu r => BR.enc 0x04 r
  | .div r => BR.enc 0x05 r
  | .divu r => BR.enc 0x06 r
  | .rem r => BR.enc 0x07 r
  | .remu r => BR.enc 0x08 r
  | .and r => BR.enc 0x09 r
  | .or r => BR.enc 0x0A r
  | .xor r => BR.enc 0x0B r
  | .andn r => BR.enc 0x0C r
  | .shl r => BR.enc 0x0D r
  | .shr r => BR.enc 0x0E r
  | .sar r => BR.enc 0x0F r
  | .ror r => BR.enc 0x10 r
  | .min r => BR.enc 0x11 r
  | .max r => BR.enc 0x12 r
  | .minu r => BR.enc 0x13 r
  | .maxu r => BR.enc 0x14 r
  | .clz r => BR.enc 0x15 r
  | .ctz r => BR.enc 0x16 r
  | .popc r => BR.enc 0x17 r
  | .extr r => BR.enc 0x18 r
  | .insr r => BR.enc 0x19 r
  | .addi r => BI.enc 0x20 r
  | .andi r => BI.enc 0x21 r
  | .ori r => BI.enc 0x22 r
  | .xori r => BI.enc 0x23 r
  | .shli r => BI.enc 0x24 r
  | .shri r => BI.enc 0x25 r
  | .sari r => BI.enc 0x26 r
  | .rori r => BI.enc 0x27 r
  | .movi r => BK.enc 0x28 r
  | .movh r => BK.enc 0x29 r
  | .cmp r => BC.enc 0x40 r
  | .cmpi r => BC.enc 0x41 r
  | .pand r => BR.enc 0x44 r
  | .pandn r => BR.enc 0x45 r
  | .por r => BR.enc 0x46 r
  | .pxor r => BR.enc 0x47 r
  | .pnot r => BR.enc 0x48 r
  | .rdpw r => BR.enc 0x49 r
  | .wrpw r => BR.enc 0x4A r
  | .sel r => BR.enc 0x4C r
  | .vadd r => BR.enc 0x60 r
  | .vadds r => BR.enc 0x61 r
  | .vsub r => BR.enc 0x62 r
  | .vsubs r => BR.enc 0x63 r
  | .vmul r => BR.enc 0x64 r
  | .vmulh r => BR.enc 0x65 r
  | .vmin r => BR.enc 0x66 r
  | .vmax r => BR.enc 0x67 r
  | .vavg r => BR.enc 0x68 r
  | .vabsd r => BR.enc 0x69 r
  | .vshl r => BR.enc 0x6A r
  | .vshr r => BR.enc 0x6B r
  | .vcmpeq r => BR.enc 0x6C r
  | .vcmpgt r => BR.enc 0x6D r
  | .vsplat r => BR.enc 0x6E r
  | .vpack r => BR.enc 0x6F r
  | .vunpk r => BR.enc 0x70 r
  | .fadd r => BR.enc 0x80 r
  | .fsub r => BR.enc 0x81 r
  | .fmul r => BR.enc 0x82 r
  | .fdiv r => BR.enc 0x83 r
  | .fsqrt r => BR.enc 0x84 r
  | .fmin r => BR.enc 0x85 r
  | .fmax r => BR.enc 0x86 r
  | .fma r => BR.enc 0x87 r
  | .fneg r => BR.enc 0x88 r
  | .fabs r => BR.enc 0x89 r
  | .fcmp r => BF.enc 0x8A r
  | .fclass r => BR.enc 0x8B r
  | .fcvt r => BV.enc 0x8C r
  | .bundleIssue _ _ => 0
  | .rotationBoundary _ => 0
  | .landingResult _ => 0
  | .remoteReply _ => 0
  | .timingReplay _ _ => 0
  | .egressLatchRelease _ => 0
  | .chunkCommit _ _ => 0
  | .domainAcquire _ _ _ => 0
  | .domainApply _ _ _ => 0
  | .pinWaitLimit _ _ => 0
  | .engineElementWrite _ => 0
  | .engineElementRead _ => 0
  | .engineCompletion _ => 0
  | .inboxEntryPlace _ => 0
  | .remoteRequest _ => 0
  | .refusalArrival _ => 0
  | .fullEmptyService _ _ => 0
  | .waitListRetry _ _ => 0
  | .busyReissue _ _ => 0
  | .waitlimExpiry _ _ _ => 0
  | .waitWithdrawal _ => 0
  | .barlimExpiry _ _ _ => 0
  | .segStageWrite _ _ => 0
  | .segCommit _ _ => 0
  | .coretagWrite _ => 0
  | .xrootWrite _ => 0
  | .lmmapWrite _ => 0
  | .pageWalk _ => 0
  | .parkedAnswer _ _ => 0
  | .stashFillReply _ => 0
  | .stashInvalidate _ _ => 0
  | .stashRecall _ _ _ => 0
  | .stashRevoke _ _ => 0
  | .exclusiveGrant _ _ => 0
  | .l2FillRequest _ => 0
  | .l2OwnershipRequest _ => 0
  | .l2DropNotice _ => 0
  | .l2Writeback _ => 0
  | .l2InvalidateAck _ => 0
  | .l2Atomic _ => 0
  | .omegaCombine _ _ => 0
  | .combineSplit _ => 0
  | .tileRequest _ => 0
  | .tileMergeClose _ _ => 0
  | .tilePinRelease _ _ => 0
  | .maskScrub _ => 0
  | .bucketRefill _ => 0
  | .tokenRetry _ => 0
  | .l2partWrite _ _ => 0
  | .l2bwWrite _ _ => 0
  | .l2statClear => 0
  | .s2Translate _ => 0
  | .s2UpgradeCheck _ => 0
  | .s2BlockedRetry _ => 0
  | .mscFill _ => 0
  | .mscWriteback _ => 0
  | .mscNonallocWrite _ => 0
  | .controllerFillReturn _ _ => 0
  | .psnansRepaired _ => 0
  | .psnansLost _ => 0
  | .repairTimeout _ => 0
  | .pgblkBlock _ => 0
  | .pgblkAbandon _ => 0
  | .pageDrainDone _ => 0
  | .pageCopyStart _ => 0
  | .pageCopyDone => 0
  | .checkpointStart => 0
  | .powerFailInput => 0
  | .checkpointFlush => 0
  | .checkpointCopy => 0
  | .checkpointSeal => 0
  | .launchComplete _ => 0
  | .messageArrive _ => 0
  | .skipNoticeArrive _ => 0
  | .messageAck _ => 0
  | .messageRefused _ => 0
  | .messageReoffer _ _ => 0
  | .skipNoticeReoffer _ => 0
  | .sendlimExpiry _ _ _ => 0
  | .placementUpdate _ _ _ => 0
  | .userInterruptDeliver _ _ => 0
  | .mailboxService _ _ => 0
  | .streamReadAhead _ _ => 0
  | .doorbellWrite _ _ => 0
  | .doorbellHeadRead _ => 0
  | .dqptrWrite _ => 0
  | .dispatch => 0
  | .depReread _ => 0
  | .taskRecordRetry _ => 0
  | .remoteLaunchRecord _ _ _ _ _ _ => 0
  | .launchWake _ => 0
  | .launchStart _ => 0
  | .preemptSelect _ => 0
  | .cocoonSaveDone _ => 0
  | .continuationRetry _ => 0
  | .tpostRetry _ _ => 0
  | .sleepExpiry _ _ _ => 0
  | .carryPacketArrive _ => 0
  | .carryAck _ => 0
  | .carryRefused _ => 0
  | .carryReoffer _ => 0
  | .fieldcfgWrite _ => 0
  | .fieldStepNotice _ _ _ => 0
  | .fieldResidentCount _ _ _ => 0
  | .fieldHandover _ => 0
  | .fieldSnapshot _ => 0
  | .fieldHaloCopy _ _ => 0
  | .fieldStepRelease _ => 0
  | .placementLookup _ _ => 0
  | .forwardItem _ _ => 0
  | .flutterSweep _ => 0
  | .weightReport _ => 0
  | .flutterPropose _ => 0
  | .proposalAnswer _ _ => 0
  | .proposalDecide _ => 0
  | .decisionReceive _ => 0
  | .swapFreeze _ _ => 0
  | .swapMove _ _ => 0
  | .swapFlip _ _ => 0
  | .swapResume _ _ => 0
  | .placementInvalidate _ _ => 0
  | .forwardRetire _ _ => 0
  | .bar2Access _ _ _ _ => 0
  | .hostWindowCompletion _ _ _ => 0
  | .bronexAuthFail _ => 0
  | .bronexLinkFail _ => 0
  | .routeWaitTimeout _ => 0
  | .powerGate _ => 0
  | .coreWake _ => 0
  | .thermalRunaway _ => 0
  | .powerInterval => 0
  | .voltageGlitch => 0
  | .clockGlitch => 0
  | .tamperLoopOpen => 0
  | .chrysalisAlarm _ _ => 0
  | .chalcfgWrite _ => 0
  | .challogClear => 0
  | .attestationReport _ => 0
  | .chrysalisBoot _ _ _ => 0
  | .reset => 0
  | .stopByLomter _ _ => 0
  | .slotRestart _ _ _ => 0
  | .thaw _ => 0
  | .jobEnd _ => 0
  | .bronexLinkUp _ _ => 0
  | .rowSensorReading _ _ _ => 0

/-- Word A with L and X (R176, R177). -/
def wordA (l x : Bool) (i : Instr) : W32 := b1 l ++ b1 x ++ i.encA

/-- The bundle of one instruction alone (R200): a word A instruction with its extension or lone, a word B
instruction under NOP. Word A comes first. -/
def encode (i : Instr) : W32 × W32 :=
  if i.isWordB then (0, i.encB)
  else match i.ext with
    | some e => (wordA false true i, e)
    | none => (wordA true false i, 0)

/-- The bundle that `encode i` stands for. -/
def Instr.bundle (i : Instr) : Bundle :=
  if i.isWordB then { a := .nop { d := 0, a := 0, b := 0, g := 0, sa := false, sb := false, x := none }, b := some i }
  else { a := i, b := none }

/-! ## The table's words -/

/-- The instruction the decoder reads from an opcode-table word (log 4). The word is word A with word B zero; where
that names no instruction it is word B under NOP. -/
def decodeTableWord (_nbits w : Nat) : Option Instr :=
  match decodeWords (BitVec.ofNat 32 w) (BitVec.ofNat 32 (w / 2 ^ 32)) with
  | some u => some u.a
  | none => (decodeWords 0 (BitVec.ofNat 32 w)).bind fun u => u.b

/-- The dword that holds an opcode-table word, with the same choice (log 4). -/
def tableDword (w : Nat) : W64 :=
  match decodeWords (BitVec.ofNat 32 w) (BitVec.ofNat 32 (w / 2 ^ 32)) with
  | some _ => BitVec.ofNat 64 w
  | none => (BitVec.ofNat 32 w : W32) ++ 0#32

end Sys2Proof
end

