-- ==== Sys2Proof/Config.lean ====
section
/-!
DEFINITION. What the S9 fixes as constants, and the values the spec leaves open. An `opaque` constant has no body:
nothing can be proved of its values, so a statement that mentions one holds for every value (log 9, 14, 15, 16).
-/

namespace Sys2Proof.Config

/-- Base of the core window (R8). -/
def wbase : Nat := 0xFFFF8000000000

/-- Bytes of one local memory (R1, R9). -/
def localSize : Nat := 0x100000

/-- Cores of the module, without Imago (R1). -/
def cores : Nat := 8192

/-- The key of Imago among the cores: one further core (R327, log 11). -/
def imago : Nat := 8192

/-- The LPN under which Imago's process is kept; no 19-bit LPN equals it (log 11). -/
def imagoLpn : Nat := 0x80000

/-- Base of the doorbell pages (R457). -/
def doorbellBase : Nat := 0xF00000000000

/-- Base of the host window (R457). -/
def hostWindowBase : Nat := 0xF80000000000

/-- Base of the checkpoint region (R113). -/
def ckptBase : Nat := 0x040000000000

/-- Address of the checkpoint header (R112). -/
def ckptHeader : Nat := 0x010000000000

/-- Bytes of HBM4E (R112). -/
def hbmSize : Nat := 0x010000000000

/-- FREE VALUE: which of the bundles read ahead, or the one in memory, a slot issues when they differ (R79; log 14). -/
opaque fetchAhead : Nat → Nat

/-- FREE VALUE: the way a pseudo-LRU state chooses among candidate ways (R70, R115; log 9). -/
opaque lruVictim : Nat → Nat → Nat

/-- FREE VALUE: the pseudo-LRU state after a way is touched (R71, R93; log 9). -/
opaque lruTouch : Nat → Nat → Nat

/-- FREE VALUE: a dword of the host's memory as the dispenser or the loader reads it through the host window (R463;
log 19). -/
opaque hostDword : Nat → BitVec 64

/-- FREE VALUE: the signature of an attestation report, whose width is the model's (R477; log 15). -/
opaque signature : Nat → BitVec 256

/-- FREE VALUE: the bytes the spill engine leaves in the spill area (R262; log 16). -/
opaque spillByte : Nat → BitVec 8

/-- FREE VALUE: a dword the spec gives an effect but no value (log 19). -/
opaque freeDword : Nat → BitVec 64

/-- The 16 bytes of a wait-list entry, of which the spec gives no layout: from the waiter's LPN and slot, the word's offset or the
record's index, and its value (R59; log 54). -/
opaque waitEntry : Nat → Nat → Nat → BitVec 64 → BitVec 128

end Sys2Proof.Config
end

