-- ==== Sys2Proof/Machine/Event.lean ====
section
/-!
DEFINITION. The event rows of the opcode table as data that the state can hold: what waits on the agenda or behind a
timer (log 2). Each constructor bears the name and the operands of the constructor of `Instr` whose row it is.
-/

namespace Sys2Proof.Machine

/-- An event that is due. -/
inductive Ev where
  /-- R357. -/
  | gangStart (row : Nat)
  /-- R357. -/
  | ganglimExpiry (lpn : Nat) (slot : Nat) (id : Nat)
  /-- R56. -/
  | tlbiInvalidate (core : Nat)
  /-- R57. -/
  | tlbiDone (lpn : Nat) (slot : Nat)
  /-- R160. -/
  | bundleIssue (core : Nat) (slot : Nat)
  /-- R159. -/
  | rotationBoundary (core : Nat)
  /-- R165. -/
  | landingResult (id : Nat)
  /-- R226. -/
  | remoteReply (id : Nat)
  /-- R333. -/
  | timingReplay (lpn : Nat) (slot : Nat)
  /-- R333. -/
  | egressLatchRelease (core : Nat)
  /-- R141. -/
  | chunkCommit (lpn : Nat) (slot : Nat)
  /-- R140. -/
  | domainAcquire (dom : Nat) (lpn : Nat) (slot : Nat)
  /-- R141. -/
  | domainApply (dom : Nat) (lpn : Nat) (slot : Nat)
  /-- R153. -/
  | pinWaitLimit (lpn : Nat) (slot : Nat)
  /-- R150. -/
  | engineElementWrite (id : Nat)
  /-- R150. -/
  | engineElementRead (id : Nat)
  /-- R151. -/
  | engineCompletion (id : Nat)
  /-- R257. -/
  | inboxEntryPlace (lpn : Nat)
  /-- R78. -/
  | remoteRequest (id : Nat)
  /-- R32. -/
  | refusalArrival (id : Nat)
  /-- R67. -/
  | fullEmptyService (lpn : Nat) (off : Nat)
  /-- R68. -/
  | waitListRetry (lpn : Nat) (slot : Nat)
  /-- R68. -/
  | busyReissue (lpn : Nat) (slot : Nat)
  /-- R228. -/
  | waitlimExpiry (lpn : Nat) (slot : Nat) (id : Nat)
  /-- R228. -/
  | waitWithdrawal (id : Nat)
  /-- R244. -/
  | barlimExpiry (lpn : Nat) (slot : Nat) (id : Nat)
  /-- R22. -/
  | segStageWrite (n : BitVec 3) (v : BitVec 64)
  /-- R23. -/
  | segCommit (n : BitVec 3) (v : BitVec 64)
  /-- R30. -/
  | coretagWrite (v : BitVec 64)
  /-- R34. -/
  | xrootWrite (v : BitVec 64)
  /-- R62. -/
  | lmmapWrite (v : BitVec 64)
  /-- R38. -/
  | pageWalk (row : Nat)
  /-- R326. -/
  | parkedAnswer (seq : BitVec 32) (inv : Bool)
  /-- R73. -/
  | stashFillReply (id : Nat)
  /-- R73. -/
  | stashInvalidate (core : Nat) (sec : Nat)
  /-- R73. -/
  | stashRecall (core : Nat) (sec : Nat) (inv : Bool)
  /-- R73. -/
  | stashRevoke (core : Nat) (sec : Nat)
  /-- R98. -/
  | exclusiveGrant (core : Nat) (sec : Nat)
  /-- R95. -/
  | l2FillRequest (id : Nat)
  /-- R95. -/
  | l2OwnershipRequest (id : Nat)
  /-- R95. -/
  | l2DropNotice (id : Nat)
  /-- R95. -/
  | l2Writeback (id : Nat)
  /-- R95. -/
  | l2InvalidateAck (id : Nat)
  /-- R97. -/
  | l2Atomic (id : Nat)
  /-- R91. -/
  | omegaCombine (first : Nat) (second : Nat)
  /-- R91. -/
  | combineSplit (id : Nat)
  /-- R99. -/
  | tileRequest (id : Nat)
  /-- R100. -/
  | tileMergeClose (slice : Nat) (line : Nat)
  /-- R99. -/
  | tilePinRelease (core : Nat) (line : Nat)
  /-- R102. -/
  | maskScrub (slice : Nat)
  /-- R104. -/
  | bucketRefill (slice : Nat)
  /-- R105. -/
  | tokenRetry (slice : Nat)
  /-- R102. -/
  | l2partWrite (vmid : BitVec 8) (v : BitVec 64)
  /-- R110. -/
  | l2bwWrite (vmid : BitVec 8) (v : BitVec 64)
  /-- R110. -/
  | l2statClear
  /-- R47. -/
  | s2Translate (id : Nat)
  /-- R47. -/
  | s2UpgradeCheck (id : Nat)
  /-- R121. -/
  | s2BlockedRetry (id : Nat)
  /-- R115. -/
  | mscFill (id : Nat)
  /-- R115. -/
  | mscWriteback (id : Nat)
  /-- R115. -/
  | mscNonallocWrite (id : Nat)
  /-- R115. -/
  | controllerFillReturn (id : Nat) (lost : Bool)
  /-- R126. -/
  | psnansRepaired (seq : BitVec 32)
  /-- R126. -/
  | psnansLost (seq : BitVec 32)
  /-- R124. -/
  | repairTimeout (seq : BitVec 32)
  /-- R120. -/
  | pgblkBlock (v : BitVec 64)
  /-- R122. -/
  | pgblkAbandon (v : BitVec 64)
  /-- R120. -/
  | pageDrainDone (block : BitVec 3)
  /-- R119. -/
  | pageCopyStart (v : BitVec 64)
  /-- R119. -/
  | pageCopyDone
  /-- R129. -/
  | checkpointStart
  /-- R128. -/
  | powerFailInput
  /-- R129. -/
  | checkpointFlush
  /-- R129. -/
  | checkpointCopy
  /-- R130. -/
  | checkpointSeal
  /-- R171. -/
  | launchComplete (id : Nat)
  /-- R258. -/
  | messageArrive (id : Nat)
  /-- R258. -/
  | skipNoticeArrive (id : Nat)
  /-- R249. -/
  | messageAck (id : Nat)
  /-- R260. -/
  | messageRefused (id : Nat)
  /-- R260. -/
  | messageReoffer (lpn : Nat) (slot : Nat)
  /-- R258. -/
  | skipNoticeReoffer (id : Nat)
  /-- R261. -/
  | sendlimExpiry (lpn : Nat) (slot : Nat) (id : Nat)
  /-- R434. -/
  | placementUpdate (core : Nat) (lpn : Nat) (host : Nat)
  /-- R272. -/
  | userInterruptDeliver (lpn : Nat) (slot : Nat)
  /-- R300. -/
  | mailboxService (lpn : Nat) (n : BitVec 2)
  /-- R313. -/
  | streamReadAhead (core : Nat) (n : BitVec 2)
  /-- R377. -/
  | doorbellWrite (queue : BitVec 16) (v : BitVec 32)
  /-- R377. -/
  | doorbellHeadRead (queue : BitVec 16)
  /-- R377. -/
  | dqptrWrite (v : BitVec 64)
  /-- R378. -/
  | dispatch
  /-- R379. -/
  | depReread (queue : Nat)
  /-- R380. -/
  | taskRecordRetry (queue : Nat)
  /-- R466. -/
  | remoteLaunchRecord (rec : List (BitVec 64)) (job : BitVec 16) (vmid : BitVec 8) (root : BitVec 64) (lid : BitVec 16) (pg : Bool)
  /-- R373. -/
  | launchWake (id : Nat)
  /-- R379. -/
  | launchStart (core : Nat)
  /-- R394. -/
  | preemptSelect (core : Nat)
  /-- R395. -/
  | cocoonSaveDone (core : Nat)
  /-- R390. -/
  | continuationRetry (lpn : Nat)
  /-- R388. -/
  | tpostRetry (lpn : Nat) (slot : Nat)
  /-- R392. -/
  | sleepExpiry (lpn : Nat) (slot : Nat) (id : Nat)
  /-- R416. -/
  | carryPacketArrive (id : Nat)
  /-- R416. -/
  | carryAck (id : Nat)
  /-- R416. -/
  | carryRefused (id : Nat)
  /-- R416. -/
  | carryReoffer (id : Nat)
  /-- R420. -/
  | fieldcfgWrite (v : BitVec 64)
  /-- R429. -/
  | fieldStepNotice (core : Nat) (owner : Nat) (gen : BitVec 16)
  /-- R429. -/
  | fieldResidentCount (core : Nat) (src : Nat) (n : Nat)
  /-- R430. -/
  | fieldHandover (core : Nat)
  /-- R429. -/
  | fieldSnapshot (core : Nat)
  /-- R429. -/
  | fieldHaloCopy (core : Nat) (src : Nat)
  /-- R429. -/
  | fieldStepRelease (owner : Nat)
  /-- R433. -/
  | placementLookup (core : Nat) (lpn : Nat)
  /-- R434. -/
  | forwardItem (id : Nat) (core : Nat)
  /-- R436. -/
  | flutterSweep (core : Nat)
  /-- R436. -/
  | weightReport (id : Nat)
  /-- R439. -/
  | flutterPropose (core : Nat)
  /-- R440. -/
  | proposalAnswer (core : Nat) (src : Nat)
  /-- R441. -/
  | proposalDecide (core : Nat)
  /-- R440. -/
  | decisionReceive (core : Nat)
  /-- R448. -/
  | swapFreeze (x : Nat) (y : Nat)
  /-- R448. -/
  | swapMove (x : Nat) (y : Nat)
  /-- R448. -/
  | swapFlip (x : Nat) (y : Nat)
  /-- R448. -/
  | swapResume (x : Nat) (y : Nat)
  /-- R449. -/
  | placementInvalidate (core : Nat) (lpn : Nat)
  /-- R449. -/
  | forwardRetire (core : Nat) (lpn : Nat)
  /-- R461. -/
  | bar2Access (vf : Nat) (addr : BitVec 40) (wr : Bool) (v : BitVec 64)
  /-- R463. -/
  | hostWindowCompletion (id : Nat) (ok : Bool) (v : BitVec 64)
  /-- R467. -/
  | bronexAuthFail (link : Nat)
  /-- R467. -/
  | bronexLinkFail (link : Nat)
  /-- R467. -/
  | routeWaitTimeout (id : Nat)
  /-- R469. -/
  | powerGate (core : Nat)
  /-- R470. -/
  | coreWake (core : Nat)
  /-- R473. -/
  | thermalRunaway (row : Nat)
  /-- R475. -/
  | powerInterval
  /-- R478. -/
  | voltageGlitch
  /-- R478. -/
  | clockGlitch
  /-- R478. -/
  | tamperLoopOpen
  /-- R335. -/
  | chrysalisAlarm (src : Nat) (tenants : List Nat)
  /-- R478. -/
  | chalcfgWrite (v : BitVec 64)
  /-- R478. -/
  | challogClear
  /-- R477. -/
  | attestationReport (nonce : BitVec 256)
  /-- R476. -/
  | chrysalisBoot (sigOk : Bool) (version : BitVec 64) (hash : BitVec 256)
  /-- R479. -/
  | reset
  /-- R159. -/
  | stopByLomter (lpn : Nat) (slot : Nat)
  /-- R159. -/
  | slotRestart (lpn : Nat) (slot : Nat) (release : Bool)
  /-- R335. -/
  | thaw (core : Nat)
  /-- R173. -/
  | jobEnd (job : BitVec 16)
  /-- R464. -/
  | bronexLinkUp (link : Nat) (domain : BitVec 8)
  /-- R473. -/
  | rowSensorReading (row : Nat) (temp : BitVec 12) (pwr : BitVec 12)
  deriving DecidableEq, Repr

end Sys2Proof.Machine
end

