-- ==== Sys2Proof/Machine/Map.lean ====
section
/-!
DEFINITION. Sparse maps from Nat as plain data: a list of (key, value) pairs kept in rising key order, read with a
default. The laws hold of every list, so no invariant is needed to use them.
-/

namespace Sys2Proof.Machine

/-- A sparse map: keys in rising order. -/
abbrev Sp (α : Type) := List (Nat × α)

/-- The value at a key, or the default. -/
def spGet {α : Type} (d : α) : Sp α → Nat → α
  | [], _ => d
  | (a, v) :: t, k => if a = k then v else spGet d t k

/-- Is the key listed? -/
def spHas {α : Type} : Sp α → Nat → Bool
  | [], _ => false
  | (a, _) :: t, k => a == k || spHas t k

/-- Writes one key, keeping the order. -/
def spPut {α : Type} : Sp α → Nat → α → Sp α
  | [], k, v => [(k, v)]
  | (a, w) :: t, k, v =>
    if k < a then (k, v) :: (a, w) :: t
    else if a = k then (k, v) :: t
    else (a, w) :: spPut t k v

/-- Removes a key. -/
def spDel {α : Type} (m : Sp α) (k : Nat) : Sp α := m.filter fun p => p.1 != k

/-- Changes the value at a key. -/
def spMod {α : Type} (d : α) (m : Sp α) (k : Nat) (f : α → α) : Sp α := spPut m k (f (spGet d m k))

/-- Changes every listed value. -/
def spMap {α : Type} (m : Sp α) (f : Nat → α → α) : Sp α := m.map fun p => (p.1, f p.1 p.2)

end Sys2Proof.Machine
end

