-- ==== Sys2Proof/Machine/State.lean ====
section
/-!
DEFINITION. The state of one S9 module as plain data, every piece the spec names (INVENTORY.md lists them with their
rules), the reasons a step can stop, and the state after reset. Addresses and identities are Nat; what software
reads as a word is a bit vector.
-/

namespace Sys2Proof.Machine

/-- Why the machine stops. -/
inductive Fault where
  /-- Raised by `step` alone, when a level-3 alarm has stopped the module (R335): it answers no request until reset.
  Safe: no claim about a next state is made of a stopped module. -/
  | moduleStopped
  deriving DecidableEq, Repr

/-- Why a step has no meaning. -/
inductive Refusal where
  /-- An instruction that has no meaning in this model, by its mnemonic. Safe: nothing is claimed of it. -/
  | notModelled (mnemonic : String)
  deriving DecidableEq, Repr

/-! ## Names of threads, lines and accesses -/

/-- A thread: the LPN of its process and its slot (R13, R159). -/
structure Who where
  lpn : Nat
  slot : Nat
  deriving DecidableEq, Repr

/-- A line of the consistency model (R133). -/
inductive Line where
  /-- A line of the paged region: VMID and guest-physical line number. -/
  | paged (vmid line : Nat)
  /-- A 256-byte block of a process's local memory. -/
  | loc (lpn block : Nat)
  deriving DecidableEq, Repr

/-- The full/empty operations (R66). -/
inductive SyncOp where
  | ldsync | ldff | stsync | stfill | sete
  deriving DecidableEq, Repr

/-- The barrier operations (R239). -/
inductive BarOp where
  | cfg | wait | arrive
  deriving DecidableEq, Repr

/-- The state of a sector in a cache (R72). -/
inductive SecSt where
  | absent | clean | dirty | poisoned
  deriving DecidableEq, Repr

/-- The state of a stash line (R73); an absent entry is I. -/
inductive LineSt where
  | i | s | o | x
  deriving DecidableEq, Repr

/-- Where a landing result goes (R165, R214, R272). -/
inductive Dst where
  /-- A general register. -/
  | g (r : Reg)
  /-- A register of the handler bank. -/
  | h (n : BitVec 3)
  /-- A push register: s0 to s3, or g30 under the pipeline view (4). -/
  | push (n : Nat)
  deriving DecidableEq, Repr

/-- What has become of a long-latency result (R165, R32, R228). -/
inductive Landed where
  | pending
  | value (v : W64)
  /-- The instruction takes this trap when the result would land: code, segment, reason, TADDR. -/
  | trap (code seg reason : Nat) (addr : W64)
  deriving DecidableEq, Repr

/-- An entry of the landing buffer (R164). `closeAt` is the number of the bundle before which the window closes. -/
structure Landing where
  id : Nat
  dst : Dst
  closeAt : Nat
  res : Landed
  pc : BitVec 20
  /-- Number of the instruction's bundle. -/
  bno : Nat
  addr : W64
  /-- Segment register the access names, for a refusal (R32). -/
  seg : Nat
  /-- LDSYNC and LDFF, whose wait WAITLIM bounds (R228). -/
  sync : Bool
  deriving DecidableEq, Repr

/-- The registers a register checkpoint holds (R137). -/
structure Arch where
  regs : Vector W64 32
  /-- Full bits of g0 to g31 (R166). -/
  full : BitVec 32
  pw : BitVec 8
  pc : BitVec 20
  /-- The PC has run past the bundle at 0xF_FFF8 (R20). -/
  past : Bool
  fcsr : W64
  lc0 : W64
  ls0 : W64
  lc1 : W64
  ls1 : W64
  landing : List Landing
  /-- Number of the next bundle the thread issues; windows are counted with it (R164). -/
  bno : Nat
  deriving DecidableEq, Repr

/-! ## Chunks (R132 to R145) -/

/-- Bytes held in the chunk buffer (R136): where they go, their size and value, and the bundle that stored them. -/
structure Store where
  paged : Bool
  /-- VMID of a paged store, LPN of a window store. -/
  space : Nat
  /-- Guest-physical address, or offset in the local memory. -/
  addr : Nat
  size : Nat
  val : W64
  pc : BitVec 20
  la : W64
  priv : Nat
  /-- Number of the bundle that stored them. -/
  bno : Nat
  deriving DecidableEq, Repr

/-- A value held for a push register until the chunk commits (R137): s0 to s3, or 4 for g30. -/
structure Push where
  view : Nat
  val : W64
  pc : BitVec 20
  /-- Proc.time at the issue of the bundle that pushed it (R259). -/
  since : Nat
  deriving DecidableEq, Repr

/-- The first access of a chunk to a line: its bundle's number and its linear address (R141). -/
structure Touch where
  line : Line
  bno : Nat
  la : W64
  seg : Nat
  deriving DecidableEq, Repr

/-- A chunk (R132): its checkpoint, sets and buffer. -/
structure Chunk where
  start : Arch
  count : Nat
  reads : List Line
  writes : List Line
  touch : List Touch
  stores : List Store
  pushes : List Push
  /-- Elements popped tentatively from s0 to s3 (0 to 3) and messages from g31 (4). -/
  pops : List Nat
  /-- The chunk has reached a limit and waits to commit (R134, R138). -/
  ended : Bool
  /-- Results of items numbered below this are waited for before it commits (R141, R227). -/
  endId : Nat
  /-- It ends after the bundle that is performed: a boundary operation or a single access (R135, R145). -/
  last : Bool
  deriving DecidableEq, Repr

/-- Where the commit of an ended chunk stands (R141). -/
inductive CommitSt where
  /-- Waiting for its loads and predecessors. -/
  | waiting
  /-- Acquiring; the domains still to acquire, ascending. -/
  | acquiring (left : List Nat)
  /-- Every domain is held; the domains still to apply. -/
  | applying (left : List Nat)
  deriving DecidableEq, Repr

/-- Why a chunk must end before a bundle, and what that bundle then does. -/
inductive Cut where
  /-- Its access was refused at an Acquire: it takes SEGV reason 5 with this address and segment (R141). -/
  | refused (addr : W64) (seg : Nat)
  /-- Its load found a full watch table: it reissues as a single-access chunk (R145). -/
  | single
  /-- Its ownership request met a second-stage fault that was answered invalid: it takes XLATE with this reason (R52). -/
  | invalid (reason : Nat) (addr : W64)
  /-- Its load met a fault, a set limit or a device after it had issued: it reissues and waits in place (R134, R326). -/
  | precise
  deriving DecidableEq, Repr

/-- A load whose access is performed after its bundle: its landing entry, its size and its extension (R164, R224). -/
structure LoadInfo where
  id : Nat
  size : Nat
  sx : Bool
  deriving DecidableEq, Repr

/-- What word A's HALT or RETJ leaves for the end of its bundle (R178, R198, R390). -/
inductive Ending where
  | halt
  /-- The join word's old value and the continuation's dwords. -/
  | retired (old : W64) (c : List W64)
  deriving DecidableEq, Repr

/-- The committing chunk of a slot. -/
structure Committing where
  chunk : Chunk
  st : CommitSt
  /-- Ownership requests outstanding for its lines (R154). -/
  owns : List Nat
  /-- Network cycle at which it began to wait on a pin (R153). -/
  pinWait : Option Nat
  /-- Its first Apply has been performed. -/
  begun : Bool
  deriving DecidableEq, Repr

/-- A commit that a domain holds or queues (R140). -/
structure Held where
  who : Who
  reads : List Line
  writes : List Line
  solo : Bool
  deriving DecidableEq, Repr

/-- A domain's arbiter. -/
structure Dom where
  held : List Held
  queue : List Held
  deriving DecidableEq, Repr

/-! ## Slots -/

/-- Slot states (R159). -/
inductive SlotSt where
  | absent | starting | ready | waiting | parked | saving | halted
  deriving DecidableEq, Repr

/-- What a waiting thread waits for. The first group reissues its bundle when woken; the second completes in place. -/
inductive WaitKind where
  | landing | fill | recv (k : Nat) | waitm (k : Nat) | inbox | pop (n : Nat) | push (n : Nat) | send | refused
  | fence | commit | sleep | slice | copies | tpost | retj | swap | lookup | carry | stream
  | word | barrier | spawn | mailbox (n : Nat) | gang | tlbi | reply | device
  deriving DecidableEq, Repr

/-- The wait of a thread: its identity, what it waits for, and the limit that ends it. -/
structure Wait where
  kind : WaitKind
  id : Nat
  /-- Proc.time at the instruction's first issue (R68). -/
  since : Nat
  limit : Nat
  /-- TADDR of the trap at expiry. -/
  addr : W64
  deriving DecidableEq, Repr

/-- A bundle whose word A waits: its dword and the operands it read (R178). -/
structure Latch where
  pc : BitVec 20
  bundle : W64
  opnd : Vector W64 32
  pw : BitVec 8
  rm : BitVec 3
  /-- Destination that the completion of word A writes. -/
  d : Reg
  /-- Segment register the access names, for a refusal (R32). -/
  seg : Nat
  /-- View registers that the bundle pops (R214). -/
  pops : List Nat
  deriving DecidableEq, Repr

/-- A trap that is due at the slot's next issue (R32, R261, R323). -/
structure Due where
  code : Nat
  seg : Nat
  reason : Nat
  addr : W64
  pc : BitVec 20
  prog : W64
  p : Bool
  deferred : Bool
  /-- It came from a reply for what a chunk before the running one did: no squash undoes it. -/
  keep : Bool
  deriving DecidableEq, Repr

/-- A message of the mesh (R247, R248). A skip notice carries no payload (R261). -/
structure Msg where
  src : Nat
  dst : Nat
  ch : Nat
  seq : Nat
  pay : List W64
  tag : BitVec 24
  who : Who
  pc : BitVec 20
  skip : Bool
  deriving DecidableEq, Repr

/-- A refused message that a slot holds (R260). -/
structure HeldMsg where
  msg : Msg
  since : Nat
  /-- Identity that its SENDLIM names. -/
  id : Nat
  deriving DecidableEq, Repr

/-- An entry of a field snapshot (R429). -/
structure FieldEnt where
  handle : Nat
  pos : BitVec 60
  payload : W64
  deriving DecidableEq, Repr

/-- The query of NEIGH (R427). -/
structure Query where
  pos : BitVec 60
  r2 : W64
  self : Nat
  ents : List FieldEnt
  /-- Handles from this one on are still to be returned. -/
  cursor : Nat
  deriving DecidableEq, Repr

/-- Data read at a line's home for a bundle that will reissue (R136, R103): the sector and what the access may do. -/
structure Grant where
  /-- Linear sector address. -/
  la : Nat
  vmid : Nat
  gpa : Nat
  store : Bool
  data : BitVec 1024
  poisoned : Bool
  mt : Nat
  deriving DecidableEq, Repr

/-- The slot-range registers that no checkpoint holds (R219, R229, R260, R268, R270, R288, R310, R320, R356, R374,
R394). -/
structure SlotRegs where
  slotctl : W64
  launch : W64
  fmt : W64
  scp : W64
  trapvec : W64
  tcause : W64
  taddr : W64
  tpc : W64
  tprog : W64
  tscr0 : W64
  tscr1 : W64
  waitlim : W64
  barlim : W64
  sendlim : W64
  masklim : W64
  uivec : W64
  uistat : W64
  pipecfg : W64
  strview : W64
  ganglim : W64
  quantum : W64
  spinres : W64
  deriving DecidableEq, Repr

/-- One slot with its thread (R159). -/
structure Slot where
  st : SlotSt
  arch : Arch
  regs : SlotRegs
  /-- sg1 to sg7; index 0 is not used, sg0 is computed (R16). -/
  sg : Vector (BitVec 128) 8
  stage : Option (Nat × W64)
  hbank : Vector W64 8
  join : W64
  pri : BitVec 2
  pos : BitVec 60
  payload : W64
  bound : Bool
  /-- SNAPH, the handle of the thread's entry in the last snapshot (R429). -/
  snaph : BitVec 32
  /-- Released from a step: the next bundle waits until the thread is at the owner of its bin (R429). -/
  rebin : Bool
  query : Option Query
  chunk : Option Chunk
  commit : Option Committing
  squashes : Nat
  /-- Solo mode: the domains the attempt holds or acquires (R143). -/
  solo : Option (List Nat)
  /-- The next load at its home is a single-access chunk (R145). -/
  single : Bool
  /-- Lines of the last squashed attempt (R143). -/
  lastSets : List Line
  grants : List Grant
  wait : Option Wait
  latch : Option Latch
  /-- Refused messages held for the slot, in the order of their refusals (R260). -/
  heldMsgs : List HeldMsg
  /-- Traps due at the next issue, in order. -/
  due : List Due
  /-- Traps that arose while another was entered: taken after ERET (R323). -/
  later : List Due
  /-- The sequence number of the parked record (R326). -/
  park : Option (BitVec 32)
  resume : Bool
  replays : Nat
  lastIssue : Option Nat
  /-- Proc.time at the first issue of the bundle at the PC, until it is done: limits count from it (R68, R228, R260). -/
  issued : Option Nat
  /-- Occurrences of the home position until the slot issues again after a YIELD (R199); 0 when it may. -/
  yields : Nat
  /-- What was read ahead: offset, dword, and the number of the bundle after whose issue it was read (R79). -/
  fetch : List (BitVec 20 × W64 × Nat)
  /-- Non-returning atomics not yet acknowledged: identity, PC, linear address, segment (R141, R156). -/
  atomics : List (Nat × BitVec 20 × W64 × Nat)
  /-- Messages not yet placed, for FENCE.P: source, destination, channel and sequence number (R156). -/
  sends : List (Nat × Nat × Nat × Nat)
  /-- Pushes to g30 of a committed chunk that could not be sent yet (R269). -/
  pushq : List Push
  /-- A bundle before which the chunk must end (R134, R141, R145). -/
  cut : Option (Nat × Cut)
  /-- The next load waits in place for its translation and its fill: its first issue met a fault or a limit. -/
  precise : Bool
  /-- The thread ends when the bundle of its HALT or RETJ is done and its pushes are sent (R178, R198, R390). -/
  ending : Option Ending
  /-- Reserved after a save (R395). -/
  reserved : Bool
  /-- Remaining count of a saved SLEEP (R396). -/
  sleepLeft : Option Nat
  /-- A cancel removes the thread at its next position (R174). -/
  doomed : Bool
  /-- The bundle at the PC holds the access for which the thread has migrated: it is performed first, in a chunk of its own (R28). -/
  arrived : Bool
  /-- The descriptor that a waiting BCOPY or STRM has read (R306). -/
  sdesc : Option (Vector W64 8)
  /-- For a waiting FENCE.E: outbound streams by their operation, and the element up to which each must be written (R313). -/
  fence : List (Nat × Nat)
  deriving DecidableEq, Repr

/-! ## Processes -/

/-- A task record: eight dwords (R383). -/
abbrev TaskRec := Vector W64 8

/-- An entry of the wait list (R67, R240): a waiter of a word or of a barrier record. -/
structure Waiter where
  id : Nat
  who : Who
  /-- Word waiters: the operation; barrier waiters: none. -/
  op : Option SyncOp
  /-- Byte offset of the word, or index of the barrier record. -/
  key : Nat
  val : W64
  /-- The waiter came as a request from another process. -/
  remote : Bool
  /-- Privilege of the operation (R63). -/
  priv : Nat
  deriving DecidableEq, Repr

/-- A barrier record (R240). -/
structure Bar where
  count : BitVec 16
  arr : BitVec 16
  gen : BitVec 16
  deriving DecidableEq, Repr

/-- A record of the ready queue (R384). -/
structure Ready where
  rcd : TaskRec
  level : Nat
  /-- The reserved slot of a resume record. -/
  resume : Option Nat
  age : Nat
  /-- The take at which it became aged. -/
  aged : Option Nat
  deriving DecidableEq, Repr

/-- How a migration began (R415, R416). -/
inductive CarryWhy where
  | access | migr | setpos
  deriving DecidableEq, Repr

/-- A carry packet (R414). -/
structure Carry where
  id : Nat
  origin : Who
  dst : Nat
  why : CarryWhy
  tag : BitVec 24
  /-- TADDR of a refusal and the segment it names (R32). -/
  addr : W64
  seg : Nat
  pc : BitVec 20
  ctx : Slot
  fieldcfg : W64
  deriving DecidableEq, Repr

/-- An inbox entry that has not been placed yet (R257), with the operation it completes. -/
structure InEnt where
  id : Nat
  who : Who
  lid : Nat
  w0 : W64
  w1 : W64
  deriving DecidableEq, Repr

/-- A migration that the running bundle makes once its words are done (R414, R415). -/
structure Depart where
  dst : Nat
  why : CarryWhy
  addr : W64
  seg : Nat
  pos : BitVec 60
  bound : Bool
  deriving DecidableEq, Repr

/-- A mailbox waiter (R300): MBW carries its value. -/
structure MbWait where
  id : Nat
  who : Who
  write : Option W64
  deriving DecidableEq, Repr

/-- A mailbox (R300). -/
structure Mbox where
  val : W64
  full : Bool
  queue : List MbWait
  deriving DecidableEq, Repr

/-- An entry of the spill area (R258): a placed message, a held message or a sequence table entry. -/
inductive Spilled where
  | placed (m : Msg)
  | held (m : Msg)
  | entry (e : W64)
  deriving DecidableEq, Repr

/-- An accumulator (R352): `acc` 40 bits, `w` the wrap counter, the queues P and N of group sums. -/
structure Acc where
  acc : BitVec 40
  w : Int
  ind : Bool
  nan : Bool
  p : List Nat
  n : List Nat
  deriving DecidableEq, Repr

/-- A sector that the tile fetch unit holds for an operation (R99, R350). -/
structure TileSec where
  /-- Linear address of the sector. -/
  la : Nat
  vmid : Nat
  gpa : Nat
  data : BitVec 1024
  bad : Bool
  pinned : Bool
  deriving DecidableEq, Repr

/-- A slice instruction in progress or waiting (R345), with what it has read and how far it is (R354, R361). -/
structure SliceOp where
  id : Nat
  who : Who
  /-- Its bundle. -/
  bundle : W64
  /-- It is an MSTO that has started its store, an engine operation (R171, R364). -/
  msto : Bool
  /-- The tag of an MSTO that has started. -/
  tag : BitVec 16
  /-- Proc.time at its issue (R357). -/
  since : Nat
  row0 : Nat
  row : Nat
  desc : Option (List W64)
  /-- Rows and scale rows of B, or the bias vector, read so far. -/
  vals : List Nat
  /-- The row of A and its scales, as far as they are read. -/
  arow : List Nat
  tiles : List TileSec
  /-- Tile requests outstanding, or the requests of a store's row. -/
  wants : List Nat
  /-- The requests of the row that a store is to write, with their linear addresses. -/
  asked : List (Nat × Nat)
  /-- Linear sectors of that row whose home slices have answered (R361). -/
  ready : List Nat
  /-- It is a member of a gang that has started (R357). -/
  gang : Bool
  /-- The completion entry of an MSTO has been offered; the trap that follows it (R361). -/
  fin : Option (Option Due)
  /-- A checkpoint stops it at its next row (R365). -/
  halt : Bool
  /-- Its translation fault was answered invalid: XLATE reason and address (R350). -/
  inv : Option (Nat × W64)
  deriving DecidableEq, Repr

/-- A gang join (R357): the parameters that are compared. -/
structure Join where
  id : Nat
  who : Who
  /-- GM, AF, BF, the floor in force, SA, SB. -/
  cfg : List Int
  key : BitVec 16
  mr : Nat
  r0 : Nat
  deriving DecidableEq, Repr

/-- The matrix slice of a process (R346 to R365). -/
structure Matrix where
  cfg : W64
  key : BitVec 16
  status : W64
  acc : Sp Acc
  queue : List SliceOp
  join : Option Join
  /-- Lines pinned by the tile fetch unit (R99): VMID and line. -/
  pins : List (Nat × Nat)
  deriving DecidableEq, Repr

/-- A step of a field at its owner (R429): the generation, its barrier record, the cores that have not taken the notice
yet, those that take part, and the waiters that are released at its end. -/
structure FieldStep where
  gen : BitVec 16
  bar : Nat
  left : List Nat
  parts : List Nat
  held : List Waiter
  /-- What is left of the phases after the counts, in order. -/
  todo : List Ev
  deriving DecidableEq, Repr

/-- One process: everything a swap moves (R169, R448). -/
structure Proc where
  /-- The core that hosts it now. -/
  core : Nat
  coretag : W64
  xroot : W64
  lmmap : W64
  chgfill : W64
  chghit : W64
  chgwb : W64
  tvdef : W64
  segt : Vector (BitVec 128) 8
  spillq : W64
  /-- IE and IS of INBOXST; COUNT is `inCount` (R257). -/
  inboxie : W64
  taskcfg : W64
  fieldcfg : W64
  crowd : W64
  fieldbar : W64
  ftab : W64
  fstat : W64
  anc : Bool
  lanc : Bool
  /-- Used bits of the 64 pages (R64). -/
  used : BitVec 64
  slots : Sp Slot
  waits : List Waiter
  bars : Sp Bar
  ready : List Ready
  /-- Takes that started a record, for ageing (R385). -/
  takes : Nat
  arrq : List Carry
  mbox : Sp Mbox
  contbuf : List TaskRec
  inHead : Nat
  inCount : Nat
  /-- Entries that wait for a place in the inbox (R257). -/
  inWait : List InEnt
  spill : List Spilled
  /-- Sequence table entries by use, least recent first (R258). -/
  seqLru : List Nat
  /-- Source and channel of receive entries whose next message waits in a reorder slot for room, in order (R258). -/
  rwait : List (Nat × Nat)
  /-- Skip notices refused and offered again (R258). -/
  skips : List Msg
  snap : List FieldEnt
  halo : List FieldEnt
  /-- Cached table entries: bin index to field index (R420). -/
  ftabs : Sp Nat
  /-- Resident counts received from neighbours (R429). -/
  nbrs : Sp Nat
  /-- Steps in progress at this owner, oldest first. -/
  fsteps : List FieldStep
  /-- A level-2 alarm freezes its core at the next rotation boundary that finds its chunks committed (R335). -/
  alarm : Bool
  /-- Cycles of the cores that have hosted the process; limits are counted with it (R228, R448). -/
  time : Nat
  mx : Matrix
  deriving DecidableEq, Repr

/-! ## Cores -/

/-- A stash line (R71). `key` is set × 8 + way. -/
structure StashLine where
  st : LineSt
  ltag : Nat
  vmid : Nat
  gtag : Nat
  sec0 : SecSt
  sec1 : SecSt
  w1 : Bool
  u1 : Bool
  mt : Nat
  w2 : Bool
  pin : Bool
  deriving DecidableEq, Repr

/-- A transfer descriptor (R304). -/
abbrev Desc := Vector W64 8

/-- An engine operation (R306, R313): copies, and the element transfers of a stream. -/
structure Copy where
  id : Nat
  tag : BitVec 16
  desc : Desc
  /-- Segments of slot 15 in force at issue (R24). -/
  sg : Vector (BitVec 128) 8
  priv : Nat
  vmid : Nat
  job : Nat
  who : Who
  /-- LID of the issuing thread, for the launch's completion (R171). -/
  lid : Nat
  next : Nat
  /-- The element read and not yet written. -/
  got : Option W64
  /-- Stopped with this status, side and reason (R308). -/
  stop : Option (Nat × Nat × Nat)
  /-- The status with which it stops at its next element: a cancel, a checkpoint or an alarm found an element on its way (R308). -/
  asked : Option Nat
  /-- Parked on this record (R308). -/
  park : Option (BitVec 32)
  deriving DecidableEq, Repr

/-- A stream register (R311, R312, R313). -/
structure Stream where
  bound : Bool
  out : Bool
  slot : Nat
  op : Copy
  /-- Elements read ahead, or pushed in committed chunks and not yet written. -/
  buf : List W64
  /-- Index after the last element popped in a committed chunk, or after the last written. -/
  done : Nat
  /-- Fault point: index, status, reason, linear address (R314). -/
  fault : Option (Nat × Nat × Nat × W64)
  /-- The slot has been occupied since the binding (R316). -/
  seen : Bool
  /-- The status with which it ends when the element on its way has been written (R308, R316). -/
  ending : Option Nat
  deriving DecidableEq, Repr

/-- A launch latch or a launch's wake (R379). -/
structure Wake where
  lid : Nat
  job : BitVec 16
  vmid : BitVec 8
  root : W64
  lpn : Nat
  rcd : List W64
  launch : Nat
  deriving DecidableEq, Repr

/-- A swap proposal (R439): the neighbour, the halves of the cost change, and how it stands. -/
structure Proposal where
  other : Nat
  dx : Int
  dy : Int
  /-- The neighbour refused it. -/
  refused : Bool
  /-- The proposer's decision. -/
  accept : Bool
  deriving DecidableEq, Repr

/-- A window request (R31, R78). -/
inductive WinOp where
  /-- A load, with the bytes of the chunk's own stores merged over the value (R136), and sign extension. -/
  | load (off size : Nat) (sx : Bool) (mask own : W64) (single : Bool)
  | sync (op : SyncOp) (off : Nat) (v : W64)
  | atomic (fn size : Nat) (ret : Bool) (off : Nat) (x y : W64)
  | bar (op : BarOp) (idx : Nat) (v : W64)
  | post (rcd : TaskRec) (spawn : Bool)
  /-- The join step of a RETJ (R390). -/
  | join (off : Nat)
  | withdraw (id : Nat)
  | engRead (off size : Nat)
  | engWrite (off size : Nat) (v : W64)
  deriving DecidableEq, Repr

/-- A reply (R78, R32). -/
inductive Res where
  | value (v : W64)
  | done
  /-- No room in a wait list: the request comes back to be reissued (R68). -/
  | busy (tag : BitVec 24) (dst : Nat) (op : WinOp)
  | refused
  | full
  | trap (code : Nat)
  /-- An engine's element met a translation fault (R308). -/
  | fault (kind level sub gpa : Nat)
  /-- An engine's element names memory type 2 (R42). -/
  | device
  /-- An engine's element is translated anew (R57). -/
  | anew
  /-- The old value of a join word and the eight dwords of its continuation (R390). -/
  | cont (old : W64) (c : List W64)
  deriving DecidableEq, Repr

/-- The kinds of request a core sends to a home slice (R95, R97, R99). -/
inductive PgKind where
  | fill (store : Bool)
  | home (store : Bool)
  | own
  | atomic (fn size : Nat) (ret : Bool) (x y : W64)
  /-- A tile request (R99, R100): the sectors of the line it names and those fetched for it, bit k for sector k, and whether its merge
  window is over. -/
  | tile (need got : Nat) (held : Bool)
  /-- One element access of an engine, of a matrix store or of the host port (R150, R361, R461). -/
  | eng (wr : Bool) (size : Nat) (v : W64)
  | drop
  | writeback
  | upgrade
  /-- A write to the memory side that allocates nothing (R103). -/
  | put (size : Nat) (v : W64)
  deriving DecidableEq, Repr

/-- A request of the paged region (R87, R95). -/
structure PgReq where
  kind : PgKind
  core : Nat
  who : Who
  vmid : Nat
  la : Nat
  gpa : Nat
  w1 : Bool
  u1 : Bool
  mt : Nat
  /-- The host-physical address and the second-stage W, once translated. -/
  hpa : Option Nat
  w2 : Bool
  /-- The switch record of a combined atomic (R91): the two requests it stands for and the first's addend. -/
  parts : Option (Nat × Nat × W64)
  /-- The load whose landing entry takes the value. -/
  ld : Option LoadInfo
  /-- A TLBI removed the translation it was made with: it is translated again (R57). -/
  stale : Bool
  /-- The place of its arrival at the slice among all arrivals (R121). -/
  arr : Option Nat
  deriving DecidableEq, Repr

/-- An item in flight on a network or held by a unit, found by its identity. -/
inductive Item where
  | win (who : Who) (tag : BitVec 24) (dst : Nat) (op : WinOp)
  | reply (who : Who) (res : Res)
  /-- A request that was answered busy and waits at its core to be reissued, with the Proc.time at which it is (R68). -/
  | parked (who : Who) (tag : BitVec 24) (dst : Nat) (op : WinOp) (due : Nat)
  | msg (m : Msg)
  | ack (src dst ch seq : Nat)
  | msgRefused (m : Msg) (reason : Nat)
  | carry (c : Carry)
  | carryAck (c : Carry) (core : Nat)
  | carryRef (c : Carry) (reason : Nat)
  | weight (src dst ch w : Nat)
  | pg (r : PgReq)
  | wake (core : Nat) (w : Wake)
  /-- An access of memory type 2, by its host-physical address (R42). -/
  | device (who : Who) (hpa size : Nat) (write : Option W64) (sx : Bool)
  /-- An atomic's or a load's value on its way back from a home slice. -/
  | pgReply (r : PgReq) (v : W64)
  /-- A launch record on its way to another module's dispenser (R466). -/
  | launchRecord (module : Nat) (rcd : List W64) (job : BitVec 16) (vmid : BitVec 8) (root : W64) (lid : BitVec 16) (pg : Bool)
  /-- This module's answer for a launch of another module's dispenser: refused, or its counter is zero (R466). -/
  | launchReport (job : BitVec 16) (vmid : BitVec 8) (lid : BitVec 16) (st : Nat)
  deriving DecidableEq, Repr

/-- An entry of the egress latch (R333): the cycle of its release and the item. -/
structure Egress where
  due : Nat
  id : Nat
  deriving DecidableEq, Repr

/-- One core with what stays on it in a swap. -/
structure Core where
  /-- LPN of the hosted process. -/
  host : Nat
  cycle : Nat
  faultlog : W64
  coreclk : W64
  streams : Sp Stream
  copies : List Copy
  /-- EN and DET of ANMODE; ANC and LANC belong to the process (R443). -/
  anmode : W64
  antemp : W64
  ancool : W64
  anfloor : W64
  anperiod : W64
  anedge : W64
  anseed : W64
  andraw : Sp W64
  anstat : W64
  prop : Option Proposal
  answering : Option Nat
  /-- The core this one is swapping with (R448). -/
  swap : Option Nat
  pcache : List (Nat × Nat)
  fwd : List (Nat × Nat)
  watch : List (Line × Who)
  stash : Sp StashLine
  lru : Sp Nat
  egress : List Egress
  /-- Frozen for a swap, a checkpoint, an alarm. -/
  frzSwap : Bool
  frzCkpt : Bool
  frzAlarm : Bool
  gated : Bool
  idle : Nat
  wakeLatch : Bool
  latch : Option Wake
  /-- The identity under which the parked image load of the latch waits for its answer (R373). -/
  load : Option Nat
  /-- The slot being saved (R394). -/
  save : Option Nat
  /-- Sweeps that fell while the core was frozen (R436). -/
  sweeps : Nat
  /-- Items waiting at the network interface of a frozen core. -/
  held : List Nat
  deriving DecidableEq, Repr

/-! ## The memory system -/

/-- A first-stage leaf in a row port's translation cache (R43). -/
structure TlbEnt where
  vmid : Nat
  job : Nat
  page : Nat
  size : Nat
  gpa : Nat
  w : Bool
  u : Bool
  mt : Nat
  level : Nat
  /-- Address of the leaf entry, for the fault record (R50). -/
  ent : Nat
  deriving DecidableEq, Repr

/-- A table entry in the walk cache (R43). -/
structure WalkEnt where
  vmid : Nat
  job : Nat
  level : Nat
  idx : Nat
  table : Nat
  deriving DecidableEq, Repr

/-- A walk request of a row port's queue (R43). -/
structure WalkReq where
  who : Who
  la : Nat
  acc : Nat
  /-- The load that has issued and waits for the walk in its landing entry. -/
  ld : Option LoadInfo
  deriving DecidableEq, Repr

/-- A row port (R43). -/
structure Port where
  tlb : List TlbEnt
  walks : List WalkEnt
  queue : List WalkReq
  deriving DecidableEq, Repr

/-- A directory entry (R94, R95). -/
inductive Dir where
  | u
  | s (cores : List Nat)
  /-- A group vector: bit g stands for the cores whose number has bits 12:7 equal to g. -/
  | sv (groups : BitVec 64)
  | o (core : Nat)
  | x (core : Nat)
  deriving DecidableEq, Repr

/-- A transaction that holds a line busy (R95): acknowledgements outstanding and the request that waits for them. -/
structure Busy where
  acks : Nat
  req : Nat
  deriving DecidableEq, Repr

/-- An L2 line (R93). -/
structure L2Line where
  vmid : Nat
  line : Nat
  way : Nat
  sec0 : SecSt
  sec1 : SecSt
  dir : Dir
  pins : Nat
  mt : Nat
  w2 : Bool
  /-- Host-physical line it was filled from (the model's own record of the frame, log 10). -/
  hline : Nat
  busy : Option Busy
  /-- Requests that wait for the line, in arrival order. -/
  waiting : List Nat
  deriving DecidableEq, Repr

/-- A locality predictor entry (R98). -/
structure Pred where
  vmid : Nat
  line : Nat
  core : Nat
  count : Nat
  deriving DecidableEq, Repr

/-- A tile request held for merging (R100): the line, its sectors and the requests that joined; its window is over once it is
closed, and the line is then read for the group. -/
structure TileHold where
  vmid : Nat
  line : Nat
  need : Nat
  closed : Bool
  reqs : List Nat
  deriving DecidableEq, Repr

/-- An L2 slice (R93 to R105). -/
structure Slice where
  lines : List L2Line
  lru : Sp Nat
  preds : List Pred
  /-- Bucket of each VMID; unlisted buckets are full (R104, R110). -/
  buckets : Sp Int
  /-- Requests that wait for a token, in order (R105). -/
  misses : List Nat
  scrub : Nat
  scrubOf : Sp Nat
  holds : List TileHold
  tileWait : List Nat
  watch : List (Line × Who)
  /-- Lines for which pin-free tile requests wait (R153). -/
  shut : List (Nat × Nat)
  deriving DecidableEq, Repr

/-- A memory-side cache line (R114). -/
structure MscLine where
  vmid : Nat
  line : Nat
  set : Nat
  way : Nat
  hline : Nat
  sec0 : SecSt
  sec1 : SecSt
  deriving DecidableEq, Repr

/-- A leaf in a stage-two unit's cache (R47). -/
structure S2Ent where
  vmid : Nat
  page : Nat
  size : Nat
  hpa : Nat
  r : Bool
  w : Bool
  b : Bool
  mt : Nat
  level : Nat
  deriving DecidableEq, Repr

/-- A base die: memory-side cache and stage-two unit (R47, R114). -/
structure BaseDie where
  lines : List MscLine
  lru : Sp Nat
  s2 : List S2Ent
  /-- Fills that wait for a blocked leaf no slot covers (R121). -/
  blocked : List Nat
  deriving DecidableEq, Repr

/-- A block slot of page migration (R117 to R122). -/
structure Block where
  val : W64
  active : Bool
  drained : Bool
  /-- Queued requests per slice, in order. -/
  queue : Sp (List Nat)
  deriving DecidableEq, Repr

/-- An open repair wait (R124): the sector, the requests that wait, the record's number. -/
structure Repair where
  seq : BitVec 32
  vmid : Nat
  gpa : Nat
  hpa : Nat
  since : Nat
  waiting : List Nat
  /-- The thread whose access the record parks, until it is parked (R124). -/
  first : Option Who
  deriving DecidableEq, Repr

/-- Where an error stands in an array of bits (R123, R480). -/
inductive ErrAt where
  /-- A sector of memory, by its host-physical number. -/
  | mem (n : Nat)
  /-- A sector of a VMID in a memory-side cache. -/
  | msc (vmid sec : Nat)
  /-- A sector of a VMID in an L2 slice. -/
  | l2 (vmid sec : Nat)
  /-- The registers or the context store of a slot of a core (R480). -/
  | slot (core slot : Nat)
  /-- Another array of a core (R480). -/
  | core (core : Nat)
  deriving DecidableEq, Repr

/-! ## Dispenser, launches, placement, management -/

/-- A hardware queue slot (R376, R378). -/
structure DQ where
  cfg : W64
  base : W64
  root : W64
  ptr : W64
  waited : Nat
  aged : Option Nat
  /-- Did the head launch record's DEP dword read 0 when it was last read (R379)? None: not read yet. -/
  dep : Option Bool
  /-- The head task record's level was full: not pending until a retry finds room (R380). -/
  stuck : Bool
  /-- Ring positions whose launch was cancelled before it started (R174). -/
  drop : List Nat
  deriving DecidableEq, Repr

/-- A launch the dispenser has accepted (R171, R466). -/
structure Launch where
  id : Nat
  lid : Nat
  job : BitVec 16
  vmid : BitVec 8
  root : W64
  rcd : List W64
  /-- Threads not absent and task records queued or in flight. -/
  counter : Int
  /-- Engine operations not yet completed. -/
  engines : Nat
  /-- ST of the status dword (R382). -/
  st : Nat
  /-- Cores whose wake has not started slot 0 yet. -/
  starting : Nat
  /-- Launched by another module's dispenser (R466). -/
  foreign : Bool
  deriving DecidableEq, Repr

/-- A placement table entry (R433, R449). -/
structure Place where
  core : Nat
  /-- The cacher record: core numbers up to 4, beyond that the group vector of R94. -/
  cachers : Dir
  /-- Cachers that have not acknowledged an invalidation. -/
  acks : List Nat
  /-- The cores that hold a forwarding entry to retire. -/
  fwdAt : List Nat
  deriving DecidableEq, Repr

/-- A record sent to Imago (R327). -/
inductive Record where
  /-- A translation fault record: its four dwords (R50). -/
  | fault (d : List W64)
  /-- A poison record: its four dwords (R125). -/
  | poison (d : List W64)
  /-- A slot halted: its thread and the cause code (R322, R480). -/
  | halt (who : Who) (code : Nat)
  /-- A notice, by the rule that sends it and a value. -/
  | notice (rule value : Nat)
  deriving DecidableEq, Repr

/-- A parked fault that awaits its answer (R52, R326). -/
structure Parked where
  seq : BitVec 32
  kind : Nat
  vmid : Nat
  who : Who
  /-- The engine operation that is parked, if it is not the thread. -/
  engine : Option Nat
  la : W64
  deriving DecidableEq, Repr

/-- Imago's queues (R327). -/
structure Imago where
  seq : BitVec 32
  faults : List (BitVec 32 × Record)
  poisons : List (BitVec 32 × Record)
  notices : List (BitVec 32 × Record)
  parked : List Parked
  deriving DecidableEq, Repr

/-- A row of 16 cores (R472). -/
structure Row where
  ctl : W64
  temp : BitVec 12
  pwr : BitVec 12
  deriving DecidableEq, Repr

/-- An attestation report (R477). -/
structure Report where
  hash : BitVec 256
  version : W64
  zeroised : Nat
  nonce : BitVec 256
  signature : BitVec 256
  deriving DecidableEq, Repr

/-- Chrysalis (R476, R477). -/
structure Chrysalis where
  booted : Bool
  failed : Bool
  version : W64
  fused : W64
  hash : BitVec 256
  attKey : Bool
  zeroised : Nat
  report : Option Report
  deriving DecidableEq, Repr

/-- The phase of a checkpoint (R129). -/
inductive CkPhase where
  | idle | stop | flush | copy | seal
  deriving DecidableEq, Repr

/-- Whose cycles a timer counts. -/
inductive Clock where
  | core (c : Nat)
  /-- The clock of whichever core hosts the process. -/
  | proc (lpn : Nat)
  | network
  deriving DecidableEq, Repr

/-- A timer: after `left` more cycles of its clock the event joins the agenda. -/
structure Timer where
  clock : Clock
  left : Nat
  ev : Ev
  deriving DecidableEq, Repr

/-- A TLBI in progress (R55): its thread, kind and key, and the members of the reach still to acknowledge. Members 0 to
8192 are cores, 10000 on are row ports, 20000 on are stage-two units. -/
structure Tlbi where
  who : Who
  kind : Nat
  vmid : Nat
  job : Nat
  addr : Nat
  left : List Nat
  deriving DecidableEq, Repr

/-- What the running bundle has done so far (the model's own, log 2). -/
inductive BundleSt where
  /-- Word A went on: the bundle continues with word B. -/
  | run
  /-- Word A trapped, parked or left: nothing more of the bundle is performed. -/
  | stop
  /-- Word A waits in place: word B follows its completion. -/
  | hold
  deriving DecidableEq, Repr

/-- The module registers that Lomter programs (M-only, R108 to R128, R376, R443 to R478). -/
structure ModRegs where
  l2cfg : W64
  l2stat : W64
  pgblk : W64
  pgcsrc : W64
  pgcdst : W64
  ckpt : W64
  brxcfg : W64
  brxup : W64
  dqsel : W64
  dqage : W64
  dbsum : W64
  rowsel : W64
  thermcfg : W64
  modpwr : W64
  chalcfg : W64
  challog : W64
  vmroot : Sp W64
  l2part : Sp W64
  l2bw : Sp W64
  pwrt : Sp W64
  vfmap : Sp W64
  deriving DecidableEq, Repr

/-- The whole module. -/
structure State where
  procs : Sp Proc
  cores : Sp Core
  /-- HBM4E and LPDDR6 by host-physical address, local memories by window address; canonical. -/
  mem : List Host.Cell
  /-- Window addresses of the words whose full bit is 0 (R65), rising. -/
  empty : List Nat
  /-- Window addresses of poisoned local words (R480). -/
  badWords : List Nat
  /-- Host-physical sector numbers that hold poison (R123). -/
  poison : List Nat
  /-- Places with an uncorrectable error that no access has met yet: the outside world's part, which no step adds to (R123, R480). -/
  errs : List ErrAt
  /-- Places with a single-bit error that no access has met yet; no step adds to them (R123, R480). -/
  soft : List ErrAt
  /-- Sectors that some cache holds: the data, by VMID × 2^41 + guest-physical sector (log 10). -/
  secs : Sp (BitVec 1024)
  regs : ModRegs
  ports : Sp Port
  slices : Sp Slice
  pools : Sp Nat
  /-- Bucket parameters still in force until the next refill, of VMIDs whose L2BW was written since the last one (R110). -/
  bwOld : Sp W64
  /-- Combine buffer records in use, by switch output (R91): the identities of the combined requests. -/
  combine : Sp (List Nat)
  bases : Sp BaseDie
  doms : Sp Dom
  blocks : Sp Block
  repairs : List Repair
  copyBusy : Bool
  /-- The source of the running page copy (R119). -/
  copySrc : Nat
  ckPhase : CkPhase
  ckStart : Nat
  ckPoison : Nat
  dqs : Sp DQ
  dqLast : Sp Nat
  dispatches : Nat
  launches : List Launch
  jobs : Sp Nat
  place : Sp Place
  imago : Imago
  rows : Sp Row
  /-- Tenants that had a record withheld in the power interval (R475). -/
  withheld : List Nat
  chrys : Chrysalis
  stopped : Bool
  links : Sp Bool
  net : Sp Item
  /-- Items that have left the module: to other modules, to the host. -/
  outbox : List Item
  tlbis : List Tlbi
  /-- Network clock: slice cycles (R110). -/
  clk : Nat
  timers : List Timer
  agenda : List Ev
  /-- The core whose cycle comes next. -/
  turn : Nat
  nextId : Nat
  /-- Counter of the free values (log 9, 14). -/
  free : Nat
  /-- The thread whose bundle is performed, its operands, its next PC and how it stands (log 2). -/
  cur : Who
  /-- The dword of the bundle that is performed (R181). -/
  bword : W64
  opnd : Vector W64 32
  opw : BitVec 8
  orm : BitVec 3
  npc : BitVec 20
  taken : Bool
  bst : BundleSt
  /-- View registers the running bundle pops (R214). -/
  bpops : List Nat
  /-- Segment register that word A's access names (R320). -/
  useg : Nat
  /-- The migration with which the running bundle ends (R415). -/
  leaving : Option Depart
  /-- The running bundle's access stands in a chunk of its own (R135): type 2, or a migrated access. -/
  alone : Bool
  /-- SAT at the start of the bundle (R289). -/
  osat : Bool
  deriving DecidableEq, Repr

/-! ## The values at reset (R479 and the Reset columns; log 6, 7) -/

/-- A thread's checkpointed registers while its slot is absent (log 7); FCSR as R288 gives. -/
def Arch.init : Arch :=
  { regs := Vector.replicate 32 0, full := BitVec.allOnes 32, pw := 1, pc := 0, past := false, fcsr := 8, lc0 := 0, ls0 := 0,
    lc1 := 0, ls1 := 0, landing := [], bno := 0 }

/-- The slot-range registers at their reset values (R229, R260, R270, R356, R394). -/
def SlotRegs.init : SlotRegs :=
  { slotctl := 0, launch := 0, fmt := 0, scp := 0, trapvec := 0, tcause := 0, taddr := 0, tpc := 0, tprog := 0,
    tscr0 := 0, tscr1 := 0, waitlim := 0x01000000, barlim := 0x01000000, sendlim := 0x01000000, masklim := 0x0400,
    uivec := 0, uistat := 0, pipecfg := 0, strview := 0, ganglim := 0x00100000, quantum := 0x00040000, spinres := 0 }

/-- An absent slot (R479). -/
def Slot.init : Slot :=
  { st := .absent, arch := Arch.init, regs := SlotRegs.init, sg := Vector.replicate 8 0, stage := none,
    hbank := Vector.replicate 8 0, join := 0, pri := 0, pos := 0, payload := 0, bound := false, snaph := 0, rebin := false,
    query := none, chunk := none, commit := none, squashes := 0, solo := none, single := false, lastSets := [],
    grants := [], wait := none, latch := none, heldMsgs := [], due := [], later := [], park := none,
    resume := false, replays := 0, lastIssue := none, issued := none, yields := 0, fetch := [], atomics := [], sends := [], pushq := [], cut := none, precise := false, ending := none,
    reserved := false, sleepLeft := none, doomed := false, arrived := false, sdesc := none, fence := [] }

/-- An accumulator of value 0 (R348). -/
def Acc.init : Acc := { acc := 0, w := 0, ind := false, nan := false, p := [], n := [] }

/-- A mailbox at image load (R301). -/
def Mbox.init : Mbox := { val := 0, full := false, queue := [] }

/-- A barrier record at image load (R240). -/
def Bar.init : Bar := { count := 0, arr := 0, gen := 0 }

/-- The matrix slice at image load (R346, R362). -/
def Matrix.init : Matrix := { cfg := 0, key := 0, status := 0, acc := [], queue := [], join := none, pins := [] }

/-- The TASKCFG value of image load: AUTO 1, AGE 64, SMASK 0x7FFE (R384). -/
def taskcfgReset : W64 := 0x7FFE4001

/-- A process at reset: no job, nothing loaded, on the core its LPN names (R479, log 6). -/
def Proc.init (lpn : Nat) : Proc :=
  { core := if lpn = Config.imagoLpn then Config.imago else lpn % Config.cores, coretag := 0, xroot := 0, lmmap := 0,
    chgfill := 0, chghit := 0, chgwb := 0, tvdef := 0, segt := Vector.replicate 8 0, spillq := 0, inboxie := 0,
    taskcfg := taskcfgReset, fieldcfg := 0, crowd := 12, fieldbar := 0, ftab := 0, fstat := 0, anc := false,
    lanc := false, used := 0, slots := [], waits := [], bars := [], ready := [], takes := 0, arrq := [], mbox := [],
    contbuf := [], inHead := 0, inCount := 0, inWait := [], spill := [], seqLru := [], rwait := [], skips := [], snap := [], halo := [],
    ftabs := [], nbrs := [], fsteps := [], alarm := false, time := 0, mx := Matrix.init }

/-- A core at reset: powered, hosting the process that bears its number (R443, R468, R479, log 6). -/
def Core.init (c : Nat) : Core :=
  { host := if c = Config.imago then Config.imagoLpn else c, cycle := 0, faultlog := 0, coreclk := 0x102,
    streams := [], copies := [], anmode := 0, antemp := 0, ancool := 4, anfloor := 0, anperiod := 0x100C,
    anedge := 2, anseed := 1, andraw := [], anstat := 0, prop := none, answering := none, swap := none, pcache := [],
    fwd := [], watch := [], stash := [], lru := [], egress := [], frzSwap := false, frzCkpt := false,
    frzAlarm := false, gated := false, idle := 0, wakeLatch := false, latch := none, load := none, save := none, sweeps := 0,
    held := [] }

/-- An empty row port (R43). -/
def Port.init : Port := { tlb := [], walks := [], queue := [] }

/-- An empty L2 slice with full buckets (R110). -/
def Slice.init : Slice :=
  { lines := [], lru := [], preds := [], buckets := [], misses := [], scrub := 0, scrubOf := [], holds := [],
    tileWait := [], watch := [], shut := [] }

/-- An empty base die (R114). -/
def BaseDie.init : BaseDie := { lines := [], lru := [], s2 := [], blocked := [] }

/-- An idle arbiter (R140). -/
def Dom.init : Dom := { held := [], queue := [] }

/-- An inactive block slot (R118). -/
def Block.init : Block := { val := 0, active := false, drained := false, queue := [] }

/-- A hardware queue slot at reset: TIER 3, disabled (R376). -/
def DQ.init : DQ := { cfg := 0x03000000, base := 0, root := 0, ptr := 0, waited := 0, aged := none, dep := none, stuck := false, drop := [] }

/-- A placement table entry without a host (R433). -/
def Place.init : Place := { core := 0, cachers := .u, acks := [], fwdAt := [] }

/-- A row at reset: VCODE 160, ROWCAP 4,095 (R472); sensors read 0 (log 7). -/
def Row.init : Row := { ctl := 0x0FFF00A0, temp := 0, pwr := 0 }

/-- The M-only registers at reset (R108 to R128, R376, R465 to R478). -/
def ModRegs.init : ModRegs :=
  { l2cfg := 0x1000000400, l2stat := 0, pgblk := 0, pgcsrc := 0, pgcdst := 0, ckpt := 0, brxcfg := 0, brxup := 0,
    dqsel := 0, dqage := 4096, dbsum := 0, rowsel := 0, thermcfg := 0x1A417C154, modpwr := 6200, chalcfg := 0x5BF,
    challog := 0, vmroot := [], l2part := [], l2bw := [], pwrt := [], vfmap := [] }

/-- L2PARTv at reset: every way of both caches (R109). -/
def l2partReset : W64 := 0xFFFFFFFF

/-- L2BWv at reset: RATE 0xFFFF, DEPTH 0xF_FFFF, TIER 3 (R110). -/
def l2bwReset : W64 := 0x3FFFFFFFFF

/-- PWRTv at reset: FLOOR 0, CAP 0xFFFF, TIER 3 (R474). -/
def pwrtReset : W64 := 0x3FFFF0000

/-- The machine right after reset (R479): every core powered with CORETAG 0, every slot absent, the queue slots
disabled, no memory listed, and no event due. -/
def State.reset : State :=
  { procs := [], cores := [], mem := [], empty := [], badWords := [], poison := [], errs := [], soft := [], secs := [], regs := ModRegs.init,
    ports := [], slices := [], pools := [], bwOld := [], combine := [], bases := [], doms := [], blocks := [], repairs := [],
    copyBusy := false, copySrc := 0, ckPhase := .idle, ckStart := 0, ckPoison := 0, dqs := [], dqLast := [], dispatches := 0,
    launches := [], jobs := [], place := [],
    imago := { seq := 0, faults := [], poisons := [], notices := [], parked := [] }, rows := [], withheld := [],
    chrys := { booted := false, failed := false, version := 0, fused := 0, hash := 0, attKey := false, zeroised := 0,
               report := none },
    stopped := false, links := [], net := [], outbox := [], tlbis := [], clk := 0, timers := [], agenda := [],
    turn := 0, nextId := 0, free := 0, cur := { lpn := 0, slot := 0 }, bword := 0, opnd := Vector.replicate 32 0, opw := 1,
    orm := 0, npc := 0, taken := false, bst := .run, bpops := [], useg := 0, leaving := none,
    alone := false, osat := true }

/-- What a meaning answers. -/
abbrev Out := Host.Outcome State Fault Refusal

end Sys2Proof.Machine
end

