-- ==== Sys2Proof/Machine/Bits.lean ====
section
/-!
DEFINITION. Bit fields, extensions, byte order and the canonical memory list: the helpers every meaning uses.
-/

namespace Sys2Proof.Machine

/-! ## Fields of a register read as numbers (R3) -/

/-- The number in bits hi:lo. -/
def fld (hi lo : Nat) (v : W64) : Nat := v.toNat / 2 ^ lo % 2 ^ (hi - lo + 1)

/-- v with bits hi:lo replaced by x. -/
def setFld (hi lo : Nat) (x : Nat) (v : W64) : W64 :=
  BitVec.ofNat 64 (v.toNat / 2 ^ (hi + 1) * 2 ^ (hi + 1) + x % 2 ^ (hi - lo + 1) * 2 ^ lo + v.toNat % 2 ^ lo)

/-- Bit i of a register. -/
def tb (i : Nat) (v : W64) : Bool := v.getLsbD i

/-- v with bit i set to b. -/
def setBit (i : Nat) (b : Bool) (v : W64) : W64 := setFld i i (if b then 1 else 0) v

/-- Sign extension of the low n bits to 64 (R224). -/
def sext (n : Nat) (v : Nat) : W64 :=
  let m := v % 2 ^ n
  if m < 2 ^ (n - 1) then BitVec.ofNat 64 m else BitVec.ofInt 64 ((m : Int) - 2 ^ n)

/-- A number as a dword. -/
abbrev w64 (n : Nat) : W64 := BitVec.ofNat 64 n

/-- A two's complement reading of the low n bits. -/
def sint (n : Nat) (v : Nat) : Int :=
  let m := v % 2 ^ n
  if m < 2 ^ (n - 1) then (m : Int) else (m : Int) - 2 ^ n

/-- An integer reduced modulo 2^n to a number (R6). -/
def imod (n : Nat) (v : Int) : Nat := (v % 2 ^ n).toNat

/-- The value of an extension as operand b: sign-extended (R188). -/
def extVal (x : W32) : W64 := x.signExtend 64

/-- One bit as a dword. -/
def bw (b : Bool) : W64 := if b then 1 else 0

/-! ## Lists -/

/-- The first n numbers from a. -/
def seqFrom (a : Nat) : Nat → List Nat
  | 0 => []
  | n + 1 => a :: seqFrom (a + 1) n

/-- Applies a step for each element of a list, in order. -/
def forEach {α σ : Type} (l : List α) (s : σ) (f : σ → α → σ) : σ := l.foldl f s

/-- Repeats a step n times. -/
def iterate {σ : Type} (f : σ → σ) : Nat → σ → σ
  | 0, s => s
  | n + 1, s => iterate f n (f s)

/-- Inserts a number into a rising list without repeats. -/
def insNat (k : Nat) : List Nat → List Nat
  | [] => [k]
  | a :: t => if k < a then k :: a :: t else if a = k then a :: t else a :: insNat k t

/-- Removes the first element that meets a test. -/
def dropFirst {α : Type} (p : α → Bool) : List α → List α
  | [] => []
  | a :: t => if p a then t else a :: dropFirst p t

/-- Changes the elements that meet a test. -/
def mapIf {α : Type} (p : α → Bool) (f : α → α) (l : List α) : List α := l.map fun a => if p a then f a else a

/-! ## Memory as a canonical list of cells -/

/-- The byte an address reads as: 0 where no cell is listed (log 8). -/
def memGet : List Host.Cell → Nat → Byte
  | [], _ => 0
  | (a, b) :: t, k => if a = k then b else memGet t k

/-- Lists a cell in its place. -/
def memIns (k : Nat) (v : Byte) : List Host.Cell → List Host.Cell
  | [] => [(k, v)]
  | (a, b) :: t => if k < a then (k, v) :: (a, b) :: t else if a = k then (k, v) :: t else (a, b) :: memIns k v t

/-- Removes a cell. -/
def memDel (k : Nat) (m : List Host.Cell) : List Host.Cell := m.filter fun c => c.1 != k

/-- Writes a byte; writing what an unlisted address reads as removes the cell. -/
def memPut (m : List Host.Cell) (k : Nat) (v : Byte) : List Host.Cell := if v = 0 then memDel k m else memIns k v m

/-- Addresses strictly rising above a bound, no cell equal to 0. -/
def memAbove : Nat → List Host.Cell → Bool
  | _, [] => true
  | n, (a, b) :: t => n ≤ a && b != 0 && memAbove (a + 1) t

/-- The canonical form: addresses strictly rising and no cell equal to what an unlisted address reads as. -/
def Memory.wf (m : List Host.Cell) : Bool := memAbove 0 m

/-- n bytes from an address as a little-endian number (R2). -/
def memRead (m : List Host.Cell) (a : Nat) : Nat → Nat
  | 0 => 0
  | n + 1 => (memGet m a).toNat + 256 * memRead m (a + 1) n

/-- Stores the low n bytes of a number, little-endian (R2). -/
def memWrite (m : List Host.Cell) (a : Nat) : Nat → Nat → List Host.Cell
  | 0, _ => m
  | n + 1, v => memWrite (memPut m a (BitVec.ofNat 8 v)) (a + 1) n (v / 256)

/-! ## Bytes of a sector -/

/-- n bytes at an offset of a 128-byte sector, as a little-endian number (R72). -/
def secRead (d : BitVec 1024) (off n : Nat) : Nat := d.toNat / 2 ^ (8 * off) % 2 ^ (8 * n)

/-- A sector with n bytes at an offset replaced. -/
def secWrite (d : BitVec 1024) (off n v : Nat) : BitVec 1024 :=
  let x := d.toNat
  BitVec.ofNat 1024 (x / 2 ^ (8 * (off + n)) * 2 ^ (8 * (off + n)) + v % 2 ^ (8 * n) * 2 ^ (8 * off) + x % 2 ^ (8 * off))

/-- A sector read from memory. -/
def secOfMem (m : List Host.Cell) (a : Nat) : BitVec 1024 := BitVec.ofNat 1024 (memRead m a 128)

/-- A sector written to memory. -/
def secToMem (m : List Host.Cell) (a : Nat) (d : BitVec 1024) : List Host.Cell := memWrite m a 128 d.toNat

/-- Adds an element to a list without repeats. -/
def addNew {α : Type} [BEq α] (a : α) (l : List α) : List α := if l.contains a then l else l ++ [a]

end Sys2Proof.Machine
end

