-- ==== Sys2Proof/Machine/Ops.lean ====
section
/-!
DEFINITION. The named operations over the state: threads, processes, cores, local memory and its full bits, timers and
the agenda, landings, chunks and squashes, taking a trap and returning from one, parking, and Imago's records.
-/

namespace Sys2Proof.Machine

/-! ## Access by name -/

/-- The process that bears an LPN. -/
def State.proc (s : State) (lpn : Nat) : Proc := spGet (Proc.init lpn) s.procs lpn

/-- Changes one process. -/
def State.modProc (s : State) (lpn : Nat) (f : Proc → Proc) : State :=
  { s with procs := spPut s.procs lpn (f (s.proc lpn)) }

/-- The core with a module-local number. -/
def State.core (s : State) (c : Nat) : Core := spGet (Core.init c) s.cores c

/-- Changes one core. -/
def State.modCore (s : State) (c : Nat) (f : Core → Core) : State :=
  { s with cores := spPut s.cores c (f (s.core c)) }

/-- A slot of a process. -/
def Proc.slot (p : Proc) (n : Nat) : Slot := spGet Slot.init p.slots n

/-- The slot of a thread. -/
def State.slot (s : State) (w : Who) : Slot := (s.proc w.lpn).slot w.slot

/-- Changes the slot of a thread. -/
def State.modSlot (s : State) (w : Who) (f : Slot → Slot) : State :=
  s.modProc w.lpn fun p => { p with slots := spPut p.slots w.slot (f (p.slot w.slot)) }

/-- The slot of the thread whose bundle is performed. -/
def State.me (s : State) : Slot := s.slot s.cur

/-- Changes that slot. -/
def State.modMe (s : State) (f : Slot → Slot) : State := s.modSlot s.cur f

/-- The process of the thread whose bundle is performed. -/
def State.myProc (s : State) : Proc := s.proc s.cur.lpn

/-- The core that hosts a process (R13). -/
def State.hostOf (s : State) (lpn : Nat) : Nat := (s.proc lpn).core

/-- The core the current thread is on. -/
def State.myCore (s : State) : Core := s.core (s.hostOf s.cur.lpn)

/-- Changes that core. -/
def State.modMyCore (s : State) (f : Core → Core) : State := s.modCore (s.hostOf s.cur.lpn) f

/-- The slot numbers of a core (R1). -/
def allSlots : List Nat := [0, 1, 2, 3, 4, 5, 6, 7, 8, 9, 10, 11, 12, 13, 14, 15]

/-- Every thread whose slot is listed. -/
def State.threads (s : State) : List Who :=
  s.procs.flatMap fun p => p.2.slots.map fun t => { lpn := p.1, slot := t.1 }

/-- The cores that have run or that host a process with state, ascending: the others stay as reset left them (log 2). -/
def State.liveCores (s : State) : List Nat :=
  (s.procs.map fun p => p.2.core).foldl (fun l c => insNat c l) (s.cores.foldl (fun l c => insNat c.1 l) [])

/-- The module number (R465). -/
def State.module (s : State) : Nat := fld 5 0 s.regs.brxcfg

/-- The 19-bit core number of a core of this module (R11). -/
def State.coreNumber (s : State) (c : Nat) : Nat := (s.module * 8192 + c % 8192) % 2 ^ 19

/-- Mesh X of a core (R12). -/
def meshX (c : Nat) : Nat := 16 * (2 * (c / 2048 % 2) + c / 512 % 2) + c % 16

/-- Mesh Y of a core (R12). -/
def meshY (c : Nat) : Nat := 32 * (2 * (c / 4096 % 2) + c / 1024 % 2) + c / 16 % 32

/-- The core at mesh coordinates (R12). -/
def coreAt (x y : Nat) : Nat :=
  (y / 64 % 2) * 4096 + (x / 32 % 2) * 2048 + (y / 32 % 2) * 1024 + (x / 16 % 2) * 512 + (y % 32) * 16 + x % 16

/-- The row of a core among the module's 512 (R12). -/
def rowOf (c : Nat) : Nat := c / 16

/-- A field of CORETAG: the job (R30). -/
def Proc.job (p : Proc) : Nat := fld 15 0 p.coretag

/-- A field of CORETAG: the VMID (R30). -/
def Proc.vmid (p : Proc) : Nat := fld 23 16 p.coretag

/-- Privilege of a slot: 0 U, 1 G, 2 M (R320). -/
def Slot.priv (t : Slot) : Nat := fld 1 0 t.regs.slotctl

/-- A trap handler runs (R320). -/
def Slot.inTrap (t : Slot) : Bool := tb 2 t.regs.slotctl

/-- The user interrupt handler runs (R270). -/
def Slot.inUser (t : Slot) : Bool := tb 32 t.regs.uistat

/-- The core tag a thread's requests carry: job 0 and VMID 0 at privilege M (R31). -/
def State.tagOf (s : State) (w : Who) : BitVec 24 :=
  if (s.slot w).priv = 2 then 0 else BitVec.ofNat 24 (s.proc w.lpn).coretag.toNat

/-- The job check of R31. -/
def jobCheck (tag : BitVec 24) (p : Proc) : Bool :=
  tag == 0 || (tag.toNat % 65536 != 0 && tag.toNat % 65536 == p.job && tag.toNat / 65536 == p.vmid)

/-! ## The agenda, timers, identities -/

/-- Puts an event at the end of the agenda. -/
def State.post (s : State) (e : Ev) : State := { s with agenda := s.agenda ++ [e] }

/-- Puts several events at the end of the agenda. -/
def State.postAll (s : State) (l : List Ev) : State := { s with agenda := s.agenda ++ l }

/-- Lets an event join the agenda after n cycles of a clock. -/
def State.after (s : State) (c : Clock) (n : Nat) (e : Ev) : State :=
  { s with timers := s.timers ++ [{ clock := c, left := n, ev := e }] }

/-- Takes the next identity. -/
def State.fresh (s : State) : State := { s with nextId := s.nextId + 1 }

/-- Puts an item in flight under the next identity. -/
def State.launchItem (s : State) (i : Item) : State :=
  { s with net := spPut s.net s.nextId i, nextId := s.nextId + 1 }

/-- The item in flight with an identity. -/
def State.item (s : State) (id : Nat) : Option Item := (s.net.find? fun p => p.1 == id).map fun p => p.2

/-- Takes an item off the network. -/
def State.dropItem (s : State) (id : Nat) : State := { s with net := spDel s.net id }

/-- The next free value's index is used up (log 9, 14). -/
def State.tick (s : State) : State := { s with free := s.free + 1 }

/-! ## Imago's records (R327) -/

/-- Sends a record to Imago: it is appended to its queue under the next sequence number. -/
def State.record (s : State) (r : Record) : State :=
  let i := s.imago
  let q := (i.seq, r)
  let i' := { i with seq := i.seq + 1 }
  { s with imago := match r with
      | .fault _ => { i' with faults := i.faults ++ [q] }
      | .poison _ => { i' with poisons := i.poisons ++ [q] }
      | .halt _ _ => { i' with notices := i.notices ++ [q] }
      | .notice _ _ => { i' with notices := i.notices ++ [q] } }

/-! ## Segments (R15, R16) -/

/-- sg0: the host process's local memory, rights R, W, X, A and S (R16). Imago's lies just past the 56-bit addresses, so that its
base field holds 0 (log 11). -/
def sg0 (lpn : Nat) : BitVec 128 :=
  BitVec.ofNat 128 ((Config.wbase + lpn * 2 ^ 20) % 2 ^ 56 + 0xFFFFF * 2 ^ 56 + 0x1F * 2 ^ 112)

/-- The value of a segment register of a thread (R15, R16). -/
def State.seg (s : State) (w : Who) (n : Nat) : BitVec 128 :=
  if n = 0 then sg0 w.lpn else ((s.slot w).sg.toList.getD n 0)

/-- Base field of a segment register. -/
def segBase (g : BitVec 128) : Nat := g.toNat % 2 ^ 56

/-- Limit field of a segment register. -/
def segLimit (g : BitVec 128) : Nat := g.toNat / 2 ^ 56 % 2 ^ 56

/-- Rights R, W, X, A, S, M in bits 0 to 5. -/
def segRights (g : BitVec 128) : Nat := g.toNat / 2 ^ 112 % 64

/-- Does a segment have every right of a mask? -/
def segHas (g : BitVec 128) (need : Nat) : Bool := segRights g &&& need == need

/-- Right R. -/
def rR : Nat := 1
/-- Right W. -/
def rW : Nat := 2
/-- Right X. -/
def rX : Nat := 4
/-- Right A. -/
def rA : Nat := 8
/-- Right S. -/
def rS : Nat := 16
/-- Right M. -/
def rM : Nat := 32

/-! ## Local memory (R59 to R66, R480) -/

/-- Bytes of the variable areas, U × 4 KiB (R61). -/
def varBytes (lmmap : W64) : Nat := (16 * fld 3 0 lmmap + fld 15 8 lmmap + fld 23 16 lmmap) * 4096

/-- First offset above the image region (R61). -/
def imageTop (lmmap : W64) : Nat := Config.localSize - varBytes lmmap

/-- Offset of the stash (R61). -/
def stashBase (lmmap : W64) : Nat := Config.localSize - fld 3 0 lmmap * 65536

/-- Is an offset in a hardware area (R61)? -/
def hwArea (lmmap : W64) (off : Nat) : Bool := off < 0x4000 || imageTop lmmap ≤ off

/-- The window address of a byte of a process (R9). -/
def winAddr (lpn off : Nat) : Nat := Config.wbase + lpn * 2 ^ 20 + off

/-- The sector of the cached data that a stash byte of local memory holds, if its line is installed (R70, log 10). -/
def State.stashSec (s : State) (lpn off : Nat) : Option (Nat × Nat) :=
  let p := s.proc lpn
  if off < stashBase p.lmmap then none else
  let k := (off - stashBase p.lmmap) / 256
  match (s.core p.core).stash.find? fun e => e.1 == k && e.2.st != LineSt.i with
  | some (_, l) => some ((l.vmid * 2 ^ 41 + l.gtag * 2) + (off / 128 % 2), off % 128)
  | none => none

/-- The entry of the wait list that a byte of the system block belongs to, while a waiter has it (R59). -/
def Proc.waitAt (p : Proc) (off : Nat) : Option Waiter :=
  if 0x3000 ≤ off && off < 0x3400 then p.waits[(off - 0x3000) / 16]? else none

/-- A byte of local memory as an access of a privilege reads it (R63, R64). -/
def State.locByte (s : State) (lpn priv off : Nat) : Byte :=
  if priv != 2 && hwArea (s.proc lpn).lmmap off then 0 else
  match (s.proc lpn).waitAt off with
  | some x => (Config.waitEntry x.who.lpn x.who.slot x.key x.val).extractLsb' (8 * (off % 16)) 8
  | none =>
  match s.stashSec lpn off with
  | some (k, o) => BitVec.ofNat 8 (secRead (spGet 0 s.secs k) o 1)
  | none => memGet s.mem (winAddr lpn off)

/-- n bytes of local memory, little-endian (R2, R63). -/
def State.locRead (s : State) (lpn priv off : Nat) : Nat → Nat
  | 0 => 0
  | n + 1 => (s.locByte lpn priv off).toNat + 256 * s.locRead lpn priv (off + 1) n

/-- Writes a byte of local memory and sets its page's used bit; hardware areas discard it below M (R63, R64). -/
def State.locPut (s : State) (lpn priv off : Nat) (v : Byte) : State :=
  if priv != 2 && hwArea (s.proc lpn).lmmap off then s else
  match s.stashSec lpn off with
  | some (k, o) => { s with secs := spPut s.secs k (secWrite (spGet 0 s.secs k) o 1 v.toNat) }
  | none =>
    { s with mem := memPut s.mem (winAddr lpn off) v }.modProc lpn fun p =>
      { p with used := p.used ||| (1 <<< (off / 16384)) }

/-- Writes the low n bytes of a number, little-endian. -/
def State.locWriteBytes (s : State) (lpn priv off : Nat) : Nat → Nat → State
  | 0, _ => s
  | n + 1, v => (s.locPut lpn priv off (BitVec.ofNat 8 v)).locWriteBytes lpn priv (off + 1) n (v / 256)

/-- A write of n bytes; a whole aligned write of 8 bytes ends the word's poison (R480). -/
def State.locWrite (s : State) (lpn priv off n v : Nat) : State :=
  let s' := s.locWriteBytes lpn priv off n v
  if n = 8 then { s' with badWords := s'.badWords.filter fun a => a != winAddr lpn off } else s'

/-- A dword of local memory as the hardware itself reads it. -/
def State.hwRead (s : State) (lpn off : Nat) : W64 := w64 (s.locRead lpn 2 off 8)

/-- A dword of local memory written by the hardware itself. -/
def State.hwWrite (s : State) (lpn off : Nat) (v : W64) : State := s.locWrite lpn 2 off 8 v.toNat

/-- Does an access of a privilege touch a poisoned word (R480)? Below M an access to a hardware area reaches no word (R63). -/
def State.locBad (s : State) (lpn priv off n : Nat) : Bool :=
  !(priv != 2 && hwArea (s.proc lpn).lmmap off) && s.badWords.any fun a => winAddr lpn off < a + 8 && a < winAddr lpn (off + n)

/-- Is a word full (R65)? The words of the hardware areas are full below M (R63). -/
def State.isFull (s : State) (lpn priv off : Nat) : Bool :=
  (priv != 2 && hwArea (s.proc lpn).lmmap off) || !(s.empty.contains (winAddr lpn (off / 8 * 8)))

/-- Sets the full bit of a word. A word that becomes empty sets its page's used bit: all words of a page whose bit is clear are
full (R64). -/
def State.setFull (s : State) (lpn off : Nat) (b : Bool) : State :=
  let a := winAddr lpn (off / 8 * 8)
  if b then { s with empty := s.empty.filter fun x => x != a }
  else { s with empty := insNat a s.empty }.modProc lpn fun p => { p with used := p.used ||| (1 <<< (off / 16384)) }

/-! ## Lines and domains (R85, R133, R139) -/

/-- Home die of a guest-physical line (R85). -/
def homeDie (n : Nat) : Nat := (n % 16) ^^^ (n / 2 ^ 16 % 16) ^^^ (n / 2 ^ 32 % 16)

/-- Home slice of a guest-physical line within its die (R85). -/
def homeSlice (n : Nat) : Nat := (n / 2 ^ 4 % 512) ^^^ (n / 2 ^ 21 % 512) ^^^ (n / 2 ^ 30 % 512)

/-- Set of a guest-physical line within its slice (R85). -/
def homeSet (n : Nat) : Nat := (n / 2 ^ 13 % 128) ^^^ (n / 2 ^ 20 % 128)

/-- The module-wide number of the home slice: die × 512 + slice. -/
def sliceOf (n : Nat) : Nat := homeDie n * 512 + homeSlice n

/-- Domain number of a core of this module (R139). -/
def State.coreDom (s : State) (c : Nat) : Nat := s.module * 16384 + 8192 + c

/-- The domain a line belongs to (R139). -/
def State.domOf (s : State) : Line → Nat
  | .paged _ n => s.module * 16384 + homeDie n
  | .loc lpn _ => s.coreDom (s.hostOf lpn)

/-- A domain's arbiter. -/
def State.dom (s : State) (d : Nat) : Dom := spGet Dom.init s.doms d

/-- Changes a domain's arbiter. -/
def State.modDom (s : State) (d : Nat) (f : Dom → Dom) : State :=
  { s with doms := spPut s.doms d (f (s.dom d)) }

/-- Must a step that writes a line wait for a commit that another party holds (R140, R143)? -/
def State.lineHeld (s : State) (l : Line) (by_ : Option Who) : Bool :=
  (s.dom (s.domOf l)).held.any fun h => some h.who != by_ && (h.solo || h.reads.contains l || h.writes.contains l)

/-! ## Registers written outside a bundle's own writes -/

/-- Register r of a checkpointed register set. -/
def Arch.rd (a : Arch) (r : Reg) : W64 := a.regs[r.toNat]'(r.isLt)

/-- Writes register r and sets its full bit; g0 discards (R166, R201). -/
def Arch.wr (a : Arch) (r : Reg) (v : W64) : Arch :=
  if r = 0 then a else { a with regs := a.regs.set r.toNat v (r.isLt), full := a.full ||| (1#32 <<< r.toNat) }

/-- Writes register r without touching its full bit. -/
def Arch.wrKeep (a : Arch) (r : Reg) (v : W64) : Arch :=
  if r = 0 then a else { a with regs := a.regs.set r.toNat v (r.isLt) }

/-- Clears the full bit of register r; g0 is always full. -/
def Arch.clearF (a : Arch) (r : Reg) : Arch :=
  if r = 0 then a else { a with full := a.full &&& ~~~(1#32 <<< r.toNat) }

/-- Full bit of register r. -/
def Arch.isF (a : Arch) (r : Reg) : Bool := a.full.getLsbD r.toNat

/-! ## Waiting and waking (R159) -/

/-- Makes a waiting thread ready; its bundle reissues. -/
def State.wake (s : State) (w : Who) : State :=
  s.modSlot w fun t => if t.st = .waiting then { t with st := .ready } else t

/-- The thread leaves the rotation for a wait. Its limit is counted in its core's cycles from the first issue of the bundle and ends
with an event; a wait of the same kind that goes on after a reissue keeps its identity (R68, R228, R260). -/
def State.startWait (s : State) (w : Who) (k : WaitKind) (limit : Nat) (addr : W64)
    (expiry : Nat → Option Ev) : State :=
  let t := s.slot w
  let now := (s.proc w.lpn).time
  if t.wait.any fun x => x.kind = k then s.modSlot w fun t => { t with st := .waiting }
  else
    let since := t.issued.getD now
    let id := s.nextId
    let s := s.fresh.modSlot w fun t =>
      { t with st := .waiting, wait := some { kind := k, id := id, since := since, limit := limit, addr := addr } }
    match expiry id with
    | some e => s.after (.proc w.lpn) (limit - (now - since)) e
    | none => s

/-- Ends a wait for good. -/
def State.endWait (s : State) (w : Who) : State := s.modSlot w fun t => { t with wait := none }

/-- Wakes every thread of a process that waits for one of the kinds a test accepts. -/
def State.wakeAll (s : State) (lpn : Nat) (p : WaitKind → Bool) : State :=
  s.modProc lpn fun q =>
    { q with slots := spMap q.slots fun _ t =>
        match t.wait with
        | some x => if t.st = .waiting && p x.kind then { t with st := .ready } else t
        | none => t }

/-! ## Landings (R164 to R168) -/

/-- Is a result still awaited? -/
def Landing.open (l : Landing) : Bool := l.res = .pending

/-- A new chunk whose checkpoint is the slot's registers. -/
def Slot.newChunk (t : Slot) : Chunk :=
  { start := t.arch, count := 0, reads := [], writes := [], touch := [], stores := [], pushes := [], pops := [], ended := false,
    endId := 0, last := false }

/-- The slot with a running chunk: the one it has, or a new one. -/
def Slot.openChunk (t : Slot) : Slot :=
  match t.chunk with
  | some _ => t
  | none => { t with chunk := some t.newChunk }

/-- A push to a view register joins the running chunk (R137, R312). -/
def Slot.push (t : Slot) (n : Nat) (v : W64) (pc : BitVec 20) : Slot :=
  let t := t.openChunk
  let since := t.issued.getD (t.lastIssue.getD 0)
  { t with chunk := t.chunk.map fun c => { c with pushes := c.pushes ++ [{ view := n, val := v, pc := pc, since := since }] } }

/-- Lands one entry: writes its destination and sets F when no other entry for it remains; a fault becomes due
(R165 to R168, R323). -/
def Slot.landOne (t : Slot) (l : Landing) : Slot :=
  let t := match l.dst, l.res with
    | .push _, .value _ => t.openChunk
    | _, _ => t
  let rest := t.arch.landing.filter fun e => e.id != l.id
  let t := { t with arch := { t.arch with landing := rest } }
  match l.res with
  | .pending => t
  | .value v =>
    match l.dst with
    | .g r =>
      if rest.any (fun e => e.dst = .g r) then { t with arch := t.arch.wrKeep r v }
      else { t with arch := t.arch.wr r v }
    | .h n => { t with hbank := t.hbank.set n.toNat v (n.isLt) }
    | .push n => t.push n v l.pc
  | .trap code seg reason addr =>
    { t with due := t.due ++ [{ code := code, seg := seg, reason := reason, addr := addr, pc := l.pc, prog := 0,
                                p := false, deferred := false, keep := false }] }

/-- Lands the given entries in issue order. -/
def Slot.land (t : Slot) (ls : List Landing) : Slot := ls.foldl Slot.landOne t

/-- Closes the windows that end before bundle n (R165). -/
def Slot.closeWindows (t : Slot) (n : Nat) : Slot :=
  t.land (t.arch.landing.filter fun l => l.closeAt ≤ n && !l.open)

/-- Is a window that ends before bundle n still waiting for its result (R165)? -/
def Slot.windowWaits (t : Slot) (n : Nat) : Bool := t.arch.landing.any fun l => l.closeAt ≤ n && l.open

/-- Puts a result into the entries with an identity. -/
def setRes (id : Nat) (r : Landed) (ls : List Landing) : List Landing :=
  mapIf (fun l => l.id == id) (fun l => { l with res := r }) ls

/-- A result arrives: it is held in its entry, in the checkpoints too, so that a re-run lands it at the same place
(R137, R165). -/
def Slot.arrive (t : Slot) (id : Nat) (r : Landed) : Slot :=
  let fix (a : Arch) : Arch := { a with landing := setRes id r a.landing }
  { t with arch := fix t.arch,
           chunk := t.chunk.map fun c => { c with start := fix c.start },
           commit := t.commit.map fun c => { c with chunk := { c.chunk with start := fix c.chunk.start } } }

/-! ## Chunks (R132 to R143) -/

/-- Ends the running chunk: it becomes the committing one, or waits for the commit before it; one that falls empty is not
formed (R134, R138). -/
def State.endChunk (s : State) (w : Who) : State :=
  let t := s.slot w
  match t.chunk with
  | none => s
  | some c =>
    if c.count = 0 && c.pushes.isEmpty && c.pops.isEmpty then s.modSlot w fun t => { t with chunk := none } else
    let c := { c with ended := true, endId := s.nextId }
    match t.commit with
    | some _ => s.modSlot w fun t => { t with chunk := some c }
    | none =>
      (s.modSlot w fun t => { t with chunk := none, commit := some { chunk := c, st := .waiting, owns := [], pinWait := none, begun := false } }).post
        (.chunkCommit w.lpn w.slot)

/-- Nothing of the thread is uncommitted (R144). -/
def Slot.settled (t : Slot) : Bool := t.chunk.isNone && t.commit.isNone

/-- Removes a thread's commit from every arbiter, from those held and those queued (R141). -/
def State.releaseAll (s : State) (w : Who) : State :=
  { s with doms := spMap s.doms fun _ d =>
      { held := d.held.filter fun h => h.who != w, queue := d.queue.filter fun h => h.who != w } }

/-- Frees the watch entries of a thread but those of the lines that a chunk of it which stays has read (R145). -/
def State.unwatch (s : State) (w : Who) (stay : List Line) : State :=
  let free (e : Line × Who) : Bool := e.2 = w && !(stay.contains e.1)
  { s with cores := spMap s.cores fun _ c => { c with watch := c.watch.filter fun e => !free e },
           slices := spMap s.slices fun _ x => { x with watch := x.watch.filter fun e => !free e } }

/-- Lets every arbiter's queue be tried again, in order. -/
def State.retryDoms (s : State) : State :=
  s.postAll (s.doms.flatMap fun d => d.2.queue.map fun h => .domainAcquire d.1 h.who.lpn h.who.slot)

/-- Has a committing chunk been admitted everywhere, so that it is no longer squashed (R142)? -/
def Committing.safe (c : Committing) : Bool :=
  match c.st with
  | .applying _ => true
  | _ => false

/-- Does a trap that is due survive a squash: it came from outside the chunks that are undone? -/
def Due.stays (d : Due) : Bool := d.deferred || d.keep

/-- The slot at a checkpoint: what its chunks after it did is undone, and their waits end (R137). -/
def Slot.backTo (t : Slot) (a : Arch) : Slot :=
  { t with arch := a, chunk := none, grants := [], fetch := [], precise := false, issued := none, arrived := false, sdesc := none, fence := [],
           st := if t.st = .waiting then .ready else t.st, wait := none, latch := none, due := t.due.filter Due.stays }

/-- The model's own line for the queue of a receive channel: taking its head is a step of the core's domain, which a commit with a
tentative pop of g31 makes too (R137, R254, R269; log 13). -/
def popLine (lpn k : Nat) : Line := .loc lpn (4096 + k)

/-- The queue whose messages a chunk of a thread popped. -/
def State.popLines (s : State) (w : Who) (c : Chunk) : List Line :=
  if c.pops.contains 4 then [popLine w.lpn (fld 3 1 (s.slot w).regs.pipecfg)] else []

/-- Every line that a chunk acquires for its commit. -/
def State.linesOf (s : State) (w : Who) (c : Chunk) : List Line := c.reads ++ c.writes ++ s.popLines w c

/-- Lines that the committing chunk has read. -/
def Slot.commitReads (t : Slot) : List Line :=
  match t.commit with
  | some c => c.chunk.reads
  | none => []

/-- Squashes a thread's uncommitted chunks, both of them: the registers return to the older checkpoint, and after a fourth
consecutive squash the next attempt runs in solo mode (R137, R138, R142, R143). The handler bank keeps what the run wrote (log 64). -/
def State.squash (s : State) (w : Who) : State :=
  let t := s.slot w
  let restore : Option (Arch × List Line) :=
    match t.commit, t.chunk with
    | some c, _ => some (c.chunk.start, s.linesOf w c.chunk)
    | none, some c => some (c.start, s.linesOf w c)
    | none, none => none
  match restore with
  | none => s
  | some (a, ls) =>
    (((s.releaseAll w).unwatch w []).modSlot w fun t =>
      { t.backTo a with commit := none, squashes := t.squashes + 1, lastSets := ls,
                        solo := if t.squashes + 1 ≥ 4 then some [] else none }).retryDoms

/-- Squashes only the running chunk, when the committing one stays; the commit of that one will clear the count (R138,
R143). -/
def State.squashRun (s : State) (w : Who) : State :=
  let t := s.slot w
  match t.chunk with
  | none => s
  | some c =>
    (s.unwatch w t.commitReads).modSlot w fun t =>
      { t.backTo c.start with squashes := t.squashes + 1, lastSets := if t.commit.isSome then t.lastSets else s.linesOf w c }

/-- Runs the chunk of a bundle again from its checkpoint, to end before that bundle: no squash, and a solo attempt keeps its
domains (R134, R143, R145). -/
def State.rerun (s : State) (w : Who) (bno : Nat) (why : Cut) : State :=
  let t := s.slot w
  let back (s : State) (a : Arch) : State := s.modSlot w fun t => { t.backTo a with cut := some (bno, why) }
  match t.chunk, t.commit with
  | some r, c =>
    if r.start.bno ≤ bno then back (s.unwatch w t.commitReads) r.start
    else match c with
      | some c => back ((s.unwatch w []).modSlot w fun t => { t with commit := none }) c.chunk.start
      | none => s
  | none, some c => back ((s.unwatch w []).modSlot w fun t => { t with commit := none }) c.chunk.start
  | none, none => s

/-- Does the slot's attempt run in solo mode with its domains held (R143)? -/
def Slot.soloHeld (t : Slot) : Bool :=
  match t.solo with
  | some (_ :: _) => true
  | _ => false

/-- Squashes those uncommitted chunks of a thread that a test accepts, with what follows them: never one that has been admitted
at every domain, nor a solo attempt (R142, R143). -/
def State.squashIf (s : State) (w : Who) (p : Chunk → Bool) : State :=
  let t := s.slot w
  match t.commit with
  | some c =>
    if !c.safe && !t.soloHeld && p c.chunk then s.squash w
    else match t.chunk with
      | some r => if p r then s.squashRun w else s
      | none => s
  | none =>
    match t.chunk with
    | some r => if !t.soloHeld && p r then s.squash w else s
    | none => s

/-- One thread's part in a write of a line: its uncommitted chunks whose read set holds the line are squashed (R142). -/
def State.squashOn (s : State) (l : Line) (w : Who) : State := s.squashIf w fun c => c.reads.contains l

/-- Drops what threads were granted of a line that is written before they used it (R136, R145). -/
def State.dropGrants (s : State) (l : Line) : State :=
  match l with
  | .paged v n =>
    { s with procs := spMap s.procs fun _ p =>
        { p with slots := spMap p.slots fun _ t => { t with grants := t.grants.filter fun g => !(g.vmid == v && g.gpa / 256 == n) } } }
  | .loc _ _ => s

/-- A step writes a line: every reader but the writer is squashed (R142). -/
def State.squashReaders (s : State) (l : Line) (but : Option Who) : State :=
  let s := s.dropGrants l
  (s.threads.filter fun w => some w != but).foldl (fun s w => s.squashOn l w) s

/-- The 256-byte block of a local offset (R133). -/
def locLine (lpn off : Nat) : Line := .loc lpn (off / 256)

/-! ## Traps (R322, R331) -/

/-- Trap codes (R323). -/
def cILLOP : Nat := 1
/-- PRIV. -/
def cPRIV : Nat := 2
/-- SEGV. -/
def cSEGV : Nat := 3
/-- ALIGN. -/
def cALIGN : Nat := 4
/-- XLATE. -/
def cXLATE : Nat := 5
/-- POISON. -/
def cPOISON : Nat := 6
/-- WAITTO. -/
def cWAITTO : Nat := 7
/-- BARTO. -/
def cBARTO : Nat := 8
/-- GANGTO. -/
def cGANGTO : Nat := 9
/-- SENDSTALL. -/
def cSENDSTALL : Nat := 10
/-- MASKOVR. -/
def cMASKOVR : Nat := 11
/-- GROUPOVF. -/
def cGROUPOVF : Nat := 12
/-- ACCOVF. -/
def cACCOVF : Nat := 13
/-- ACCIND. -/
def cACCIND : Nat := 14
/-- SVC. -/
def cSVC : Nat := 15

/-- A trap to take at a bundle. -/
def mkDue (code seg reason : Nat) (addr : W64) (pc : BitVec 20) : Due :=
  { code := code, seg := seg, reason := reason, addr := addr, pc := pc, prog := 0, p := false, deferred := false, keep := false }

/-- TCAUSE from its fields (R320). -/
def causeWord (t : Due) : W64 :=
  w64 (t.code % 256 + t.seg % 8 * 256 + t.reason % 8 * 2048 + (if t.deferred then 16384 else 0) +
    (if t.p then 32768 else 0))

/-- FAULTLOG after a trap with T = 1: LASTC and DBL (R322, R334). -/
def logDouble (code : Nat) (v : W64) : W64 := setFld 55 48 code (setFld 47 40 (min 255 (fld 47 40 v + 1)) v)

/-- Halts a slot and sends the halt record (R159, R322). -/
def State.halt (s : State) (w : Who) (code : Nat) : State :=
  (s.modSlot w fun t => { t with st := .halted, wait := none, latch := none, issued := none, arrived := false, sdesc := none, fence := [] }).record (.halt w code)

/-- TAKING A TRAP (R322), once every landing has landed and every chunk before the bundle has committed. With T = 1
the slot halts and the trap registers keep the first trap. Otherwise the cause, address, PC and progress are
recorded; with EN = 0 the slot halts; else SP ← PRIV, T ← 1, PRIV ← max(PRIV, EP) and PC ← OFF × 8. MASKOVR clears MC
(R275). -/
def State.enterTrap (s : State) (w : Who) (t : Due) : State :=
  let x := s.slot w
  if x.inTrap then
    ((s.modCore (s.hostOf w.lpn) fun c => { c with faultlog := logDouble t.code c.faultlog }).halt w t.code)
  else
    let s := s.modSlot w fun x =>
      { x with regs := { x.regs with tcause := causeWord t, taddr := t.addr, tpc := t.pc.zeroExtend 64, tprog := t.prog },
               stage := none, resume := false, issued := none, arrived := false, sdesc := none, fence := [], st := if x.st = .waiting then .ready else x.st, wait := none, latch := none,
               due := [], later := x.later ++ x.due }
    if !(tb 0 x.regs.trapvec) then s.halt w t.code
    else
      let pcv : BitVec 20 := BitVec.ofNat 20 (fld 19 3 x.regs.trapvec * 8)
      let ctl := setFld 4 3 (fld 1 0 x.regs.slotctl)
        (setFld 2 2 1 (setFld 1 0 (max (fld 1 0 x.regs.slotctl) (fld 2 1 x.regs.trapvec)) x.regs.slotctl))
      let s := s.modSlot w fun x =>
        { x with regs := { x.regs with slotctl := ctl, uistat := if t.code = 11 then setFld 63 48 0 x.regs.uistat else x.regs.uistat },
                 arch := { x.arch with pc := pcv, past := false }, fetch := [] }
      if w = s.cur then { s with npc := pcv, taken := true } else s

/-- May a trap be entered now: every landing has its result and no chunk is uncommitted (R168, R322)? -/
def Slot.canTrap (t : Slot) : Bool := t.arch.landing.all (fun l => !l.open) && t.settled

/-- The state in which a thread's landings have all landed (R168). -/
def Slot.landAll (t : Slot) : Slot := t.land t.arch.landing

/-- Takes the first trap that is due, if it may be entered and the slot is not halted; a landing that lands for it may add another.
SENDSTALL names the bundle at which the slot then waits (R323). -/
def State.takeDue (s : State) (w : Who) : State :=
  let t := s.slot w
  match t.due with
  | [] => s
  | d :: rest =>
    let d := if d.code = cSENDSTALL then { d with pc := t.arch.pc } else d
    if t.canTrap && t.st != SlotSt.halted then ((s.modSlot w fun t => ({ t with due := rest }).landAll)).enterTrap w d
    else s

/-- Makes a trap due at the thread and takes it as soon as it may be entered: the running chunk ends before the
bundle (R134, R322). -/
def State.raiseFor (s : State) (w : Who) (d : Due) : State :=
  let s := s.modSlot w fun t =>
    { t with due := t.due ++ [d], st := if t.st = .waiting then .ready else t.st, wait := none, latch := none }
  (s.endChunk w).takeDue w

/-- A trap of the bundle that is performed: nothing more of it is performed. A chunk that held only this bundle is
not formed. -/
def State.raiseDue (s : State) (d : Due) : State :=
  let s := s.modMe fun t =>
    { t with chunk := match t.chunk with
        | some c => if c.count = 0 && c.pushes.isEmpty && c.pops.isEmpty then none else some c
        | none => none }
  { s.raiseFor s.cur d with bst := .stop }

/-- A trap of the bundle that is performed, from its fields. -/
def State.raise (s : State) (code seg reason : Nat) (addr : W64) : State :=
  s.raiseDue (mkDue code seg reason addr s.me.arch.pc)

/-- The bundle at a thread's PC, word B in the high half: as it stands in memory, or, at a free choice, as one of the reads
ahead of the last four bundles found it (R79; log 14). -/
def State.bundleAt (s : State) (w : Who) : W64 :=
  let t := s.slot w
  let m := w64 (s.locRead w.lpn t.priv t.arch.pc.toNat 8)
  match t.fetch.filter fun e => e.1 == t.arch.pc && t.arch.bno ≤ e.2.2 + 4 && e.2.1 != m with
  | [] => m
  | l =>
    match l[Config.fetchAhead s.free % (l.length + 1)]? with
    | some e => e.2.1
    | none => m

/-- An instruction that is refused as illegal: ILLOP with the bundle in TADDR (R181). -/
def State.illop (s : State) : State := s.raise cILLOP 0 0 s.bword

/-- RETURNING FROM A TRAP (R331), after its checks: PRIV ← SP, T ← 0, PC ← TPC, a resume issue is armed, and P is
cleared (R325). -/
def State.leaveTrap (s : State) : State :=
  let t := s.me
  let pcv : BitVec 20 := BitVec.ofNat 20 (t.regs.tpc.toNat / 8 * 8)
  let s := s.modMe fun t =>
    { t with regs := { t.regs with slotctl := setFld 2 2 0 (setFld 1 0 (fld 4 3 t.regs.slotctl) t.regs.slotctl),
                                   tcause := setFld 15 15 0 t.regs.tcause },
             resume := tb 15 t.regs.tcause, fetch := [],
             due := t.due ++ t.later, later := [] }
  { s with npc := pcv, taken := true }

/-! ## Parking (R50, R326) -/

/-- The dwords of a translation fault record (R50), with the sequence number it will take. -/
def faultDwords (s : State) (kind level acc user sub vmid job core slot la gpa : Nat) : List W64 :=
  [w64 (kind % 8 + level % 8 * 8 + acc % 4 * 64 + user % 2 * 256 + sub % 8 * 512 + vmid % 256 * 2 ^ 16 +
      job % 65536 * 2 ^ 24 + core % 2 ^ 19 * 2 ^ 40 + slot % 16 * 2 ^ 59),
   w64 (la % 2 ^ 56), w64 (gpa % 2 ^ 48), w64 s.imago.seq.toNat]

/-- A translation fault found for an access. -/
structure XFault where
  kind : Nat
  level : Nat
  sub : Nat
  gpa : Nat
  deriving DecidableEq, Repr

/-- Sends a translation fault record with its user bit and opens it for an answer (R50, R326). -/
def State.openFaultAs (s : State) (w : Who) (eng : Option Nat) (slot acc user : Nat) (f : XFault) (la : Nat) : State :=
  let p := s.proc w.lpn
  let d := faultDwords s f.kind f.level acc user f.sub p.vmid p.job (s.coreNumber p.core) slot la f.gpa
  let pk : Parked := { seq := s.imago.seq, kind := f.kind, vmid := p.vmid, who := w, engine := eng, la := w64 la }
  let s := s.record (.fault d)
  { s with imago := { s.imago with parked := s.imago.parked ++ [pk] } }

/-- Sends the record for an access of a thread. -/
def State.openFault (s : State) (w : Who) (eng : Option Nat) (slot acc : Nat) (f : XFault) (la : Nat) : State :=
  s.openFaultAs w eng slot acc (if (s.slot w).priv = 0 then 1 else 0) f la

/-- Parks a thread on a translation fault: the chunk before the bundle ends, and once every chunk has committed the slot leaves
the rotation and the record goes to Imago; until then the access is tried again after the commit (R146, R326). -/
def State.parkThread (s : State) (w : Who) (acc : Nat) (f : XFault) (la : Nat) : State :=
  let s := s.endChunk w
  if (s.slot w).settled then
    let seq := s.imago.seq
    (s.openFault w none w.slot acc f la).modSlot w fun t => { t with st := .parked, park := some seq, wait := none, latch := none, issued := none, arrived := false, sdesc := none, fence := [] }
  else (s.startWait w .commit 0 0 fun _ => none).modSlot w fun t => { t with latch := none }

/-- Parks the thread whose bundle is performed. -/
def State.parkMe (s : State) (acc : Nat) (f : XFault) (la : Nat) : State :=
  { s.parkThread s.cur acc f la with bst := .stop }

end Sys2Proof.Machine
end

