-- ==== Sys2Proof/Machine/Operands.lean ====
section
/-!
DEFINITION. The operand forms: register fields with the handler bank and the view registers (R178, R214, R272), guards
and predicates (R179, R210), the offsets of the memory formats (R183, R184), the segment check (R18), landing entries
(R164 to R166), and the two ways in which the running bundle waits.
-/

namespace Sys2Proof.Machine

/-! ## Where a register field leads (R214, R272) -/

/-- What a register field names for its slot. -/
inductive Field where
  /-- A general register. -/
  | gen
  /-- A register of the handler bank, while H = 1. -/
  | bank (n : BitVec 3)
  /-- A stream register. -/
  | stream (n : Nat)
  /-- g30 under the pipeline view. -/
  | down
  /-- g31 under the pipeline view. -/
  | up
  deriving DecidableEq, Repr

/-- Resolves a register field (R214, R268, R272, R310). -/
def Slot.field (t : Slot) (r : Reg) : Field :=
  if t.inUser then (if r.toNat < 24 then .gen else .bank (BitVec.ofNat 3 (r.toNat - 24)))
  else if tb 0 t.regs.strview && 24 ≤ r.toNat && r.toNat < 28 then .stream (r.toNat - 24)
  else if tb 0 t.regs.pipecfg && r.toNat = 30 then .down
  else if tb 0 t.regs.pipecfg && r.toNat = 31 then .up
  else .gen

/-- The destination that a landing into a field has. -/
def Slot.dst (t : Slot) (r : Reg) : Dst :=
  match t.field r with
  | .bank n => .h n
  | .stream n => .push n
  | .down => .push 4
  | _ => .g r

/-- Writes a field of the slot (R166, R214). -/
def Slot.wrField (t : Slot) (r : Reg) (v : W64) : Slot :=
  match t.field r with
  | .gen => { t with arch := t.arch.wr r v }
  | .bank n => { t with hbank := t.hbank.set n.toNat v (n.isLt) }
  | .stream n => t.push n v t.arch.pc
  | .down => t.push 4 v t.arch.pc
  | .up => t

/-! ## Reads and writes of the running bundle (R178) -/

/-- An operand as it was read at the start of the bundle; g0 reads 0 (R178, R201). -/
def State.rd (s : State) (r : Reg) : W64 := if r = 0 then 0 else s.opnd[r.toNat]'(r.isLt)

/-- Operand b: the register or the sign-extended extension (R188). -/
def State.rdB (s : State) (r : Reg) (x : Option W32) : W64 :=
  match x with
  | some e => extVal e
  | none => s.rd r

/-- A guard or predicate as it was read at the start of the bundle; p0 is true (R179). -/
def State.guard (s : State) (g : Sys2Proof.Pred) : Bool := g == 0 || s.opw.getLsbD g.toNat

/-- Writes a register of the current thread. -/
def State.wr (s : State) (r : Reg) (v : W64) : State := s.modMe fun t => t.wrField r v

/-- Writes a predicate of the current thread; p0 discards (R189, R209). -/
def State.wrPred (s : State) (p : Sys2Proof.Pred) (b : Bool) : State :=
  if p = 0 then s else
  s.modMe fun t =>
    { t with arch := { t.arch with pw := if b then t.arch.pw ||| (1#8 <<< p.toNat) else t.arch.pw &&& ~~~(1#8 <<< p.toNat) } }

/-- A word whose guard is true acts; the other does nothing (R179). -/
def State.when (s : State) (g : Sys2Proof.Pred) (f : State → State) : State := if s.guard g then f s else s

/-! ## Offsets (R183, R184) -/

/-- A byte offset from a short field or an extension. -/
def shortOff (field size : Nat) (x : Option W32) : W64 :=
  match x with
  | some e => extVal e
  | none => w64 (field * size)

/-- AM: base register plus offset. -/
def State.offAM (s : State) (r : AM) (size : Nat) : W64 := s.rd r.a + shortOff r.o.toNat size r.x

/-- AS: base register plus offset. -/
def State.offAS (s : State) (r : AS) (size : Nat) : W64 := s.rd r.a + shortOff r.off.toNat size r.x

/-- AX: scaled index plus the extension. -/
def State.offAX (s : State) (r : AX) : W64 := s.rd r.a * w64 (2 ^ r.sz.toNat) + shortOff 0 1 r.x

/-- AQ: base register plus the extension. -/
def State.offAQ (s : State) (r : AQ) : W64 := s.rd r.a + shortOff 0 1 r.x

/-- AA: base register plus the 16-bit signed offset (R184). -/
def State.offAA (s : State) (r : AA) : W64 := s.rd r.a + r.off.signExtend 64

/-! ## The segment check (R18) -/

/-- What a segment check answers. -/
inductive Seek where
  /-- An address of the paged region. -/
  | paged (la : Nat)
  /-- An address of the core window. -/
  | window (la : Nat)
  /-- A trap: code, segment, reason, TADDR. -/
  | bad (code seg reason : Nat) (addr : W64)
  /-- The placement of this LPN must be asked of the arbiter first (R433). -/
  | ask (lpn : Nat)
  deriving DecidableEq, Repr

/-- LPN of a window address (R9), and Imago's key for an address of its own local memory (log 11). -/
def lpnOf (la : Nat) : Nat := (la - Config.wbase) / 2 ^ 20

/-- Offset of a window address (R9). -/
def offOf (la : Nat) : Nat := la % 2 ^ 20

/-- What PlacementLookup finds: the host's core, the need to ask the arbiter, or no entry (R433; log 20). -/
inductive Found where
  | host (core : Nat)
  | ask
  | none
  deriving DecidableEq, Repr

/-- PlacementLookup (R433). A core needs no entry for the LPN it hosts (log 20). -/
def State.placeLookup (s : State) (core lpn : Nat) : Found :=
  if (s.core core).host = lpn then .host core else
  match (s.core core).pcache.find? fun e => e.1 == lpn with
  | some e => .host e.2
  | none => if spHas s.place lpn then .ask else .none

/-- SegCheck (R18) of a segment value; `n` is its number, `align` is 0 for kind tile. Imago reaches its own local memory through
sg0 (log 11). -/
def State.segCheck (s : State) (core : Nat) (g : BitVec 128) (n off size need : Nat) (sync : Bool) (align : Nat) : Seek :=
  let own : Bool := n = 0 && (s.core core).host = Config.imagoLpn
  let la := (if own then 2 ^ 56 else segBase g) + off
  if !segHas g need then .bad cSEGV n 0 (w64 la)
  else if off > segLimit g || off + size - 1 > segLimit g then .bad cSEGV n 1 (w64 la)
  else if !own && la + size - 1 ≥ 2 ^ 56 then .bad cSEGV n 2 (w64 la)
  else if align != 0 && la % align != 0 then .bad cALIGN 0 0 (w64 la)
  else if la + size - 1 < 2 ^ 55 then (if sync then .bad cSEGV n 6 (w64 la) else .paged la)
  else if Config.wbase ≤ la && lpnOf la = lpnOf (la + size - 1) then
    match s.placeLookup core (lpnOf la) with
    | .host _ => .window la
    | .ask => .ask (lpnOf la)
    | .none => .bad cSEGV n 4 (w64 la)
  else .bad cSEGV n 3 (w64 la)

/-- SegCheck for the current thread's access through segment n, aligned to its size. -/
def State.seek (s : State) (n : Seg) (off : W64) (size need : Nat) (sync : Bool) : Seek :=
  s.segCheck (s.hostOf s.cur.lpn) (s.seg s.cur n.toNat) n.toNat off.toNat size need sync size

/-! ## Waiting of the running bundle -/

/-- The thread waits and its bundle will issue anew (R159). -/
def State.waitAgain (s : State) (k : WaitKind) (limit : Nat) (addr : W64) (ev : Nat → Option Ev) : State :=
  { s.startWait s.cur k limit addr ev with bst := .stop }

/-- Cycles since the first issue of the bundle (R68). -/
def State.elapsed (s : State) : Nat :=
  match s.me.issued with
  | some t => s.myProc.time - t
  | none => 0

/-- Has a wait of the bundle that is taken up again run out its limit? -/
def State.waitOver (s : State) (k : WaitKind) : Bool :=
  match s.me.wait with
  | some x => x.kind = k && x.limit ≤ s.myProc.time - x.since
  | none => false

/-- The thread waits in place: when it is served, word A is complete and word B follows. -/
def State.hold (s : State) (k : WaitKind) (limit : Nat) (addr : W64) (d : Reg) (ev : Nat → Option Ev) : State :=
  let s := s.startWait s.cur k limit addr ev
  let l : Latch := { pc := s.me.arch.pc, bundle := s.bword, opnd := s.opnd, pw := s.opw, rm := s.orm, d := d, seg := s.useg,
                     pops := s.bpops }
  { s.modMe fun t => { t with latch := some l } with bst := .hold }

/-- The limit WAITLIM of a thread's wait (R229), in cycles. -/
def State.waitlim (s : State) : Nat := fld 31 0 s.me.regs.waitlim

/-- The event that ends a wait at WAITLIM. -/
def waitlimEv (w : Who) (id : Nat) : Option Ev := some (.waitlimExpiry w.lpn w.slot id)

/-- PRIV at the bundle that is performed; the value its TADDR takes is free (R320, R323; log 19). -/
def State.raisePriv (s : State) : State := s.tick.raise cPRIV 0 0 (Config.freeDword s.free)

/-- Asks the arbiter for a placement and waits for the answer (R433). -/
def State.askPlace (s : State) (lpn : Nat) : State :=
  (s.waitAgain .lookup 0 0 fun _ => none).post (.placementLookup (s.hostOf s.cur.lpn) lpn)

/-- What follows a segment check of segment n: its trap, its question to the arbiter, or the access. -/
def State.onSeek (s : State) (n : Seg) (k : Seek) (paged window : Nat → State → State) : State :=
  let s := { s with useg := n.toNat }
  match k with
  | .paged la => paged la s
  | .window la => window la s
  | .bad c g r a => s.raise c g r a
  | .ask lpn => s.askPlace lpn

/-- What must end before a trap, a delivery or a boundary operation: the running chunk ends, and the thread waits for its
commits and its results (R134, R144, R168). -/
def State.whenSettled (s : State) (f : State → State) : State :=
  let s := s.endChunk s.cur
  if !s.me.settled then s.waitAgain .commit 0 0 fun _ => none
  else if s.me.arch.landing.any Landing.open then s.waitAgain .landing 0 0 fun _ => none
  else f s

/-- Has a swap of the current thread's core been accepted and not ended (R446, R448)? -/
def State.swapping (s : State) : Bool := s.myCore.swap.isSome

/-! ## Landing entries (R164 to R166) -/

/-- Are all four entries of the landing buffer taken (R164)? -/
def Slot.landFull (t : Slot) : Bool := 4 ≤ t.arch.landing.length

/-- A long-latency instruction needs an entry before it acts; without one its thread waits (R164; log 31). -/
def State.withEntry (s : State) (f : State → State) : State :=
  if s.me.landFull then s.waitAgain .landing 0 0 fun _ => none else f s

/-- Takes an entry for a result under the next identity, and clears F of its destination (R164, R166). -/
def State.openLand (s : State) (d : Reg) (la : Nat) (res : Landed) (addr : W64) (sync : Bool) : State :=
  let id := s.nextId
  s.fresh.modMe fun t =>
    let e : Landing := { id := id, dst := t.dst d, closeAt := t.arch.bno + la + 1, res := res, pc := t.arch.pc,
                         bno := t.arch.bno, addr := addr, seg := s.useg, sync := sync }
    let a := { t.arch with landing := t.arch.landing ++ [e] }
    { t with arch := if t.field d = .gen then a.clearF d else a }

end Sys2Proof.Machine
end

