-- ==== Sys2Proof/Machine/Flags.lean ====
section
/-!
DEFINITION. The float formats (R279 to R281), the exact values they stand for, the one rounding of R286 with the flags
it raises, the canonical NaNs (R280), and the flags of FCSR (R288, R289).
-/

namespace Sys2Proof.Machine

/-! ## The flags of FCSR (R288) -/

/-- Inexact, FCSR bit 5. -/
def fNX : Nat := 0x20
/-- Underflow, FCSR bit 6. -/
def fUF : Nat := 0x40
/-- Overflow, FCSR bit 7. -/
def fOF : Nat := 0x80
/-- Division by zero, FCSR bit 8. -/
def fDZ : Nat := 0x100
/-- Invalid operation, FCSR bit 9. -/
def fNV : Nat := 0x200

/-- ORs flags into FCSR of the current thread (R289). -/
def State.raiseFlags (s : State) (f : Nat) : State :=
  s.modMe fun t => { t with arch := { t.arch with fcsr := t.arch.fcsr ||| w64 f } }

/-- Rounding mode as read at the start of the bundle (R289). -/
def State.mode (s : State) : Nat := s.orm.toNat

/-- SAT, which no float instruction writes (R288). -/
def State.sat (s : State) : Bool := s.osat

/-! ## Formats (R279) -/

/-- The float formats with their codes of R195. -/
inductive Fmt where
  | b32 | b16 | bf | e4m3 | e5m2 | t8 | t6 | e2m1
  deriving DecidableEq, Repr

/-- The format of a code 0 to 7 (R195). -/
def Fmt.ofCode (n : Nat) : Fmt :=
  match n with
  | 0 => .b32
  | 1 => .b16
  | 2 => .bf
  | 3 => .e4m3
  | 4 => .e5m2
  | 5 => .t8
  | 6 => .t6
  | _ => .e2m1

/-- Bits of an encoding. -/
def Fmt.width : Fmt → Nat
  | .b32 => 32
  | .b16 => 16
  | .bf => 16
  | .e4m3 => 8
  | .e5m2 => 8
  | .t8 => 8
  | .t6 => 6
  | .e2m1 => 4

/-- Fraction bits of a fixed-field format; of a tapered one, the largest fb (R281). -/
def Fmt.frac : Fmt → Nat
  | .b32 => 23
  | .b16 => 10
  | .bf => 7
  | .e4m3 => 3
  | .e5m2 => 2
  | .t8 => 4
  | .t6 => 2
  | .e2m1 => 1

/-- Exponent bias of a fixed-field format. -/
def Fmt.bias : Fmt → Nat
  | .b32 => 127
  | .b16 => 15
  | .bf => 127
  | .e4m3 => 7
  | .e5m2 => 15
  | .t8 => 0
  | .t6 => 0
  | .e2m1 => 1

/-- Magnitude code of the largest finite value. -/
def Fmt.maxMag : Fmt → Nat
  | .b32 => 0x7F7FFFFF
  | .b16 => 0x7BFF
  | .bf => 0x7F7F
  | .e4m3 => 0x7E
  | .e5m2 => 0x7B
  | .t8 => 127
  | .t6 => 31
  | .e2m1 => 7

/-- Is the format tapered (R281)? -/
def Fmt.tapered : Fmt → Bool
  | .t8 => true
  | .t6 => true
  | _ => false

/-- Has the format infinities (R279)? -/
def Fmt.hasInf : Fmt → Bool
  | .b32 => true
  | .b16 => true
  | .bf => true
  | .e5m2 => true
  | _ => false

/-- The canonical NaN; E2M1 has none and takes +0 (R280, R286). -/
def Fmt.canon : Fmt → Nat
  | .b32 => 0x7FC00000
  | .b16 => 0x7E00
  | .bf => 0x7FC0
  | .e4m3 => 0x7F
  | .e5m2 => 0x7E
  | .t8 => 0x80
  | .t6 => 0x20
  | .e2m1 => 0

/-- Weight of the sign bit. -/
def Fmt.signBit (f : Fmt) : Nat := 2 ^ (f.width - 1)

/-! ## Exact values -/

/-- What an encoding stands for: a NaN, an infinity, or (−1)^s × m × 2^e. -/
inductive FV where
  | nan (signalling : Bool)
  | inf (s : Bool)
  | fin (s : Bool) (m : Nat) (e : Int)
  deriving DecidableEq, Repr

/-- Number of bits of a number. -/
def bitLen (n : Nat) : Nat := if n = 0 then 0 else Nat.log2 n + 1

/-- Exponent, fraction and fraction width of a tapered magnitude code of n bits with largest width fb0, for the classes
from k leading bits on (R281). -/
def taperClass (n fb0 c : Nat) : Nat → Nat → Int × Nat × Nat
  | 0, _ => (0, 0, 0)
  | fuel + 1, k =>
    let fb := fb0 + 1 - k
    let f := c % 2 ^ fb
    let x := c / 2 ^ fb % 2
    if 2 ^ n - 2 ^ (n - k) ≤ c && c < 2 ^ n - 2 ^ (n - k - 1) then (2 * (k - 1 : Nat) + x, f, fb)
    else if 2 ^ (n - k - 1) ≤ c && c < 2 ^ (n - k) then (x - 2 * (k : Int), f, fb)
    else taperClass n fb0 c fuel (k + 1)

/-- Exponent, fraction and fraction width of a tapered magnitude code other than 0 (R281). -/
def taper (f : Fmt) (c : Nat) : Int × Nat × Nat :=
  let n := f.width - 1
  let top : Int := 2 * (f.frac + 1 : Nat)
  if c = 2 ^ n - 1 then (top + 1, 0, 0)
  else if c = 2 ^ n - 2 then (top, 0, 0)
  else if c = 1 then (-(top + 1), 0, 0)
  else taperClass n f.frac c (f.frac + 1) 1

/-- The value of an encoding (R279 to R281); bits above the width are ignored (R297). -/
def Fmt.decode (f : Fmt) (w : Nat) : FV :=
  let s : Bool := w / f.signBit % 2 = 1
  let c := w % f.signBit
  if f.tapered then
    if c = 0 then (if s then .nan false else .fin false 0 0)
    else
      let (e, fr, fb) := taper f c
      .fin s (2 ^ fb + fr) (e - fb)
  else
    let e := c / 2 ^ f.frac
    let fr := c % 2 ^ f.frac
    if c > f.maxMag then
      if f.hasInf && fr = 0 then .inf s
      else .nan (f.frac ≥ 7 && fr / 2 ^ (f.frac - 1) = 0)
    else if e = 0 then .fin s fr (1 - (f.bias : Int) - f.frac)
    else .fin s (2 ^ f.frac + fr) ((e : Int) - f.bias - f.frac)

/-! ## Rounding (R286) -/

/-- m × 2^e as a quotient and remainder by 2^q: the integer part and whether the rest is below, at or above a half
(0 exact, 1 below, 2 half, 3 above). -/
def cutAt (m : Nat) (e q : Int) : Nat × Nat :=
  if e ≥ q then (m * 2 ^ (e - q).toNat, 0)
  else
    let k := (q - e).toNat
    let r := m % 2 ^ k
    (m / 2 ^ k, if r = 0 then 0 else if 2 * r < 2 ^ k then 1 else if 2 * r = 2 ^ k then 2 else 3)

/-- Does a magnitude with this rest round up, under a mode, with its sign and the parity of what stands below (R286)? -/
def goesUp (rm : Nat) (s odd : Bool) (rest : Nat) : Bool :=
  if rest = 0 then false else
  match rm with
  | 0 => rest = 3 || (rest = 2 && odd)
  | 4 => rest ≥ 2
  | 2 => s
  | 3 => !s
  | _ => false

/-- m × 2^e rounded to an integer multiple of 2^q. -/
def roundAt (rm : Nat) (s : Bool) (m : Nat) (e q : Int) : Nat × Bool :=
  let (n, rest) := cutAt m e q
  (if goesUp rm s (n % 2 = 1) rest then n + 1 else n, rest != 0)

/-- A sign in front of a magnitude code; no negative zero in a tapered format. -/
def Fmt.signed (f : Fmt) (s : Bool) (mag : Nat) : Nat :=
  if f.tapered && mag = 0 then 0 else (if s then f.signBit else 0) + mag

/-- What an overflowing value becomes (R286). -/
def overflow (f : Fmt) (rm : Nat) (sat s : Bool) : Nat × Nat :=
  let asIeee := match f with
    | .b32 => true
    | .b16 => true
    | .bf => true
    | .e5m2 => !sat
    | _ => false
  if asIeee && (rm = 0 || rm = 4 || (rm = 2 && s) || (rm = 3 && !s)) then (f.signed s (f.maxMag + 1), fOF + fNX)
  else if f = .e4m3 && !sat then (f.canon, fNV)
  else (f.signed s f.maxMag, fOF + fNX)

/-- Rounds a non-zero magnitude to a fixed-field format (R286). -/
def roundFixed (f : Fmt) (rm : Nat) (sat s : Bool) (m : Nat) (e : Int) : Nat × Nat :=
  let emin : Int := 1 - (f.bias : Int)
  let lead : Int := e + (bitLen m : Int) - 1
  let q : Int := max lead emin - f.frac
  let (r, inexact) := roundAt rm s m e q
  let (r, q) := if r = 2 ^ (f.frac + 1) then (2 ^ f.frac, q + 1) else (r, q)
  let mag := if r < 2 ^ f.frac then r else ((q + f.frac + f.bias).toNat) * 2 ^ f.frac + (r - 2 ^ f.frac)
  if mag > f.maxMag then overflow f rm sat s
  else
    let u := (roundAt rm s m e (lead - f.frac)).1
    let tiny := lead < emin && !(lead = emin - 1 && u = 2 ^ (f.frac + 1))
    (f.signed s mag, (if inexact then fNX else 0) + (if inexact && tiny then fUF else 0))

/-- A tapered magnitude code in units of its smallest positive value (R281). -/
def taperUnits (f : Fmt) (c : Nat) : Nat :=
  if c = 0 then 0 else
  let (e, fr, fb) := taper f c
  (2 ^ fb + fr) * 2 ^ (e - fb + (2 * (f.frac + 1) + 1 : Nat)).toNat

/-- The largest code not above a magnitude of a tapered format, from code n down. -/
def taperBelow (f : Fmt) (m : Nat) (e : Int) : Nat → Nat
  | 0 => 0
  | c + 1 =>
    let x := cutAt m e (-((2 * (f.frac + 1) + 1 : Nat) : Int))
    if taperUnits f (c + 1) ≤ x.1 then c + 1 else taperBelow f m e c

/-- Rounds a non-zero magnitude to a tapered format (R286). -/
def roundTaper (f : Fmt) (rm : Nat) (s : Bool) (m : Nat) (e : Int) : Nat × Nat :=
  let unit : Int := -((2 * (f.frac + 1) + 1 : Nat) : Int)
  let c := taperBelow f m e f.maxMag
  let lo := taperUnits f c
  let x := cutAt m e unit
  if x.1 = lo && x.2 = 0 then (f.signed s c, 0)
  else if c = f.maxMag then (f.signed s c, fOF + fNX)
  else
    let hi := taperUnits f (c + 1)
    let y := cutAt (2 * m) e unit
    let rest := if y.1 < lo + hi then 1 else if y.1 = lo + hi && y.2 = 0 then 2 else 3
    let c' := if goesUp rm s (c % 2 = 1) rest then c + 1 else c
    (f.signed s c', fNX + (if c = 0 then fUF else 0))

/-- Round(v, fmt, rm) of R286 with SAT, and the flags it raises. NV for a signalling operand is the operation's own
rule and is not raised here. -/
def round (f : Fmt) (rm : Nat) (sat : Bool) : FV → Nat × Nat
  | .nan _ => (f.canon, if f = .e2m1 then fNV else 0)
  | .inf s => if f.hasInf then (f.signed s (f.maxMag + 1), 0) else (f.signed s f.maxMag, fNV)
  | .fin s m e =>
    if m = 0 then (f.signed s 0, 0)
    else if f.tapered then roundTaper f rm s m e
    else roundFixed f rm sat s m e

/-- v rounded to an integer under a mode (R297). -/
def roundInt (rm : Nat) (s : Bool) (m : Nat) (e : Int) : Int × Bool :=
  let (n, inexact) := roundAt rm s m e 0
  (if s then -(n : Int) else n, inexact)

end Sys2Proof.Machine
end

