-- ==== Sys2Proof/Machine/Float.lean ====
section
/-!
DEFINITION. The float instructions of word B (13 R291 to R297): arithmetic, sign operations, compares, classes and
conversions.
-/

namespace Sys2Proof.Machine

/-! ## Exact operations -/

/-- Is a value a NaN? -/
def FV.isNan : FV → Bool
  | .nan _ => true
  | _ => false

/-- Is a value a signalling NaN (R280)? -/
def FV.isSig : FV → Bool
  | .nan s => s
  | _ => false

/-- A value with its sign inverted. -/
def FV.neg : FV → FV
  | .nan q => .nan q
  | .inf s => .inf (!s)
  | .fin s m e => .fin (!s) m e

/-- The signed significand at a smaller exponent. -/
def sigAt (s : Bool) (m : Nat) (e e0 : Int) : Int :=
  let n : Int := m * 2 ^ (e - e0).toNat
  if s then -n else n

/-- Exact sum; an exact zero of unlike signs is −0 only under mode 2 (R287). -/
def addF (rm : Nat) : FV → FV → FV × Nat
  | .inf s, .inf t => if s = t then (.inf s, 0) else (.nan false, fNV)
  | .inf s, _ => (.inf s, 0)
  | _, .inf t => (.inf t, 0)
  | .fin s m e, .fin t n f =>
    let e0 := min e f
    let v := sigAt s m e e0 + sigAt t n f e0
    if v = 0 then (.fin (if s = t then s else rm = 2) 0 0, 0) else (.fin (v < 0) v.natAbs e0, 0)
  | _, _ => (.nan false, 0)

/-- Exact product (R287). -/
def mulF : FV → FV → FV × Nat
  | .inf s, .inf t => (.inf (s != t), 0)
  | .inf s, .fin t n _ => if n = 0 then (.nan false, fNV) else (.inf (s != t), 0)
  | .fin s m _, .inf t => if m = 0 then (.nan false, fNV) else (.inf (s != t), 0)
  | .fin s m e, .fin t n f => (.fin (s != t) (m * n) (e + f), 0)
  | _, _ => (.nan false, 0)

/-- Quotient, exact but for a last bit that stands for whatever lies below it (R287). -/
def divF : FV → FV → FV × Nat
  | .inf _, .inf _ => (.nan false, fNV)
  | .inf s, .fin t _ _ => (.inf (s != t), 0)
  | .fin s _ _, .inf t => (.fin (s != t) 0 0, 0)
  | .fin s m e, .fin t n f =>
    if n = 0 then (if m = 0 then (.nan false, fNV) else (.inf (s != t), fDZ))
    else if m = 0 then (.fin (s != t) 0 0, 0)
    else
      let k := bitLen n + 64
      let q := m * 2 ^ k / n
      let r := m * 2 ^ k % n
      (.fin (s != t) (2 * q + (if r = 0 then 0 else 1)) (e - f - k - 1), 0)
  | _, _ => (.nan false, 0)

/-- Integer square root: the largest r below 2^b with r² ≤ n, from bit b down. -/
def isqrt (n : Nat) : Nat → Nat → Nat
  | 0, r => r
  | b + 1, r => let t := r + 2 ^ b; isqrt n b (if t * t ≤ n then t else r)

/-- Square root, with the same last bit as the quotient (R287, R293). -/
def sqrtF : FV → FV × Nat
  | .nan _ => (.nan false, 0)
  | .inf s => if s then (.nan false, fNV) else (.inf false, 0)
  | .fin s m e =>
    if m = 0 then (.fin s 0 0, 0)
    else if s then (.nan false, fNV)
    else
      let (m, e) := if e % 2 = 0 then (m, e) else (2 * m, e - 1)
      let big := m * 2 ^ 120
      let r := isqrt big 80 0
      (.fin false (2 * r + (if r * r = big then 0 else 1)) (e / 2 - 61), 0)

/-- x × y + z, with one rounding to come; 0 × ∞ is invalid even when z is a quiet NaN (R287). -/
def fmaF (rm : Nat) (x y z : FV) : FV × Nat :=
  if x.isNan || y.isNan then (.nan false, 0) else
  let (p, fl) := mulF x y
  if p.isNan then (.nan false, fl)
  else if z.isNan then (.nan false, 0)
  else addF rm p z

/-- Orders two values that are no NaN: −1, 0 or 1; `zs` puts −0 below +0 (R287, R295). -/
def cmpF (zs : Bool) : FV → FV → Int
  | .inf s, .inf t => if s = t then 0 else if s then -1 else 1
  | .inf s, _ => if s then -1 else 1
  | _, .inf t => if t then 1 else -1
  | .fin s m e, .fin t n f =>
    if m = 0 && n = 0 then (if zs && s != t then (if s then -1 else 1) else 0)
    else
      let e0 := min e f
      let a := sigAt s m e e0
      let b := sigAt t n f e0
      if a < b then -1 else if a = b then 0 else 1
  | _, _ => 0

/-! ## Lanes (R292, R293) -/

/-- The format of fn bits 1:0 (R195). -/
def fnFmt (fn : BitVec 4) : Fmt := Fmt.ofCode (fn.toNat % 4)

/-- Number of lanes: one without P, else 64 / w (R292). -/
def fnLanes (fn : BitVec 4) : Nat := if fn.getLsbD 2 then 64 / (fnFmt fn).width else 1

/-- Lane k of width w. -/
def lane (w k : Nat) (v : W64) : Nat := v.toNat / 2 ^ (w * k) % 2 ^ w

/-- Joins the results of a lane operation, with the flags of every lane ORed (R287). -/
def lanes (w : Nat) (f : Nat → Nat × Nat) : Nat → Nat × Nat
  | 0 => (0, 0)
  | n + 1 =>
    let (r, fl) := lanes w f n
    let (x, fx) := f n
    (r + x % 2 ^ w * 2 ^ (w * n), fl ||| fx)

/-- Rounds an operation's value and adds NV for a signalling operand (R280, R286). -/
def finishF (f : Fmt) (rm : Nat) (sat sig : Bool) (v : FV × Nat) : Nat × Nat :=
  let (r, fl) := round f rm sat v.1
  (r, fl ||| v.2 ||| (if sig then fNV else 0))

/-- A two-operand lane operation: a NaN operand gives the canonical NaN (R280). -/
def lane2 (op : Nat → FV → FV → FV × Nat) (f : Fmt) (rm : Nat) (sat : Bool) (x y : Nat) : Nat × Nat :=
  let a := f.decode x
  let b := f.decode y
  finishF f rm sat (a.isSig || b.isSig) (if a.isNan || b.isNan then (.nan false, 0) else op rm a b)

/-- FMIN and FMAX of a lane: exact, the non-NaN operand when one is a NaN (R287, R293). -/
def laneMM (max : Bool) (f : Fmt) (x y : Nat) : Nat × Nat :=
  let a := f.decode x
  let b := f.decode y
  let fl := if a.isSig || b.isSig then fNV else 0
  if a.isNan then (if b.isNan then f.canon else y, fl)
  else if b.isNan then (x, fl)
  else
    let c := cmpF true a b
    (if (if max then c ≥ 0 else c ≤ 0) then x else y, fl)

/-- A sign operation of a lane: a NaN gives the canonical NaN (R294). -/
def laneSign (g : Nat → Nat → Nat) (f : Fmt) (x : Nat) : Nat × Nat :=
  let a := f.decode x
  if a.isNan then (f.canon, if a.isSig then fNV else 0) else (g f.signBit x, 0)

/-- A float instruction in format BR: lanes of a, b and d, the result to d, the flags to FCSR (R292, R293). -/
def State.floatBR (s : State) (r : BR) (op : Fmt → Nat → Bool → Nat → Nat → Nat → Nat × Nat) : State :=
  s.when r.g fun s =>
    let f := fnFmt r.fn
    let (v, fl) := lanes f.width
      (fun k => op f s.mode s.sat (lane f.width k (s.rd r.a)) (lane f.width k (s.rd r.b)) (lane f.width k (s.rd r.d)))
      (fnLanes r.fn)
    (s.wr r.d (w64 v)).raiseFlags fl

/-- FADD (R293). -/
def execFadd (r : BR) (s : State) : Out :=
  .next (s.floatBR r fun f rm sat x y _ => lane2 addF f rm sat x y)

/-- FSUB (R293). -/
def execFsub (r : BR) (s : State) : Out :=
  .next (s.floatBR r fun f rm sat x y _ => lane2 (fun rm a b => addF rm a b.neg) f rm sat x y)

/-- FMUL (R293). -/
def execFmul (r : BR) (s : State) : Out :=
  .next (s.floatBR r fun f rm sat x y _ => lane2 (fun _ a b => mulF a b) f rm sat x y)

/-- FDIV (R293). -/
def execFdiv (r : BR) (s : State) : Out :=
  .next (s.floatBR r fun f rm sat x y _ => lane2 (fun _ a b => divF a b) f rm sat x y)

/-- FSQRT (R293). -/
def execFsqrt (r : BR) (s : State) : Out :=
  .next (s.floatBR r fun f rm sat x _ _ =>
    let a := f.decode x
    finishF f rm sat a.isSig (sqrtF a))

/-- FMIN (R287, R293). -/
def execFmin (r : BR) (s : State) : Out := .next (s.floatBR r fun f _ _ x y _ => laneMM false f x y)

/-- FMAX (R287, R293). -/
def execFmax (r : BR) (s : State) : Out := .next (s.floatBR r fun f _ _ x y _ => laneMM true f x y)

/-- FMA: d is the addend and the destination (R291, R293). -/
def execFma (r : BR) (s : State) : Out :=
  .next (s.floatBR r fun f rm sat x y z =>
    let a := f.decode x
    let b := f.decode y
    let c := f.decode z
    finishF f rm sat (a.isSig || b.isSig || c.isSig) (fmaF rm a b c))

/-- FNEG inverts the sign of each lane (R294). -/
def execFneg (r : BR) (s : State) : Out :=
  .next (s.floatBR r fun f _ _ x _ _ => laneSign (fun sb x => x ^^^ sb) f x)

/-- FABS clears the sign of each lane (R294). -/
def execFabs (r : BR) (s : State) : Out :=
  .next (s.floatBR r fun f _ _ x _ _ => laneSign (fun sb x => x % sb) f x)

/-- The truth of FCMP and its NV (R295). -/
def fcmpTest (cond : Nat) (a b : FV) : Bool × Bool :=
  let nan := a.isNan || b.isNan
  let sig := a.isSig || b.isSig
  match cond with
  | 0 => (!nan && cmpF false a b = 0, sig)
  | 1 => (!nan && cmpF false a b < 0, nan)
  | 2 => (!nan && cmpF false a b ≤ 0, nan)
  | _ => (nan, sig)

/-- FCMP writes a predicate (R295). -/
def execFcmp (r : BF) (s : State) : Out :=
  .next (s.when r.g fun s =>
    let f := fnFmt r.fmt
    let (p, nv) := fcmpTest r.cond.toNat (f.decode (lane f.width 0 (s.rd r.a))) (f.decode (lane f.width 0 (s.rd r.b)))
    (s.wrPred r.pd p).raiseFlags (if nv then fNV else 0))

/-- The class mask of R296. -/
def fclass (f : Fmt) (x : Nat) : Nat :=
  match f.decode x with
  | .nan q => if q then 2 ^ 8 else 2 ^ 9
  | .inf s => if s then 2 ^ 0 else 2 ^ 7
  | .fin s m _ =>
    if m = 0 then (if s then 2 ^ 3 else 2 ^ 4)
    else if x % f.signBit < 2 ^ f.frac then (if s then 2 ^ 2 else 2 ^ 5)
    else if s then 2 ^ 1 else 2 ^ 6

/-- FCLASS writes a class mask (R296). -/
def execFclass (r : BR) (s : State) : Out :=
  .next (s.when r.g fun s =>
    let f := fnFmt r.fn
    s.wr r.d (w64 (fclass f (lane f.width 0 (s.rd r.a)))))

/-! ## Conversions (R297) -/

/-- Width, lowest and highest value of an integer code 8 to 11 (R195, R278). -/
def intRange (c : Nat) : Nat × Int × Int :=
  match c with
  | 8 => (64, -(2 ^ 63), 2 ^ 63 - 1)
  | 9 => (64, 0, 2 ^ 64 - 1)
  | 10 => (32, -(2 ^ 31), 2 ^ 31 - 1)
  | _ => (32, 0, 2 ^ 32 - 1)

/-- An integer clamped to a range, and whether it was. -/
def clamp (lo hi v : Int) : Int × Bool := if v < lo then (lo, true) else if v > hi then (hi, true) else (v, false)

/-- The integer a source of code 8 to 11 holds. -/
def intOf (c : Nat) (v : W64) : Int :=
  match c with
  | 8 => v.toInt
  | 9 => v.toNat
  | 10 => sint 32 v.toNat
  | _ => (v.toNat % 2 ^ 32 : Nat)

/-- FCVT from code src to code dst, with its flags (R297). -/
def fcvt (rm : Nat) (sat : Bool) (src dst : Nat) (v : W64) : W64 × Nat :=
  if src < 8 then
    let a := (Fmt.ofCode src).decode (v.toNat % 2 ^ (Fmt.ofCode src).width)
    if dst < 8 then
      let (r, fl) := finishF (Fmt.ofCode dst) rm sat a.isSig (a, 0)
      (w64 r, fl)
    else
      let (_, lo, hi) := intRange dst
      match a with
      | .nan _ => (0, fNV)
      | .inf s => (BitVec.ofInt 64 (if s then lo else hi), fNV)
      | .fin s m e =>
        let (n, inexact) := roundInt rm s m e
        let (c, out) := clamp lo hi n
        (BitVec.ofInt 64 c, if out then fNV else if inexact then fNX else 0)
  else
    let n := intOf src v
    if dst < 8 then
      let (r, fl) := round (Fmt.ofCode dst) rm sat (.fin (n < 0) n.natAbs 0)
      (w64 r, fl)
    else
      let (_, lo, hi) := intRange dst
      let (c, out) := clamp lo hi n
      (BitVec.ofInt 64 c, if out then fNV else 0)

/-- FCVT (R297). -/
def execFcvt (r : BV) (s : State) : Out :=
  .next (s.when r.g fun s =>
    let (v, fl) := fcvt s.mode s.sat r.src.toNat r.dst.toNat (s.rd r.a)
    (s.wr r.d v).raiseFlags fl)

end Sys2Proof.Machine
end

