-- ==== Sys2Proof/Machine/Control.lean ====
section
/-!
DEFINITION. Control transfers and hardware loops (09 R215 to R220), NOP and YIELD (08 R197, R199), and the target check
that transfers share with ERET and RETU (R216).
-/

namespace Sys2Proof.Machine

/-- TargetCheck (R216): none when the target passes, else the TADDR of SEGV reason 7. -/
def State.targetCheck (s : State) (t : Int) : Option W64 :=
  let bad := t < 0 || t > 0xFFFF8 ||
    (s.me.priv != 2 && hwArea s.myProc.lmmap t.toNat) || !segHas (s.seg s.cur 0) rX
  if bad then some (BitVec.ofInt 64 ((segBase (s.seg s.cur 0) : Int) + t)) else none

/-- A taken transfer to a checked target; the fetch buffer empties (R79, R215). -/
def State.jump (s : State) (t : Nat) : State :=
  { s.modMe fun x => { x with fetch := [] } with npc := BitVec.ofNat 20 (t / 8 * 8), taken := true }

/-- Goes to t after the target check, first doing what the transfer writes (R215). -/
def State.transfer (s : State) (t : Int) (writes : State → State) : State :=
  match s.targetCheck t with
  | some a => s.raise cSEGV 0 7 a
  | none => (writes s).jump t.toNat

/-- The PC of the running bundle as a number. -/
def State.pcNat (s : State) : Nat := s.me.arch.pc.toNat

/-- The link PC + 8, a 20-bit offset (R215). -/
def State.link (s : State) : W64 := w64 ((s.pcNat + 8) % 2 ^ 20)

/-- NOP has no effect, whatever its guard (R197). -/
def execNop (_r : AR) (s : State) : Out := .next s

/-- YIELD gives up the slot's next home position (R199). -/
def execYield (r : AR) (s : State) : Out :=
  .next (s.when r.g fun s => s.modMe fun t => { t with yields := 2 })

/-- BR (R215). -/
def execBr (r : AB) (s : State) : Out :=
  .next (s.when r.g fun s => s.transfer (s.pcNat + 8 * r.disp.toInt) id)

/-- JMP (R215). -/
def execJmp (r : AB) (s : State) : Out :=
  .next (s.when r.g fun s => s.transfer (8 * r.disp.toNat : Nat) id)

/-- CALL writes the link (R215). -/
def execCall (r : AC) (s : State) : Out :=
  .next (s.when r.g fun s =>
    let disp : Int := match r.x with
      | some e => e.toInt
      | none => r.disp.toInt
    s.transfer (s.pcNat + 8 * disp) fun s => s.wr r.d s.link)

/-- JR checks the alignment of its target first, and writes the link (R215). -/
def execJr (r : AR) (s : State) : Out :=
  .next (s.when r.g fun s =>
    let v := s.rd r.a
    if v.toNat % 8 != 0 then s.raise cALIGN 0 0 v
    else s.transfer v.toNat fun s => s.wr r.d s.link)

/-- Start, end, A and N of a loop register (R219). -/
def loopWord (start stop : Nat) (active later : Bool) : W64 :=
  w64 (start % 2 ^ 20 + stop % 2 ^ 20 * 2 ^ 20 + (if active then 2 ^ 40 else 0) + (if later then 2 ^ 41 else 0))

/-- Sets up loop lc with count c and a body of bl + 1 bundles, or skips the body when c = 0 (R217). -/
def State.setLoop (s : State) (lc : Bool) (c bl : Nat) : State :=
  let pc := s.pcNat
  if c = 0 then s.transfer (pc + 8 * (bl + 2) : Nat) id
  else
    let w := loopWord (pc + 8) (pc + 8 * (bl + 1)) true true
    s.modMe fun t =>
      { t with arch :=
          if lc then { t.arch with lc1 := w64 c, ls1 := w, ls0 := setBit 41 false t.arch.ls0 }
          else { t.arch with lc0 := w64 c, ls0 := w, ls1 := setBit 41 false t.arch.ls1 } }

/-- LOOP takes its count from a (R217). -/
def execLoop (r : LoopR) (s : State) : Out := .next (s.setLoop r.lc ((s.rd r.a).toNat % 2 ^ 32) r.bl.toNat)

/-- LOOPI has a 16-bit count (R217). -/
def execLoopi (r : LoopI) (s : State) : Out := .next (s.setLoop r.lc r.count.toNat r.bl.toNat)

/-! ## The end check (R218) -/

/-- Count and loop words of loop 0 or 1. -/
def Arch.loopOf (a : Arch) (one : Bool) : W64 × W64 := if one then (a.lc1, a.ls1) else (a.lc0, a.ls0)

/-- Does an active loop end at this offset? -/
def loopEndsAt (ls : W64) (pc : BitVec 20) : Bool := tb 40 ls && fld 39 20 ls == pc.toNat

/-- EndCheck of one loop: the new registers, and the start when the loop goes back. -/
def Arch.endCheck (a : Arch) (one : Bool) : Arch × Option (BitVec 20) :=
  let (lc, ls) := a.loopOf one
  let put (c l : W64) : Arch := if one then { a with lc1 := c, ls1 := l } else { a with lc0 := c, ls0 := l }
  if fld 31 0 lc ≤ 1 then (put 0 (setBit 40 false ls), none)
  else (put (w64 (fld 31 0 lc - 1)) ls, some (BitVec.ofNat 20 (fld 19 0 ls)))

/-- The end checks after a bundle at pc: the later-started loop first, loop 1 when both have the same N (R218). -/
def Arch.endChecks (a : Arch) (pc : BitVec 20) : Arch × Option (BitVec 20) :=
  let first := !(tb 41 a.ls0 && !(tb 41 a.ls1))
  let step (a : Arch) (one : Bool) : Arch × Option (BitVec 20) :=
    if loopEndsAt (a.loopOf one).2 pc then a.endCheck one else (a, none)
  let (b, back) := step a first
  match back with
  | some p => (b, some p)
  | none => step b (!first)

end Sys2Proof.Machine
end

