-- ==== Sys2Proof/Machine/Walk.lean ====
section
/-!
DEFINITION. Translation (02 R34 to R48) as functions: the second-stage walk and the stage-two unit's cache, the
first-stage walk with the row port's caches, rights and memory types; the host-physical map (05 R112); and the coherent
reads and writes of paged bytes (log 10).
-/

namespace Sys2Proof.Machine

/-! ## The host-physical map (R112) -/

/-- The ranges of host-physical addresses. -/
inductive Range where
  | hbm | header | lpddr | ckpt | hole | device
  deriving DecidableEq, Repr

/-- The range of a host-physical address. -/
def rangeOf (h : Nat) : Range :=
  if h < 0x010000000000 then .hbm
  else if h < 0x010000001000 then .header
  else if h < 0x040000000000 then .lpddr
  else if h < 0x050000000000 then .ckpt
  else if h < 0xF00000000000 then .hole
  else .device

/-- May a second-stage entry name the range at all? -/
def Range.named : Range → Bool
  | .hbm => true
  | .lpddr => true
  | .device => true
  | _ => false

/-! ## Coherent paged bytes (log 10) -/

/-- Key of a cached sector. -/
def secKey (vmid gpa : Nat) : Nat := vmid * 2 ^ 41 + gpa / 128

/-- The current value of a paged sector. -/
def State.secAt (s : State) (vmid gpa hpa : Nat) : BitVec 1024 :=
  if spHas s.secs (secKey vmid gpa) then spGet 0 s.secs (secKey vmid gpa)
  else secOfMem s.mem (hpa / 128 * 128)

/-- n bytes of a paged sector. -/
def State.pgRead (s : State) (vmid gpa hpa n : Nat) : Nat := secRead (s.secAt vmid gpa hpa) (gpa % 128) n

/-- The base die that homes a guest-physical line (R114). -/
def baseOf (gpa : Nat) : Nat := homeDie (gpa / 256) / 4

/-- A base die. -/
def State.base (s : State) (b : Nat) : BaseDie := spGet BaseDie.init s.bases b

/-- Changes a base die. -/
def State.modBase (s : State) (b : Nat) (f : BaseDie → BaseDie) : State :=
  { s with bases := spPut s.bases b (f (s.base b)) }

/-! ## Where a sector stands (R93, R114) -/

/-- Which sector of its line an address is in. -/
def secOf (gpa : Nat) : Nat := gpa / 128 % 2

/-- The state of a sector of an L2 line. -/
def L2Line.sec (l : L2Line) (k : Nat) : SecSt := if k = 0 then l.sec0 else l.sec1

/-- The state of a sector of a memory-side line. -/
def MscLine.sec (l : MscLine) (k : Nat) : SecSt := if k = 0 then l.sec0 else l.sec1

/-- A slice by its module-wide number. -/
def State.slice (s : State) (k : Nat) : Slice := spGet Slice.init s.slices k

/-- The line of a VMID that a slice holds. -/
def State.l2Find (s : State) (vmid line : Nat) : Option L2Line :=
  (s.slice (sliceOf line)).lines.find? fun l => l.vmid == vmid && l.line == line

/-- The memory-side line of a VMID's line. -/
def State.mscFind (s : State) (vmid line : Nat) : Option MscLine :=
  (s.base (homeDie line / 4)).lines.find? fun l => l.vmid == vmid && l.line == line

/-- The sector of an L2 line that holds an address, absent where the line is. -/
def State.l2Sec (s : State) (vmid gpa : Nat) : SecSt :=
  match s.l2Find vmid (gpa / 256) with
  | some l => l.sec (secOf gpa)
  | none => .absent

/-- The same in the memory-side cache. -/
def State.mscSec (s : State) (vmid gpa : Nat) : SecSt :=
  match s.mscFind vmid (gpa / 256) with
  | some l => l.sec (secOf gpa)
  | none => .absent

/-! ## Buckets (R104, R105, R110) -/

/-- The bucket parameters of a VMID in force: a write of L2BW counts from the next refill (R110). -/
def State.bwOf (s : State) (vmid : Nat) : W64 := spGet (spGet l2bwReset s.regs.l2bw vmid) s.bwOld vmid

/-- Depth of a VMID's bucket. -/
def State.bwDepth (s : State) (vmid : Nat) : Nat := fld 35 16 (s.bwOf vmid)

/-- The bucket of a VMID at a slice; an unlisted one is full. -/
def State.bucket (s : State) (k vmid : Nat) : Int := spGet (s.bwDepth vmid : Int) (s.slice k).buckets vmid

/-- The die of a slice. -/
def dieOfSlice (k : Nat) : Nat := k / 512

/-- Would a sector of a VMID get a token at a slice now? -/
def State.hasToken (s : State) (k vmid : Nat) : Bool :=
  vmid == 0 || s.bucket k vmid ≥ 1 || spGet 0 s.pools (dieOfSlice k) ≥ 1

/-! ## Page-table entries (R37, R46) -/

/-- Valid. -/
def peV (e : W64) : Bool := tb 0 e
/-- Table entry. -/
def peT (e : W64) : Bool := tb 1 e
/-- One of sixteen. -/
def peC (e : W64) : Bool := tb 2 e
/-- Write right. -/
def peW (e : W64) : Bool := tb 3 e
/-- U in the first stage, R in the second. -/
def peU (e : W64) : Bool := tb 4 e
/-- Memory type. -/
def peMT (e : W64) : Nat := fld 6 5 e
/-- Blocked, in the second stage. -/
def peB (e : W64) : Bool := tb 7 e
/-- Frame or next table. -/
def peAddr (e : W64) : Nat := fld 47 12 e * 2 ^ 12

/-- Size mapped by a leaf at a level. -/
def leafSize (e : W64) (lv : Nat) : Nat := if peC e then 2 ^ 16 else 2 ^ (12 + 9 * lv)

/-- Is a leaf refused by its format at a level? -/
def leafBad (e : W64) (lv : Nat) : Bool := lv ≥ 3 || peMT e = 3 || (peC e && lv != 0)

/-! ## The second stage (R45 to R47) -/

/-- A second-stage leaf applied to an address. -/
structure Leaf2 where
  hpa : Nat
  size : Nat
  r : Bool
  w : Bool
  b : Bool
  mt : Nat
  level : Nat
  deriving DecidableEq, Repr

/-- Result of a second-stage walk; a failure is 0 invalid, 1 rights, 2 format, 3 type, with its level. -/
inductive S2Res where
  | ok (l : Leaf2)
  | bad (why level : Nat)
  deriving DecidableEq, Repr

/-- Walks the second-stage tables from a level down, reading them as VMID 0 (R46). -/
def State.s2Walk (s : State) (gpa : Nat) : Nat → Nat → S2Res
  | 0, _ => .bad 0 0
  | n + 1, t =>
    let lv := n
    let a := t + 8 * (gpa / 2 ^ (12 + 9 * lv) % 512)
    let e := w64 (s.pgRead 0 a a 8)
    if !peV e then .bad 0 lv
    else if fld 63 48 e != 0 then .bad 2 lv
    else if peT e then
      if lv = 0 || fld 6 2 e != 0 || !(rangeOf (peAddr e)).named then .bad 2 lv else s.s2Walk gpa n (peAddr e)
    else if leafBad e lv then .bad 2 lv
    else
      let size := leafSize e lv
      let frame := peAddr e / size * size
      let g := rangeOf frame
      if !g.named then .bad 2 lv
      else if (peMT e = 2) != (g = .device) then .bad 3 lv
      else .ok { hpa := frame + gpa % size, size := size, r := peU e, w := peW e, b := peB e, mt := peMT e, level := lv }

/-- The table entries that a second-stage walk reads (R46). -/
def State.s2Path (s : State) (gpa : Nat) : Nat → Nat → List Nat
  | 0, _ => []
  | n + 1, t =>
    let a := t + 8 * (gpa / 2 ^ (12 + 9 * n) % 512)
    let e := w64 (s.pgRead 0 a a 8)
    if peV e && peT e && fld 63 48 e == 0 && n != 0 then a :: s.s2Path gpa n (peAddr e) else [a]

/-- Second-stage translation without the unit's cache; VMID 0 has none (R45). -/
def State.s2Fresh (s : State) (vmid gpa : Nat) : S2Res :=
  if vmid = 0 then
    .ok { hpa := gpa, size := 4096, r := true, w := true, b := false, mt := 0, level := 7 }
  else
    let r := spGet 0 s.regs.vmroot vmid
    if !(tb 0 r) then .bad 0 3 else s.s2Walk gpa 4 (fld 47 12 r * 2 ^ 12)

/-- Second-stage translation through the stage-two unit of the line's base die (R47, R116). -/
def State.s2Find (s : State) (vmid gpa : Nat) : S2Res :=
  match (s.base (baseOf gpa)).s2.find? fun e => e.vmid == vmid && e.page == gpa / e.size with
  | some e => .ok { hpa := e.hpa + gpa % e.size, size := e.size, r := e.r, w := e.w, b := e.b, mt := e.mt, level := e.level }
  | none => s.s2Fresh vmid gpa

/-- The memory type in force (R48); VMID 0 has the first stage's type alone. `none` is a mismatch. -/
def mtForce (vmid mt1 mt2 : Nat) : Option Nat :=
  if vmid = 0 then some mt1
  else if mt1 = 2 then (if mt2 = 2 then some 2 else none)
  else if mt2 = 2 then none
  else some (if mt1 = 1 || mt2 = 1 then 1 else 0)

/-- The fault kind of a second-stage failure on data (R50). -/
def dataKind (why : Nat) : Nat :=
  match why with
  | 0 => 4
  | 1 => 5
  | 2 => 7
  | _ => 6

/-- The data access through the second stage: its leaf with the type in force, or the fault; a mismatch of types comes before
a missing right (R47, R48, R50; log 58). -/
def s2Check (vmid gpa mt1 : Nat) (wr : Bool) : S2Res → Except XFault (Leaf2 × Nat)
  | .bad why lv => .error { kind := dataKind why, level := lv, sub := 0, gpa := gpa }
  | .ok l =>
    match mtForce vmid mt1 l.mt with
    | none => .error { kind := 6, level := l.level, sub := 0, gpa := gpa }
    | some mt =>
      if !l.r || (wr && !l.w) then .error { kind := 5, level := l.level, sub := 0, gpa := gpa } else .ok (l, mt)

/-! ## Blocked pages (R117 to R121) -/

/-- Bytes of a page of a PGBLK size code. -/
def pgSize (n : Nat) : Nat :=
  match n with
  | 0 => 4096
  | 1 => 0x10000
  | 2 => 0x200000
  | _ => 0x40000000

/-- Does a PGBLK value cover a guest-physical address of a VMID? -/
def pgCovers (v : W64) (vmid gpa : Nat) : Bool :=
  fld 63 56 v == vmid && gpa / pgSize (fld 5 4 v) == fld 47 12 v * 4096 / pgSize (fld 5 4 v)

/-- A block slot. -/
def State.block (s : State) (b : Nat) : Block := spGet Block.init s.blocks b

/-- The active block slot that covers an address. -/
def State.blockOf (s : State) (vmid gpa : Nat) : Option Nat :=
  (List.range 8).find? fun b => (s.block b).active && pgCovers (s.block b).val vmid gpa

/-! ## The first stage (R34 to R43) -/

/-- A first-stage leaf applied to an address. -/
structure Leaf1 where
  gpa : Nat
  size : Nat
  w : Bool
  u : Bool
  mt : Nat
  level : Nat
  ent : Nat
  deriving DecidableEq, Repr

/-- Result of a first-stage walk: a leaf, a fault, XROOT.E = 0 (XLATE reason 3), or a wait. -/
inductive W1Res where
  | ok (l : Leaf1)
  | bad (f : XFault)
  | off
  /-- An entry cannot be read yet. -/
  | wait
  deriving DecidableEq, Repr

/-- Index bits of a level, with every bit above them: the walk cache's tag (R43). -/
def walkIdx (la lv : Nat) : Nat := la / 2 ^ (12 + 9 * lv)

/-- What a walker's read of an entry comes to. -/
inductive TblRes where
  | ok (e : W64)
  | bad (f : XFault)
  /-- Its page is blocked, its line busy, or no token is left: it is read later. -/
  | wait
  deriving DecidableEq, Repr

/-- ReadEntry (R38): one entry as the VMID, through the L2, the memory-side cache and, where both miss, the stage-two unit (R45, R47,
R105, R120, R121). -/
def State.readEntry (s : State) (vmid a lv : Nat) : TblRes :=
  let busy := match s.l2Find vmid (a / 256) with
    | some l => l.busy.isSome
    | none => false
  if (s.blockOf vmid a).isSome || busy then .wait
  else if s.l2Sec vmid a != .absent || s.mscSec vmid a != .absent then .ok (w64 (s.pgRead vmid a a 8))
  else
    let off := vmid != 0 && !(tb 0 (spGet 0 s.regs.vmroot vmid))
    match s.s2Find vmid a with
    | .bad why l2 => .bad { kind := 3, level := if why = 3 || off then l2 else lv, sub := why, gpa := a }
    | .ok l =>
      if !l.r then .bad { kind := 3, level := lv, sub := 1, gpa := a }
      else if l.mt = 2 then .bad { kind := 3, level := l.level, sub := 3, gpa := a }
      else if l.b || !s.hasToken (sliceOf (a / 256)) vmid then .wait
      else .ok (w64 (s.pgRead vmid a l.hpa 8))

/-- What a walk leaves: its result, the table entries for the walk cache, and the addresses it read. -/
structure Walked where
  res : W1Res
  ents : List WalkEnt
  reads : List Nat
  deriving DecidableEq, Repr

/-- Walk1 from level n − 1 down (R38), using and extending the walk cache of the row port. -/
def State.walkFrom (s : State) (port : Port) (vmid job la : Nat) : Nat → Nat → List WalkEnt → List Nat → Walked
  | 0, _, ws, rs => { res := .bad { kind := 0, level := 0, sub := 0, gpa := 0 }, ents := ws, reads := rs }
  | n + 1, t, ws, rs =>
    let lv := n
    match port.walks.find? fun e => e.vmid == vmid && e.job == job && e.level == lv && e.idx == walkIdx la lv with
    | some e => s.walkFrom port vmid job la n e.table ws rs
    | none =>
      let idx := if lv = 4 then walkIdx la lv % 128 else walkIdx la lv % 512
      let a := t + 8 * idx
      let fin (r : W1Res) : Walked := { res := r, ents := ws, reads := rs ++ [a] }
      let bad (k : Nat) : Walked := fin (.bad { kind := k, level := lv, sub := 0, gpa := a })
      match s.readEntry vmid a lv with
      | .wait => { res := .wait, ents := ws, reads := rs }
      | .bad f => { res := .bad f, ents := ws, reads := rs }
      | .ok e =>
        if !peV e then bad 0
        else if fld 63 48 e != 0 then bad 2
        else if peT e then
          if lv = 0 || fld 6 2 e != 0 then bad 2
          else
            let we : WalkEnt := { vmid := vmid, job := job, level := lv, idx := walkIdx la lv, table := peAddr e }
            s.walkFrom port vmid job la n (peAddr e) (ws ++ [we]) (rs ++ [a])
        else if leafBad e lv then bad 2
        else
          let size := leafSize e lv
          fin (.ok { gpa := peAddr e / size * size + la % size, size := size, w := peW e, u := peU e, mt := peMT e,
                     level := lv, ent := a })

/-- The row port of a core (R43). -/
def State.port (s : State) (core : Nat) : Port := spGet Port.init s.ports (rowOf core)

/-- Changes a row port. -/
def State.modPort (s : State) (row : Nat) (f : Port → Port) : State :=
  { s with ports := spPut s.ports row (f (spGet Port.init s.ports row)) }

/-- A whole first-stage walk for a process (R38). -/
def State.walk1 (s : State) (p : Proc) (la : Nat) : Walked :=
  if !(tb 0 p.xroot) then { res := .off, ents := [], reads := [] }
  else s.walkFrom (s.port p.core) p.vmid p.job la 5 (fld 47 12 p.xroot * 2 ^ 12) [] []

/-- The row port's cached leaf for an address (R43). -/
def Port.hit (q : Port) (vmid job la : Nat) : Option Leaf1 :=
  (q.tlb.find? fun e => e.vmid == vmid && e.job == job && e.page == la / e.size).map fun e =>
    { gpa := e.gpa + la % e.size, size := e.size, w := e.w, u := e.u, mt := e.mt, level := e.level, ent := e.ent }

/-- The cached leaf for an address of a process; with XROOT.E = 0 there is none (R34, R43). -/
def State.rowHit (s : State) (p : Proc) (la : Nat) : Option Leaf1 :=
  if tb 0 p.xroot then (s.port p.core).hit p.vmid p.job la else none

/-- First-stage rights of an access (R39): `wr` for stores, atomics and engine destinations. -/
def rights1 (priv : Nat) (wr w u : Bool) : Bool := (priv != 0 || u) && (!wr || w)

/-- The first-stage leaf for an address, from the row port or by a walk (R38, R43). -/
def State.leaf1 (s : State) (p : Proc) (la : Nat) : W1Res :=
  match s.rowHit p la with
  | some l => .ok l
  | none => (s.walk1 p la).res

/-- What the translation of an access that a unit makes comes to. -/
inductive XRes where
  | ok (l1 : Leaf1) (l2 : Leaf2) (mt : Nat)
  | fault (f : XFault)
  /-- XLATE reason 3. -/
  | off
  | wait
  deriving DecidableEq, Repr

/-- Translation of a unit's access at once: row port hit or walk, rights, second stage (R38, R39, R47). -/
def State.xlate (s : State) (p : Proc) (priv : Nat) (wr : Bool) (la : Nat) : XRes :=
  match s.leaf1 p la with
  | .off => .off
  | .wait => .wait
  | .bad f => .fault f
  | .ok l =>
    if !rights1 priv wr l.w l.u then .fault { kind := 1, level := l.level, sub := 0, gpa := l.ent }
    else match s2Check p.vmid l.gpa l.mt wr (s.s2Find p.vmid l.gpa) with
      | .error f => .fault f
      | .ok (l2, mt) => .ok l l2 mt

end Sys2Proof.Machine
end

