-- ==== Sys2Proof/Machine/Cache.lean ====
section
/-!
DEFINITION. The caches of the paged region: stash lines (03 R70 to R77), L2 lines with their directory (04 R93 to
R96), memory-side cache lines (05 R114, R115), way masks, token buckets and charges (04 R101 to R106). The data itself
is one copy per sector (log 10); these operations move states, and write memory when the last dirty holder lets go.
-/

namespace Sys2Proof.Machine

/-! ## Items and requests -/

/-- Puts an item in flight under an identity the instruction already has. -/
def State.putItem (s : State) (id : Nat) (i : Item) : State := { s with net := spPut s.net id i }

/-- The event that handles an item at the host of its process. -/
def Item.event (id : Nat) : Item → Ev
  | .win _ _ _ (.withdraw _) => .waitWithdrawal id
  | .win _ _ _ _ => .remoteRequest id
  | .reply _ .refused => .refusalArrival id
  | .reply _ _ => .remoteReply id
  | .parked who _ _ _ _ => .busyReissue who.lpn who.slot
  | .msg m => if m.skip then .skipNoticeArrive id else .messageArrive id
  | .ack _ _ _ _ => .messageAck id
  | .msgRefused _ _ => .messageRefused id
  | .carry _ => .carryPacketArrive id
  | .carryAck _ _ => .carryAck id
  | .carryRef _ _ => .carryRefused id
  | .weight _ _ _ _ => .weightReport id
  | .wake _ _ => .launchWake id
  | .device _ _ _ _ _ => .landingResult id
  | .pgReply _ _ => .landingResult id
  | .launchRecord _ _ _ _ _ _ _ => .dispatch
  | .launchReport _ _ _ _ => .dispatch
  | .pg r =>
    match r.kind with
    | .fill _ => .l2FillRequest id
    | .home _ => .l2FillRequest id
    | .own => .l2OwnershipRequest id
    | .atomic _ _ _ _ _ => .l2Atomic id
    | .tile _ _ _ => .tileRequest id
    | .eng wr _ _ => if wr then .engineElementWrite id else .engineElementRead id
    | .drop => .l2DropNotice id
    | .writeback => .l2Writeback id
    | .upgrade => .s2UpgradeCheck id
    | .put _ _ => .mscNonallocWrite id

/-- A request of the paged region before its translation. -/
def pgReqFor (kind : PgKind) (core : Nat) (who : Who) (vmid gpa : Nat) : PgReq :=
  { kind := kind, core := core, who := who, vmid := vmid, la := 0, gpa := gpa, w1 := false, u1 := false, mt := 0, hpa := none, w2 := false,
    parts := none, ld := none, stale := false, arr := none }

/-- The number under which units that are no core of the mesh make their requests. -/
def noCore : Nat := 2 ^ 20

/-- The slot number under which the host's accesses travel. -/
def hostSlot : Nat := 17

/-- Posts the events of requests that wait, in order. -/
def State.postItems (s : State) (ids : List Nat) : State :=
  s.postAll (ids.filterMap fun i => (s.item i).map fun x => x.event i)

/-! ## Sectors of a line -/

/-- The state of a sector of a stash line. -/
def StashLine.sec (l : StashLine) (k : Nat) : SecSt := if k = 0 then l.sec0 else l.sec1
/-- Sets the state of a sector of a stash line. -/
def StashLine.setSec (l : StashLine) (k : Nat) (x : SecSt) : StashLine :=
  if k = 0 then { l with sec0 := x } else { l with sec1 := x }
/-- Sets the state of a sector of an L2 line. -/
def L2Line.setSec (l : L2Line) (k : Nat) (x : SecSt) : L2Line :=
  if k = 0 then { l with sec0 := x } else { l with sec1 := x }
/-- Sets the state of a sector of a memory-side line. -/
def MscLine.setSec (l : MscLine) (k : Nat) (x : SecSt) : MscLine :=
  if k = 0 then { l with sec0 := x } else { l with sec1 := x }

/-- Must a sector be written down when it is dropped (R73, R127)? -/
def SecSt.down : SecSt → Bool
  | .dirty => true
  | .poisoned => true
  | _ => false

/-- What a written-down sector leaves behind: clean, or still poisoned (R127). -/
def SecSt.kept : SecSt → SecSt
  | .poisoned => .poisoned
  | .absent => .absent
  | _ => .clean

/-! ## Slices, sets, masks -/

/-- Changes a slice. -/
def State.modSlice (s : State) (k : Nat) (f : Slice → Slice) : State :=
  { s with slices := spPut s.slices k (f (s.slice k)) }

/-- Changes the line of a VMID in its slice. -/
def State.l2Mod (s : State) (vmid line : Nat) (f : L2Line → L2Line) : State :=
  s.modSlice (sliceOf line) fun x => { x with lines := mapIf (fun l => l.vmid == vmid && l.line == line) f x.lines }

/-- L2 way mask of a VMID; VMID 0 uses all ways (R101). -/
def State.l2Mask (s : State) (vmid : Nat) : Nat :=
  if vmid = 0 then 0xFFFF else fld 15 0 (spGet l2partReset s.regs.l2part vmid)

/-- Memory-side way mask of a VMID. -/
def State.msMask (s : State) (vmid : Nat) : Nat :=
  if vmid = 0 then 0xFFFF else fld 31 16 (spGet l2partReset s.regs.l2part vmid)

/-- Does an access leave nothing in the L2 (R103)? -/
def State.nonAlloc (s : State) (vmid mt : Nat) : Bool := mt != 0 || s.l2Mask vmid == 0

/-- The ways of a mask among n ways. -/
def waysOf (mask n : Nat) : List Nat := (List.range n).filter fun w => mask / 2 ^ w % 2 == 1

/-- Chooses among candidate ways by the pseudo-LRU state, whose order is open (log 9). -/
def pickWay (lru free : Nat) (ways : List Nat) : Option Nat :=
  match ways with
  | [] => none
  | w :: _ => some (ways.getD (Config.lruVictim lru free % ways.length) w)

/-! ## The memory side (R114, R115) -/

/-- Set of a line in the memory-side cache (R114). -/
def mscSet (line : Nat) : Nat := (line % 2 ^ 16) ^^^ (line / 2 ^ 16 % 2 ^ 16)

/-- Drops a sector's cached copy once no cache holds it. -/
def State.secGc (s : State) (vmid line k : Nat) : State :=
  let inL2 := match s.l2Find vmid line with
    | some l => l.sec k != .absent
    | none => false
  let inMs := match s.mscFind vmid line with
    | some l => l.sec k != .absent
    | none => false
  let inStash := s.cores.any fun c => c.2.stash.any fun e =>
    e.2.vmid == vmid && e.2.gtag == line && (if k = 0 then e.2.sec0 else e.2.sec1) != .absent
  if inL2 || inMs || inStash then s else { s with secs := spDel s.secs (vmid * 2 ^ 41 + line * 2 + k) }

/-- Writes a sector to memory, with its poison (R123, R127). -/
def State.secStore (s : State) (vmid line k hline : Nat) (poisoned : Bool) : State :=
  let a := hline * 256 + 128 * k
  let d := s.secAt vmid (line * 256 + 128 * k) a
  { s with mem := secToMem s.mem a d, errs := s.errs.filter fun e => e != .mem (a / 128),
           poison := if poisoned then insNat (a / 128) s.poison else s.poison.filter fun x => x != a / 128 }

/-- Source code of a poison record for a host-physical address (R125). -/
def memSource (h : Nat) : Nat := if h < Config.hbmSize then 0 else 1

/-- The dwords of a poison record (R125). -/
def poisonDwords (s : State) (source : Nat) (wait : Bool) (hpa vmid : Nat) (gpa : Option Nat) : List W64 :=
  let g := gpa.getD 0
  let gv := gpa.isSome
  [w64 (source + (if wait then 8 else 0) + hpa / 128 * 128 + vmid * 2 ^ 56), w64 ((if gv then 1 else 0) + g / 128 * 128),
   w64 (if gv then homeDie (g / 256) + homeSlice (g / 256) * 16 else 0), w64 s.imago.seq.toNat]

/-- A poison record of a sector that no repair wait holds, WAIT = 0 (R124, R125). -/
def State.poisonNote (s : State) (source hpa vmid : Nat) (gpa : Option Nat) : State :=
  s.record (.poison (poisonDwords s source false hpa vmid gpa))

/-- A corrected single-bit error is counted in FAULTLOG of the core whose access met it (R123, R334). -/
def State.countSoft (s : State) (core : Nat) (e : ErrAt) : State :=
  if !s.soft.contains e then s
  else
    let s := { s with soft := s.soft.filter fun x => x != e }
    if noCore ≤ core then s
    else s.modCore core fun c => { c with faultlog := setFld 15 0 (min 0xFFFF (fld 15 0 c.faultlog + 1)) c.faultlog }

/-- What an uncorrectable error does to a cached sector: a dirty one is poisoned, a clean one is dropped (R123). -/
def SecSt.struck : SecSt → SecSt
  | .dirty => .poisoned
  | .clean => .absent
  | x => x

/-- An access or a write-down meets what errors an L2 sector has (R123, R124). -/
def State.meetL2 (s : State) (core vmid gpa : Nat) : State :=
  let e := ErrAt.l2 vmid (gpa / 128)
  let s := s.countSoft core e
  if !s.errs.contains e then s
  else
    let s := { s with errs := s.errs.filter fun x => x != e }
    match s.l2Find vmid (gpa / 256) with
    | none => s
    | some l =>
      let s := s.modSlice (sliceOf l.line) fun x =>
        { x with lines := mapIf (fun m => m.vmid == vmid && m.line == l.line) (fun m => m.setSec (secOf gpa) (l.sec (secOf gpa)).struck) x.lines }
      if l.sec (secOf gpa) = .dirty then s.poisonNote 3 (l.hline * 256 + gpa % 256) vmid (some gpa) else s

/-- The same for a sector of a memory-side cache. -/
def State.meetMsc (s : State) (core vmid gpa : Nat) : State :=
  let e := ErrAt.msc vmid (gpa / 128)
  let s := s.countSoft core e
  if !s.errs.contains e then s
  else
    let s := { s with errs := s.errs.filter fun x => x != e }
    match s.mscFind vmid (gpa / 256) with
    | none => s
    | some l =>
      let s := s.modBase (homeDie l.line / 4) fun x =>
        { x with lines := mapIf (fun m => m.vmid == vmid && m.line == l.line) (fun m => m.setSec (secOf gpa) (l.sec (secOf gpa)).struck) x.lines }
      if l.sec (secOf gpa) = .dirty then s.poisonNote 2 (l.hline * 256 + gpa % 256) vmid (some gpa) else s

/-- Evicts a memory-side line: its dirty and poisoned sectors go to the address it recorded (R115). -/
def State.mscEvict (s : State) (b : Nat) (l : MscLine) : State :=
  let s := forEach [0, 1] s fun s k =>
    let s := s.meetMsc noCore l.vmid (l.line * 256 + 128 * k)
    let st := s.mscSec l.vmid (l.line * 256 + 128 * k)
    if st.down then s.secStore l.vmid l.line k l.hline (st == .poisoned) else s
  let s := s.modBase b fun x => { x with lines := x.lines.filter fun m => !(m.vmid == l.vmid && m.line == l.line) }
  forEach [0, 1] s fun s k => s.secGc l.vmid l.line k

/-- Does a line hold a sector in repair wait (R115)? -/
def State.inRepair (s : State) (vmid line : Nat) : Bool :=
  s.repairs.any fun r => r.vmid == vmid && r.gpa / 256 == line

/-- Installs a sector in the memory-side cache if a way qualifies; the boolean says whether it did. A line in a way outside the mask
takes no new sector (R102, R103, R115). -/
def State.mscInstall (s : State) (vmid line k hline : Nat) (st : SecSt) : State × Bool :=
  let b := homeDie line / 4
  match s.mscFind vmid line with
  | some l =>
    if l.sec k = .absent && s.msMask vmid / 2 ^ l.way % 2 = 0 then (s, false)
    else
      (s.modBase b fun x =>
        { x with lines := mapIf (fun m => m.vmid == vmid && m.line == line) (fun m => m.setSec k st) x.lines }, true)
  | none =>
    let set := mscSet line
    let inSet := (s.base b).lines.filter fun m => m.set == set
    let ways := waysOf (s.msMask vmid) 16
    let blank : MscLine := { vmid := vmid, line := line, set := set, way := 0, hline := hline, sec0 := .absent, sec1 := .absent }
    let put (s : State) (w : Nat) : State :=
      s.modBase b fun x =>
        { x with lines := x.lines ++ [({ blank with way := w }).setSec k st],
                 lru := spPut x.lru set (Config.lruTouch (spGet 0 x.lru set) w) }
    match ways.filter fun w => !(inSet.any fun m => m.way == w) with
    | w :: _ => (put s w, true)
    | [] =>
      let cand := (inSet.filter fun m => !s.inRepair m.vmid m.line).map fun m => m.way
      match pickWay (spGet 0 (s.base b).lru set) s.free (ways.filter fun w => cand.contains w) with
      | none => (s, false)
      | some w =>
        let s := match inSet.find? fun m => m.way == w with
          | some m => s.mscEvict b m
          | none => s
        (put s.tick w, true)

/-- Keeps a sector that was read from memory in the memory-side cache, where a way qualifies (R115). -/
def State.mscKeep (s : State) (vmid gpa hpa : Nat) : State :=
  let k := secOf gpa
  let s := if spHas s.secs (secKey vmid gpa) then s
    else { s with secs := spPut s.secs (secKey vmid gpa) (secOfMem s.mem (hpa / 128 * 128)) }
  (s.mscInstall vmid (gpa / 256) k (hpa / 256) (if s.poison.contains (hpa / 128) then .poisoned else .clean)).1

/-- A sector written back to the memory side: into the memory-side cache, or to memory (R115, R116). -/
def State.mscWrite (s : State) (vmid line k hline : Nat) (st : SecSt) : State :=
  let (s', ok) := s.mscInstall vmid line k hline (if st = .poisoned then .poisoned else .dirty)
  if ok then s' else s'.secStore vmid line k hline (st == .poisoned)

/-! ## The stash (R70 to R77) -/

/-- Sets of the stash of a process. -/
def stashSets (p : Proc) : Nat := 32 * fld 3 0 p.lmmap

/-- The stash line of a core that bears a linear tag. -/
def State.stashHit (s : State) (core la : Nat) : Option (Nat × StashLine) :=
  (s.core core).stash.find? fun e => e.2.st != LineSt.i && e.2.ltag == la / 256

/-- The stash line of a core for a guest-physical line. -/
def State.stashLine (s : State) (core vmid line : Nat) : Option (Nat × StashLine) :=
  (s.core core).stash.find? fun e => e.2.st != LineSt.i && e.2.vmid == vmid && e.2.gtag == line

/-- The way that a pin keeps for a line in state I: only what R234 names drops a pin. -/
def State.stashKept (s : State) (core vmid line : Nat) : Option Nat :=
  ((s.core core).stash.find? fun e => e.2.st == LineSt.i && e.2.vmid == vmid && e.2.gtag == line).map fun e => e.1

/-- Changes the stash entry under a key. -/
def State.stashMod (s : State) (core key : Nat) (f : StashLine → StashLine) : State :=
  s.modCore core fun c => { c with stash := c.stash.map fun e => if e.1 == key then (e.1, f e.2) else e }

/-- Directory entry without a core (R95). -/
def Dir.drop (c : Nat) : Dir → Dir
  | .s l => match l.filter fun x => x != c with
    | [] => .u
    | l' => .s l'
  | .o d => if d = c then .u else .o d
  | .x d => if d = c then .u else .x d
  | d => d

/-- Directory entry with a core as a sharer (R94, R95): a fifth turns it into a group vector. -/
def Dir.add (c : Nat) : Dir → Dir
  | .u => .s [c]
  | .s l =>
    if l.contains c then .s l
    else if l.length < 4 then .s (l ++ [c])
    else .sv ((l ++ [c]).foldl (fun v x => v ||| (1 <<< (x / 128))) 0)
  | .sv g => .sv (g ||| (1 <<< (c / 128)))
  | .o d => if d = c then .o d else .s [d, c]
  | .x d => if d = c then .x d else .s [d, c]

/-- The cores an invalidation under a directory entry goes to (R94). -/
def State.holders (s : State) (vmid line : Nat) : List Nat :=
  (s.cores.filter fun c => c.2.stash.any fun e => e.2.st != LineSt.i && e.2.vmid == vmid && e.2.gtag == line).map fun c => c.1

/-- Writes the dirty and poisoned sectors of a stash line back to its home slice (R73, R127). -/
def State.stashBack (s : State) (core key : Nat) : State :=
  match (s.core core).stash.find? fun e => e.1 == key with
  | none => s
  | some (_, l) =>
    let s := forEach [0, 1] s fun s k =>
      if (l.sec k).down then
        match s.l2Find l.vmid l.gtag with
        | some _ => s.l2Mod l.vmid l.gtag fun m => m.setSec k (if l.sec k = .poisoned then .poisoned else .dirty)
        | none => s
      else s
    s.stashMod core key fun l => { l with sec0 := l.sec0.kept, sec1 := l.sec1.kept }

/-- A stash line goes to I after its write-back; the home slice notes it, and a pin keeps the way (R73, R95, R234). -/
def State.stashLose (s : State) (core key : Nat) : State :=
  match (s.core core).stash.find? fun e => e.1 == key with
  | none => s
  | some (_, l) =>
    let s := s.stashBack core key
    let s := if l.pin then s.stashMod core key fun l => { l with st := .i, sec0 := .absent, sec1 := .absent }
      else s.modCore core fun c => { c with stash := c.stash.filter fun e => e.1 != key }
    s.l2Mod l.vmid l.gtag fun m => { m with dir := m.dir.drop core }

/-- Drops a stash line after its write-back, with its pin; the home slice notes it (R73, R95). -/
def State.stashDrop (s : State) (core key : Nat) : State :=
  match (s.core core).stash.find? fun e => e.1 == key with
  | none => s
  | some (_, l) =>
    let s := (s.stashBack core key).modCore core fun c => { c with stash := c.stash.filter fun e => e.1 != key }
    s.l2Mod l.vmid l.gtag fun m => { m with dir := m.dir.drop core }

/-- Evicts a stash line: its dirty sectors are written back, and the directory learns of it by a drop notice or by the
write-back (R73, R95). -/
def State.stashEvict (s : State) (core key : Nat) : State :=
  match (s.core core).stash.find? fun e => e.1 == key with
  | none => s
  | some (_, l) =>
    let s := (s.stashBack core key).modCore core fun c => { c with stash := c.stash.filter fun e => e.1 != key }
    let kind : PgKind := if l.st = .s then .drop else .writeback
    let r := pgReqFor kind core { lpn := (s.core core).host, slot := 0 } l.vmid (l.gtag * 256)
    let id := s.nextId
    (s.launchItem (.pg r)).post (if l.st = .s then .l2DropNotice id else .l2Writeback id)

/-- Drops a core's copy of a line, if it has one; its dirty sectors are written back (R73). -/
def State.dropCopy (s : State) (core vmid line : Nat) : State :=
  match s.stashLine core vmid line with
  | some (key, _) => s.stashLose core key
  | none => s

/-- A directory entry after every holder but one has acknowledged an invalidation: a group vector names no one else any more. -/
def Dir.only (but : Option Nat) : Dir → Dir
  | .sv _ => match but with
    | some c => .s [c]
    | none => .u
  | d => d

/-- Drops every stash copy of a line but one core's (R95). -/
def State.dropCopies (s : State) (vmid line : Nat) (but : Option Nat) : State :=
  let hold := s.holders vmid line
  let s := hold.foldl (fun s c => if some c = but then s else s.dropCopy c vmid line) s
  s.l2Mod vmid line fun m => { m with dir := m.dir.only (but.filter fun c => hold.contains c) }

/-- Empties a core's stash with write-back: every line and every pin goes (R77). -/
def State.emptyStash (s : State) (core : Nat) : State :=
  ((s.core core).stash.map fun e => e.1).foldl (fun s k => s.stashDrop core k) s

/-- Squashes the chunks of a process whose read set holds a line, as SINV and back-invalidation do (R73, R236). -/
def State.squashHere (s : State) (lpn : Nat) (l : Line) : State :=
  (allSlots.map fun n => ({ lpn := lpn, slot := n } : Who)).foldl (fun s w => s.squashOn l w) s

/-- Is a line in a set of an uncommitted chunk of a process (R70, R75)? -/
def State.heldLine (s : State) (lpn : Nat) (l : Line) : Bool :=
  (s.proc lpn).slots.any fun t =>
    (match t.2.chunk with
      | some c => c.reads.contains l || c.writes.contains l
      | none => false) ||
    (match t.2.commit with
      | some c => c.chunk.reads.contains l || c.chunk.writes.contains l
      | none => false)

/-- The way a fill takes in a core's stash: an invalid one, else one neither pinned nor held by an uncommitted chunk
(R70); `none` when every way is (R75). -/
def State.stashWay (s : State) (core la : Nat) : Option (Nat × Bool) :=
  let c := s.core core
  let p := s.proc c.host
  let set := la / 256 % (max 1 (stashSets p))
  let inSet := c.stash.filter fun e => e.1 / 8 == set
  match (List.range 8).filter fun w => !(inSet.any fun e => e.1 % 8 == w) with
  | w :: _ => some (set * 8 + w, false)
  | [] =>
    let cand := (inSet.filter fun e => !e.2.pin && !s.heldLine c.host (.paged e.2.vmid e.2.gtag)).map fun e => e.1 % 8
    (pickWay (spGet 0 c.lru set) s.free cand).map fun w => (set * 8 + w, true)

/-- Is there a way for a line that a core's stash does not hold: the one its pin has kept, or one that a fill may take (R70, R234)? -/
def State.stashRoom (s : State) (core vmid line la : Nat) : Bool :=
  (s.stashKept core vmid line).isSome || (s.stashWay core la).isSome

/-- Installs a sector in a core's stash: in the line that is held, where a sector that is present keeps its state and data, or in a
new way (R72 to R74). -/
def State.stashInstall (s : State) (core : Nat) (r : PgReq) (mt : Nat) (w2 : Bool) (st : SecSt) : State :=
  let line := r.gpa / 256
  match s.stashLine core r.vmid line with
  | some (key, _) =>
    s.stashMod core key fun l =>
      let l := { l with ltag := r.la / 256, w1 := r.w1, u1 := r.u1, mt := mt, w2 := w2 }
      if l.sec (secOf r.gpa) = SecSt.absent then l.setSec (secOf r.gpa) st else l
  | none =>
    match s.stashKept core r.vmid line with
    | some key =>
      (s.stashMod core key fun l =>
        ({ l with st := .s, ltag := r.la / 256, w1 := r.w1, u1 := r.u1, mt := mt, w2 := w2 }).setSec (secOf r.gpa) st).l2Mod r.vmid line
        fun m => { m with dir := m.dir.add core }
    | none =>
    match s.stashWay core r.la with
    | none => s
    | some (key, evict) =>
      let s := if evict then (s.stashEvict core key).tick else s
      let l : StashLine := { st := .s, ltag := r.la / 256, vmid := r.vmid, gtag := line, sec0 := .absent, sec1 := .absent,
                             w1 := r.w1, u1 := r.u1, mt := mt, w2 := w2, pin := false }
      let s := s.modCore core fun c =>
        { c with stash := c.stash ++ [(key, l.setSec (secOf r.gpa) st)],
                 lru := spPut c.lru (key / 8) (Config.lruTouch (spGet 0 c.lru (key / 8)) (key % 8)) }
      s.l2Mod r.vmid line fun m => { m with dir := m.dir.add core }

/-! ## L2 lines (R93 to R96) -/

/-- A write-back of a sector to the memory side takes a token that may not be there (R105). -/
def State.wbToken (s : State) (k vmid : Nat) : State :=
  if vmid = 0 then s
  else s.modSlice k fun x => { x with buckets := spPut x.buckets vmid (max (-(s.bwDepth vmid : Int)) (s.bucket k vmid - 1)) }

/-- Evicts an L2 line: every stash copy is back-invalidated, its readers are squashed, and its dirty and poisoned
sectors go to the memory side (R95). CHGWB falls on the requester that forced it (R106). Requests that waited for the line go on. -/
def State.l2Evict (s : State) (l : L2Line) (charge : Option Nat) : State :=
  let s := s.dropCopies l.vmid l.line none
  let s := s.squashReaders (.paged l.vmid l.line) none
  let s := forEach [0, 1] s fun s k => s.meetL2 noCore l.vmid (l.line * 256 + 128 * k)
  match s.l2Find l.vmid l.line with
  | none => s
  | some l =>
    let s := s.modSlice (sliceOf l.line) fun x => { x with lines := x.lines.filter fun m => !(m.vmid == l.vmid && m.line == l.line) }
    let s := forEach [0, 1] s fun s k =>
      if (l.sec k).down then
        let s := (s.mscWrite l.vmid l.line k l.hline (l.sec k)).secGc l.vmid l.line k
        let s := match charge with
          | some lpn => s.modProc lpn fun p => { p with chgwb := p.chgwb + 1 }
          | none => s
        s.wbToken (sliceOf l.line) l.vmid
      else s.secGc l.vmid l.line k
    s.postItems ((l.busy.map fun b => b.req).toList ++ l.waiting)

/-- The way a fill takes in a slice: an invalid one of the mask, else an unpinned line's, one in state U before the
others (R96). -/
def State.l2Way (s : State) (vmid line : Nat) : Option (Nat × Option L2Line) :=
  let x := s.slice (sliceOf line)
  let set := homeSet line
  let inSet := x.lines.filter fun m => homeSet m.line == set
  let ways := waysOf (s.l2Mask vmid) 16
  match ways.filter fun w => !(inSet.any fun m => m.way == w) with
  | w :: _ => some (w, none)
  | [] =>
    let ok := inSet.filter fun m => m.pins == 0 && ways.contains m.way
    let free := ok.filter fun m => m.dir == .u
    let cand := if free.isEmpty then ok else free
    match pickWay (spGet 0 x.lru set) s.free (cand.map fun m => m.way) with
    | none => none
    | some w => some (w, cand.find? fun m => m.way == w)

/-- Installs a sector that came from the memory side in its slice, when a way qualifies; a line in a way outside the mask takes none
(R96, R102, R103). -/
def State.l2Install (s : State) (r : PgReq) (mt : Nat) (w2 : Bool) (hline : Nat) (st : SecSt) : State :=
  let line := r.gpa / 256
  if s.nonAlloc r.vmid mt then s else
  match s.l2Find r.vmid line with
  | some l =>
    if l.sec (secOf r.gpa) = .absent && s.l2Mask r.vmid / 2 ^ l.way % 2 = 0 then s
    else s.l2Mod r.vmid line fun m => ({ m with mt := mt, w2 := w2, hline := hline }).setSec (secOf r.gpa) st
  | none =>
    match s.l2Way r.vmid line with
    | none => s
    | some (w, old) =>
      let s := match old with
        | some m => (s.l2Evict m (if r.who.slot = hostSlot then none else some r.who.lpn)).tick
        | none => s
      let l : L2Line := { vmid := r.vmid, line := line, way := w, sec0 := .absent, sec1 := .absent, dir := .u, pins := 0,
                          mt := mt, w2 := w2, hline := hline, busy := none, waiting := [] }
      s.modSlice (sliceOf line) fun x =>
        { x with lines := x.lines ++ [l.setSec (secOf r.gpa) st],
                 lru := spPut x.lru (homeSet line) (Config.lruTouch (spGet 0 x.lru (homeSet line)) w) }

/-! ## Coherent writes below the stashes -/

/-- A non-atomic access to a line by another core, or by a unit that is no core, clears its predictor entry (R98). -/
def State.predClear (s : State) (vmid line core : Nat) : State :=
  s.modSlice (sliceOf line) fun x =>
    { x with preds := x.preds.filter fun p => !(p.vmid == vmid && p.line == line && p.core != core) }


/-- The frame of a guest-physical line as the caches record it or as stage two gives it now. -/
def State.frameOf (s : State) (vmid gpa : Nat) : Option Nat :=
  match s.l2Find vmid (gpa / 256) with
  | some l => some (l.hline * 256 + gpa % 256)
  | none =>
    match s.mscFind vmid (gpa / 256) with
    | some l => some (l.hline * 256 + gpa % 256)
    | none =>
      match s.s2Find vmid gpa with
      | .ok l => some l.hpa
      | .bad _ _ => none

/-- Writes n bytes of a sector at the home: the cached sector becomes dirty where it is held, else memory is written
(R103, R115). -/
def State.pgWrite (s : State) (vmid gpa hpa n v : Nat) : State :=
  let line := gpa / 256
  let k := secOf gpa
  if spHas s.secs (secKey vmid gpa) then
    let s := { s with secs := spPut s.secs (secKey vmid gpa) (secWrite (s.secAt vmid gpa hpa) (gpa % 128) n v) }
    match s.l2Find vmid line with
    | some l =>
      if l.sec k != .absent then s.l2Mod vmid line fun m => m.setSec k (if m.sec k = .poisoned then .poisoned else .dirty)
      else
        s.modBase (homeDie line / 4) fun x =>
          { x with lines := mapIf (fun m => m.vmid == vmid && m.line == line) (fun m => m.setSec k (if m.sec k = .poisoned then .poisoned else .dirty)) x.lines }
    | none =>
      s.modBase (homeDie line / 4) fun x =>
        { x with lines := mapIf (fun m => m.vmid == vmid && m.line == line) (fun m => m.setSec k (if m.sec k = .poisoned then .poisoned else .dirty)) x.lines }
  else { s with mem := memWrite s.mem hpa n v }

/-- A step that writes a line at its home for a party that is no stash: every copy goes, every reader is squashed, the
bytes are written (R95, R142, R150). -/
def State.homeWrite (s : State) (vmid gpa hpa n v : Nat) (but : Option Who) : State :=
  let s := s.dropCopies vmid (gpa / 256) none
  let s := s.squashReaders (.paged vmid (gpa / 256)) but
  let s := s.predClear vmid (gpa / 256) noCore
  s.pgWrite vmid gpa hpa n v

/-- Is a paged sector poisoned wherever it now is (R72, R127)? -/
def State.secBad (s : State) (vmid gpa hpa : Nat) : Bool :=
  let line := gpa / 256
  let k := secOf gpa
  let atL2 := match s.l2Find vmid line with
    | some l => l.sec k
    | none => .absent
  if atL2 != .absent then atL2 == .poisoned
  else match s.mscFind vmid line with
    | some l => if l.sec k != .absent then l.sec k == .poisoned else s.poison.contains (hpa / 128)
    | none => s.poison.contains (hpa / 128)

/-- Writes the dirty and poisoned sectors of a line down to memory (R129). -/
def State.storeDown (s : State) (vmid line hline : Nat) (st : Nat → SecSt) : State :=
  forEach [0, 1] s fun s k => if (st k).down then s.secStore vmid line k hline (st k == .poisoned) else s

/-- An L2 line after its sectors were written down. -/
def L2Line.cleaned (l : L2Line) : L2Line := { l with sec0 := l.sec0.kept, sec1 := l.sec1.kept }

/-- A memory-side line after its sectors were written down. -/
def MscLine.cleaned (l : MscLine) : MscLine := { l with sec0 := l.sec0.kept, sec1 := l.sec1.kept }

/-- Dirty sectors of every cache written down to memory, lines staying valid and clean (R129). -/
def State.flushAll (s : State) : State :=
  let meet (s : State) (e : ErrAt) : State := match e with
    | .l2 v n => s.meetL2 noCore v (n * 128)
    | .msc v n => s.meetMsc noCore v (n * 128)
    | .mem _ => s
    | .slot _ _ => s
    | .core _ => s
  let s := s.errs.foldl meet s
  let s := s.cores.foldl (fun s c => c.2.stash.foldl (fun s e => s.stashBack c.1 e.1) s) s
  let s := s.slices.foldl (fun s x => x.2.lines.foldl (fun s l => s.storeDown l.vmid l.line l.hline l.sec) s) s
  let s := { s with slices := spMap s.slices fun _ x => { x with lines := x.lines.map L2Line.cleaned } }
  let s := s.bases.foldl (fun s b => b.2.lines.foldl (fun s l => s.storeDown l.vmid l.line l.hline l.sec) s) s
  { s with bases := spMap s.bases fun _ x => { x with lines := x.lines.map MscLine.cleaned } }

/-! ## Buckets (R104, R105) -/

/-- Takes a token from a VMID's own bucket at a slice, if it has one; VMID 0 needs none. -/
def State.ownToken (s : State) (k vmid : Nat) : Option State :=
  if vmid = 0 then some s
  else if s.bucket k vmid ≥ 1 then some (s.modSlice k fun x => { x with buckets := spPut x.buckets vmid (s.bucket k vmid - 1) })
  else none

/-- Takes a token from a die's pool, if it has one. -/
def State.poolToken (s : State) (die : Nat) : Option State :=
  if 1 ≤ spGet 0 s.pools die then some { s with pools := spPut s.pools die (spGet 0 s.pools die - 1) } else none

/-- Takes a token for a VMID at a slice: from its bucket, else from the die's pool; `none` when neither has one. -/
def State.takeToken (s : State) (k vmid : Nat) : Option State :=
  match s.ownToken k vmid with
  | some s' => some s'
  | none => s.poolToken (dieOfSlice k)

/-- Do requests wait for a token at any slice of a die? -/
def State.dieWaits (s : State) (die : Nat) : Bool := s.slices.any fun x => dieOfSlice x.1 == die && !x.2.misses.isEmpty

/-! ## Reads of tables (R38, R46, R47, R115) -/

/-- The stage-two unit translates an address of a VMID: the entries it reads are kept in the memory-side cache under VMID 0, the leaf
in its own (R47, R115). -/
def State.s2Load (s : State) (vmid gpa : Nat) : State :=
  let has := (s.base (baseOf gpa)).s2.any fun e => e.vmid == vmid && e.page == gpa / e.size
  let root := spGet 0 s.regs.vmroot vmid
  if vmid = 0 || has || !(tb 0 root) then s
  else
    let s' := (s.s2Path gpa 4 (fld 47 12 root * 2 ^ 12)).foldl (fun s a =>
      if s.l2Sec 0 a != .absent || s.mscSec 0 a != .absent then s else (s.mscKeep 0 a a).secGc 0 (a / 256) (secOf a)) s
    match s.s2Fresh vmid gpa with
    | .bad _ _ => s'
    | .ok l => s'.modBase (baseOf gpa) fun b =>
      let e : S2Ent := { vmid := vmid, page := gpa / l.size, size := l.size, hpa := l.hpa / l.size * l.size, r := l.r, w := l.w, b := l.b,
                         mt := l.mt, level := l.level }
      { b with s2 := (b.s2 ++ [e]).drop (b.s2.length + 1 - 4096) }

/-- A read of a line at its home slice takes the copy of another core that owns it, or has it exclusively, back first (R73, R95). -/
def State.recallNow (s : State) (vmid line core : Nat) : State :=
  match s.l2Find vmid line with
  | some l =>
    match l.dir with
    | .o c =>
      if c = core then s else
      match s.stashLine c vmid line with
      | some (key, x) => ((s.stashBack c key).stashMod c key fun _ => { x with st := .s, sec0 := x.sec0.kept, sec1 := x.sec1.kept }).l2Mod
          vmid line fun m => { m with dir := .s [c] }
      | none => s
    | .x c => if c = core then s else s.dropCopy c vmid line
    | _ => s
  | none => s

/-- A walker's read of one entry at its slice: a hit, or a fill with a token, kept in the caches that it came through (R38, R95, R105,
R115). What is evicted for it is charged to the walk's thread. -/
def State.entryRead (s : State) (vmid : Nat) (w : Who) (a : Nat) : State :=
  let s := s.meetL2 noCore vmid a
  let line := a / 256
  if s.l2Sec vmid a != .absent then s.recallNow vmid line noCore
  else
    let s := (s.takeToken (sliceOf line) vmid).getD s
    let r := pgReqFor (.fill false) noCore w vmid a
    let s := s.meetMsc noCore vmid a
    match s.mscFind vmid line, s.mscSec vmid a with
    | some l, .clean => s.l2Install r 0 (vmid == 0) l.hline .clean
    | some l, .dirty => s.l2Install r 0 (vmid == 0) l.hline .clean
    | some l, .poisoned => s.l2Install r 0 (vmid == 0) l.hline .poisoned
    | _, _ =>
      let s := s.s2Load vmid a
      match s.s2Find vmid a with
      | .ok l =>
        if l.mt != 0 then s
        else ((s.mscKeep vmid a l.hpa).l2Install r 0 l.w (l.hpa / 256) (if s.poison.contains (l.hpa / 128) then .poisoned else .clean)).secGc
          vmid line (secOf a)
      | .bad _ _ => s

/-- The reads of a walk (R38). -/
def State.walkReads (s : State) (vmid : Nat) (w : Who) (l : List Nat) : State := l.foldl (fun s a => s.entryRead vmid w a) s

/-- The first-stage leaf for an access that a unit makes for a thread, with the reads of its walk (R38, R43). -/
def State.leafNow (s : State) (p : Proc) (w : Who) (la : Nat) : State × W1Res :=
  match s.rowHit p la with
  | some l => (s, .ok l)
  | none =>
    let k := s.walk1 p la
    (s.walkReads p.vmid w k.reads, k.res)

end Sys2Proof.Machine
end

