-- ==== Sys2Proof/Machine/Net.lean ====
section
/-!
DEFINITION. The ways items travel: the egress latch (14 R333), the mesh and its routing by process (04 R82 to R84, 23
R434), requests of the paged region and their combining on the omega network (04 R87 to R92), and replies.
-/

namespace Sys2Proof.Machine

/-! ## Where an item goes -/

/-- Module of a core number or LPN (R11, R13). -/
def moduleOf (n : Nat) : Nat := n / 8192 % 64

/-- The process an item of the mesh is for, and the process that sent it (R434). -/
def Item.ends : Item → Option (Nat × Nat)
  | .win who _ dst _ => some (dst, who.lpn)
  | .reply who _ => some (who.lpn, who.lpn)
  | .parked who _ _ _ _ => some (who.lpn, who.lpn)
  | .msg m => some (m.dst, m.src)
  | .ack src dst _ _ => some (src, dst)
  | .msgRefused m _ => some (m.src, m.dst)
  | .carry c => some (c.dst, c.origin.lpn)
  | .carryAck c _ => some (c.origin.lpn, c.dst)
  | .carryRef c _ => some (c.origin.lpn, c.dst)
  | .weight src dst _ _ => some (dst, src)
  | _ => none

/-- Is a core frozen (R129, R335, R448)? -/
def Core.frozen (c : Core) : Bool := c.frzSwap || c.frzCkpt || c.frzAlarm

/-- A packet that addresses a gated core, or a launch wake, fills the wake latch and powers the core up (R470). -/
def State.rouse (s : State) (core : Nat) : State :=
  if (s.core core).gated then (s.modCore core fun c => { c with wakeLatch := true }).post (.coreWake core) else s

/-- An item reaches a core: it waits there while the core is frozen, is handled when the core hosts its process, and is
sent on otherwise (R335, R434). A packet for a gated core wakes it (R470). -/
def State.arriveAt (s : State) (id core : Nat) (i : Item) : State :=
  match i.ends with
  | none => s.post (i.event id)
  | some (lpn, _) =>
    let c := s.core core
    if c.frozen then s.modCore core fun c => { c with held := c.held ++ [id] }
    else
      let s := s.rouse core
      if c.host = lpn then s.post (i.event id) else s.post (.forwardItem id core)

/-- The core a sender's core takes a process to be on: its own, the cached placement, or through the arbiter's table
(R433). -/
def State.believed (s : State) (core lpn : Nat) : Option Nat :=
  if (s.core core).host = lpn then some core else
  match (s.core core).pcache.find? fun e => e.1 == lpn with
  | some e => some e.2
  | none => if spHas s.place lpn then some (spGet Place.init s.place lpn).core else none

/-- An item for another module leaves this one, or waits at the network interface while no Bronex link is up, for
2^24 cycles of the network (R467; log 1, log 60). -/
def State.departModule (s : State) (id : Nat) (i : Item) : State :=
  if s.regs.brxup = 0 then s.after .network (2 ^ 24) (.routeWaitTimeout id)
  else { s.dropItem id with outbox := s.outbox ++ [i] }

/-- An item leaves a core (R84, R434). One for a process the module does not place leaves the module (log 1). -/
def State.depart (s : State) (core id : Nat) (i : Item) : State :=
  match i.ends with
  | none => s.post (i.event id)
  | some (lpn, _) =>
    match s.believed core lpn with
    | some d => s.arriveAt id d i
    | none =>
      if moduleOf lpn = s.module then s.arriveAt id (s.hostOf lpn) i
      else s.departModule id i

/-! ## The egress latch (R333) -/

/-- A request of the running bundle enters its core's egress latch for 2 cycles. -/
def State.emit (s : State) (core id : Nat) (i : Item) : State :=
  ((s.putItem id i).modCore core fun c => { c with egress := c.egress ++ [{ due := c.cycle + 2, id := id }] }).after
    (.core core) 2 (.egressLatchRelease core)

/-- Sends an item under a new identity through the egress latch. -/
def State.sendItem (s : State) (core : Nat) (i : Item) : State := s.fresh.emit core s.nextId i

/-- Sends an item that no bundle holds back: a reply or a notice of a unit. -/
def State.sendNow (s : State) (core : Nat) (i : Item) : State := (s.launchItem i).depart core s.nextId i

/-! ## Combining (R90 to R92) -/

/-- Die of a core. -/
def dieOf (c : Nat) : Nat := c / 512 % 16

/-- Are two requests combinable AFAAs of one die's network (R87, R88, R90)? The bridge stands behind the last stage, so that requests for
another die meet in the network of their own (log 59). -/
def combinable (q1 q2 : PgReq) : Bool :=
  match q1.kind, q2.kind with
  | .atomic f1 z1 _ _ _, .atomic f2 z2 _ _ _ =>
    f1 == 0 && f2 == 0 && z1 == z2 && q1.gpa == q2.gpa && q1.vmid == q2.vmid && dieOf q1.core == dieOf q2.core
  | _, _ => false

/-- The first switch stage at which two ports of a die meet on the way to one slice (R87). -/
def meetStage (c1 c2 : Nat) : Nat → Nat
  | 0 => 8
  | n + 1 => if c1 % 2 ^ (n + 1) = c2 % 2 ^ (n + 1) then 8 - (n + 1) else meetStage c1 c2 n

/-- The switch output at which two requests meet: its stage and line (R87, R91). -/
def meetAt (q1 q2 : PgReq) : Nat :=
  let k := meetStage (q1.core % 512) (q2.core % 512) 8
  let sl := homeSlice (q1.gpa / 256)
  dieOf q1.core * 8192 + k * 512 + (q1.core % 2 ^ (8 - k)) * 2 ^ (k + 1) + sl / 2 ^ (8 - k)

/-- Is the second of two requests the first of a combination: it is on input 0 of the switch at which they meet, and the other on input
1, for what waits unsent in one cycle has arrived in it (R87, R91)? -/
def inputFirst (q1 q2 : PgReq) : Bool :=
  let k := meetStage (q1.core % 512) (q2.core % 512) 8
  q1.core / 2 ^ (8 - k) % 2 == 1 && q2.core / 2 ^ (8 - k) % 2 == 0

/-- Does an atomic wait unsent on its way to its slice (R91)? -/
def State.unsent (s : State) (id : Nat) : Bool :=
  s.agenda.contains (.l2Atomic id) && (match s.item id with
    | some (.pg r) => r.arr.isNone
    | _ => false)

/-- The events of two requests become the one of the request that combines them. -/
def combinedEvents (i1 i2 id : Nat) (l : List Ev) : List Ev :=
  let at1 := l.contains (.l2Atomic i1)
  l.filterMap fun e =>
    if e = .l2Atomic i1 then some (.l2Atomic id)
    else if e = .l2Atomic i2 then (if at1 then none else some (.l2Atomic id))
    else some e

/-- Combine(q1, q2): the first carries both addends and the switch keeps a record; both wait for the split (R91).
Nothing happens when the two do not combine or the buffer is full. -/
def State.combineTwo (s : State) (j1 j2 : Nat) : Option State :=
  match s.item j1, s.item j2 with
  | some (.pg r1), some (.pg r2) =>
    if !combinable r1 r2 then none else
    let key := meetAt r1 r2
    let recs := spGet [] s.combine key
    if 8 ≤ recs.length then none else
    let (i1, q1, i2, q2) := if inputFirst r1 r2 then (j2, r2, j1, r1) else (j1, r1, j2, r2)
    match q1.kind, q2.kind with
    | .atomic _ z r1 x1 y, .atomic _ _ r2 x2 _ =>
      let id := s.nextId
      let sum := w64 ((x1.toNat + x2.toNat) % 2 ^ (8 * z))
      let q : PgReq := { q1 with kind := .atomic 0 z (r1 || r2) sum y, parts := some (i1, i2, x1), stale := q1.stale || q2.stale }
      let s := s.fresh.putItem id (.pg q)
      some { s with combine := spPut s.combine key (recs ++ [id]), agenda := combinedEvents i1 i2 id s.agenda }
    | _, _ => none
  | _, _ => none

/-- A request combines with the first of those that wait unsent with which it can (R91). -/
def State.combineAny (s : State) (id : Nat) : List Nat → Option State
  | [] => none
  | i :: l =>
    match s.combineTwo i id with
    | some s' => some s'
    | none => s.combineAny id l

/-- A request of the paged region goes to its home slice; an AFAA may combine with one that waits unsent (R87, R91). -/
def State.departPg (s : State) (id : Nat) (r : PgReq) : State :=
  let prior := (s.net.filter fun p => p.1 != id && s.unsent p.1).map fun p => p.1
  match s.combineAny id prior with
  | some s' => s'
  | none => s.post ((Item.pg r).event id)

/-- OMEGA_COMBINE: two requests that wait unsent combine (R91). -/
def execOmegaCombine (first second : Nat) (s : State) : Out :=
  .next (if first = second || !s.unsent first || !s.unsent second then s else (s.combineTwo first second).getD s)

/-- EGRESS_LATCH_RELEASE: the requests whose two cycles are over leave the core, in order (R333). -/
def execEgressLatchRelease (core : Nat) (s : State) : Out :=
  let c := s.core core
  let go := c.egress.filter fun e => e.due ≤ c.cycle
  let s := s.modCore core fun c => { c with egress := c.egress.filter fun e => !(e.due ≤ c.cycle) }
  .next (go.foldl (fun s e =>
    match s.item e.id with
    | some (.pg r) => s.departPg e.id r
    | some i => s.depart core e.id i
    | none => s) s)

/-! ## Replies -/

/-- A reply to a thread's request goes back under the request's identity (R78). -/
def State.answer (s : State) (core id : Nat) (who : Who) (r : Res) : State :=
  let i : Item := .reply who r
  (s.putItem id i).depart core id i

/-- A commit that waits for a landing, an acknowledgement or its predecessor is tried again (R141). -/
def State.retryCommit (s : State) (w : Who) : State :=
  match (s.slot w).commit with
  | some c => if c.st = .waiting then s.post (.chunkCommit w.lpn w.slot) else s
  | none => s

/-- A result reaches the landing entry of an identity; its thread may go on, and its commit (R165, R227). -/
def State.landResult (s : State) (w : Who) (id : Nat) (r : Landed) : State :=
  let s := (s.modSlot w fun t => t.arrive id r).retryCommit w
  match (s.slot w).wait with
  | some x => if x.kind = .landing then s.wake w else s
  | none => s

/-- The landing entry with an identity, in the registers or in a checkpoint. -/
def Slot.landingOf (t : Slot) (id : Nat) : Option Landing :=
  let at_ (l : List Landing) : Option Landing := l.find? fun e => e.id == id
  match at_ t.arch.landing with
  | some e => some e
  | none =>
    match t.chunk.bind fun c => at_ c.start.landing with
    | some e => some e
    | none => t.commit.bind fun c => at_ c.chunk.start.landing

/-- Has a thread a landing entry with an identity? -/
def Slot.hasLanding (t : Slot) (id : Nat) : Bool :=
  t.arch.landing.any (fun l => l.id == id) ||
  (match t.chunk with
    | some c => c.start.landing.any fun l => l.id == id
    | none => false) ||
  (match t.commit with
    | some c => c.chunk.start.landing.any fun l => l.id == id
    | none => false)

/-- A non-returning atomic is acknowledged (R141, R156). -/
def State.atomicAck (s : State) (w : Who) (id : Nat) : State :=
  let s := (s.modSlot w fun t => { t with atomics := t.atomics.filter fun a => a.1 != id }).retryCommit w
  match (s.slot w).wait with
  | some x => if x.kind = .fence || x.kind = .send || x.kind = .retj || x.kind = .commit then s.wake w else s
  | none => s

/-- Completes word A of a thread that waits in place: its result is written and the bundle goes on at the thread's next
issue (R67, R226). -/
def State.complete (s : State) (w : Who) (f : Slot → Slot) : State :=
  s.modSlot w fun t => let t := f t; { t with st := if t.st = .waiting then .ready else t.st, wait := none }

/-- A deferred SEGV reason 5: raised at the thread's next issue (R32). -/
def State.deferRefusal (s : State) (w : Who) (pc : BitVec 20) (addr : W64) (seg : Nat) : State :=
  s.modSlot w fun t =>
    { t with due := t.due ++ [{ mkDue cSEGV seg 5 addr pc with deferred := true }],
             st := if t.st = .waiting && (match t.wait with
               | some x => x.kind == .fence || x.kind == .landing
               | none => false) then .ready else t.st }

end Sys2Proof.Machine
end

