-- ==== Sys2Proof/Machine/Msg.lean ====
section
/-!
DEFINITION. Messages (11): the channel blocks and queues, the sequence table, acceptance, reorder and spill, refusals
and skip notices, SEND, RECV, PEEK, CHSTAT, WAITM, the inbox, and the user-interrupt state.
-/

namespace Sys2Proof.Machine

/-! ## User interrupts (R270, R271) -/

/-- UISTAT with a pending bit set. -/
def pendSet (bit : Nat) (v : W64) : W64 := v ||| (1 <<< (16 + bit))

/-- The interrupts pending and not masked. -/
def Slot.unmasked (t : Slot) : Nat := fld 24 16 t.regs.uistat &&& (511 - fld 8 0 t.regs.uistat)

/-- Does a wait of this kind give way to a delivery or end with a pending bit (R272, R392)? -/
def WaitKind.interruptible : WaitKind → Bool
  | .recv _ => true
  | .waitm _ => true
  | .inbox => true
  | .pop n => n == 4
  | .sleep => true
  | _ => false

/-- Offset of the Cocoon of a slot (R59). -/
def cocoonAt (slot : Nat) : Nat := 0x200 * slot

/-- An interrupt aims at a slot: it is dropped when the slot is absent, kept in the Cocoon when it is reserved, and
wakes a wait it may interrupt (R271, R272, R396). -/
def State.pend (s : State) (lpn slot bit : Nat) : State :=
  let w : Who := { lpn := lpn, slot := slot }
  let t := s.slot w
  if t.st = .absent then
    if t.reserved then
      let a := cocoonAt slot + 0x198
      s.hwWrite lpn a (pendSet bit (s.hwRead lpn a))
    else s
  else
    let s := s.modSlot w fun t => { t with regs := { t.regs with uistat := pendSet bit t.regs.uistat } }
    let t := s.slot w
    match t.wait with
    | some x =>
      if x.kind.interruptible && t.unmasked != 0 && (x.kind = .sleep || (tb 0 t.regs.uivec && !t.inUser)) then s.wake w
      else s
    | none => s

/-! ## Channel blocks and queues (R248, R250) -/

/-- Dword 0 of a channel block. -/
def State.chA (s : State) (lpn k : Nat) : W64 := s.hwRead lpn (0x3400 + 0x40 * k)

/-- Dword 1 of a channel block. -/
def State.chB (s : State) (lpn k : Nat) : W64 := s.hwRead lpn (0x3408 + 0x40 * k)

/-- Writes dword 1 of a channel block. -/
def State.setChB (s : State) (lpn k : Nat) (v : W64) : State := s.hwWrite lpn (0x3408 + 0x40 * k) v

/-- Channel open. -/
def chEN (a : W64) : Bool := tb 0 a
/-- Queue capacity. -/
def chQCAP (a : W64) : Nat := fld 19 8 a
/-- Queue base. -/
def chQBASE (a : W64) : Nat := fld 39 20 a
/-- Head index. -/
def chHEAD (b : W64) : Nat := fld 11 0 b
/-- Messages in the queue. -/
def chCOUNT (b : W64) : Nat := fld 23 12 b
/-- Messages of the channel in the spill area. -/
def chSPILLN (b : W64) : Nat := fld 39 24 b

/-- Reorder dword 0. -/
def State.roA (s : State) (lpn : Nat) : W64 := s.hwRead lpn 0x3600
/-- Reorder dword 1. -/
def State.roB (s : State) (lpn : Nat) : W64 := s.hwRead lpn 0x3608

/-- The header of a message (R248). Bit 62 marks a skip notice held in a reorder slot (log 16). -/
def Msg.header (m : Msg) : W64 :=
  w64 (m.src % 2 ^ 19 + m.ch % 8 * 2 ^ 19 + m.seq % 4096 * 2 ^ 22 + (m.pay.length - 1) % 8 * 2 ^ 34 + 2 ^ 63 +
    (if m.skip then 2 ^ 62 else 0))

/-- The nine dwords of a stored message. -/
def Msg.words (m : Msg) : List W64 := m.header :: (m.pay ++ List.replicate (8 - m.pay.length) 0)

/-- Dwords written by the hardware in one step of the core's domain: readers of their blocks are squashed (R142). -/
def State.hwDwords (s : State) (lpn off : Nat) : List W64 → State
  | [] => s
  | v :: l => ((s.squashReaders (locLine lpn off) none).hwWrite lpn off v).hwDwords lpn (off + 8) l

/-- n dwords of local memory. -/
def State.hwReads (s : State) (lpn off : Nat) : Nat → List W64
  | 0 => []
  | n + 1 => s.hwRead lpn off :: s.hwReads lpn (off + 8) n

/-! ## The spill area (R258, R262) -/

/-- Capacity of the spill area in slots. -/
def State.quota (s : State) (lpn : Nat) : Nat := fld 63 48 (s.proc lpn).spillq

/-- Has the spill area a free slot? -/
def State.spillRoom (s : State) (lpn : Nat) : Bool := (s.proc lpn).spill.length < s.quota lpn

/-- Guest-physical address of a spill slot. -/
def State.spillAddr (s : State) (lpn k : Nat) : Nat := fld 47 12 (s.proc lpn).spillq * 4096 + 72 * k

/-- The second-stage fault that an access to a spill slot meets. -/
def State.spillFault (s : State) (lpn k : Nat) (wr : Bool) : Option XFault :=
  let v := (s.proc lpn).vmid
  let chk (g : Nat) : Option XFault :=
    match s2Check v g 0 wr (s.s2Find v g) with
    | .error f => some f
    | .ok _ => none
  match chk (s.spillAddr lpn k) with
  | some f => some f
  | none => chk (s.spillAddr lpn k + 64)

/-- The record of a second-stage fault on a spill access, which parks nothing and has no linear address (R50, R262; log 16). -/
def State.spillRecord (s : State) (lpn : Nat) (f : XFault) : State :=
  let p := s.proc lpn
  s.record (.fault (faultDwords s f.kind f.level 3 0 f.sub p.vmid p.job (s.coreNumber p.core) 0 0 f.gpa))

/-- The dwords a spill leaves in memory are not defined (R262; log 16). -/
def State.spillBytes (s : State) (lpn k : Nat) : State :=
  forEach (List.range 9) s fun s i =>
    let g := s.spillAddr lpn k + 8 * i
    let v := (s.proc lpn).vmid
    match s.s2Find v g with
    | .ok l => (s.homeWrite v g l.hpa 8 (Config.freeDword s.free).toNat none).tick
    | .bad _ _ => s

/-- Appends to the spill area; none when the quota is used up or the access faults, with the record sent. -/
def State.spillPut (s : State) (lpn : Nat) (x : Spilled) : State × Bool :=
  if !s.spillRoom lpn then (s, false) else
  let k := (s.proc lpn).spill.length
  match s.spillFault lpn k true with
  | some f => (s.spillRecord lpn f, false)
  | none => ((s.spillBytes lpn k).modProc lpn fun p => { p with spill := p.spill ++ [x] }, true)

/-- The second-stage fault that reading an entry of the spill area meets; none when no entry is the one (R262). -/
def State.spillReadFault (s : State) (lpn : Nat) (isIt : Spilled → Bool) : Option XFault :=
  let l := (s.proc lpn).spill
  if l.any isIt then s.spillFault lpn (l.findIdx isIt) false else none

/-- Is an entry of the spill area a placed message of a channel? -/
def Spilled.placedOn (k : Nat) : Spilled → Bool
  | .placed m => m.ch == k
  | _ => false

/-! ## The sequence table (R250, R258, R259) -/

/-- Offset of a sequence table entry. -/
def seqOff (i : Nat) : Nat := 0x3640 + 8 * i

/-- The low 24 bits of an entry: V, D, peer and channel. -/
def seqKey (recv : Bool) (peer ch : Nat) : Nat :=
  1 + (if recv then 2 else 0) + peer % 2 ^ 19 * 4 + ch % 8 * 2 ^ 21

/-- SEQ of an entry. -/
def seqSEQ (e : W64) : Nat := fld 35 24 e
/-- OUT of a send entry. -/
def seqOUT (e : W64) : Nat := fld 47 36 e
/-- WT of a send entry, RWT of a receive entry (R435). -/
def seqWT (e : W64) : Nat := fld 63 48 e

/-- An entry by its index. -/
def State.seqAt (s : State) (lpn i : Nat) : W64 := s.hwRead lpn (seqOff i)

/-- Writes an entry. -/
def State.seqPut (s : State) (lpn i : Nat) (e : W64) : State := s.hwWrite lpn (seqOff i) e

/-- The index of the entry with a key. -/
def State.seqFind (s : State) (lpn key : Nat) : Option Nat :=
  (List.range 312).find? fun i => (s.seqAt lpn i).toNat % 2 ^ 24 == key

/-- Marks an entry as used last. -/
def State.seqTouch (s : State) (lpn i : Nat) : State :=
  s.modProc lpn fun p => { p with seqLru := (p.seqLru.filter fun x => x != i) ++ [i] }

/-- Does the reorder buffer hold a message of a receive triple? -/
def State.inReorder (s : State) (lpn src ch : Nat) : Bool :=
  let a := s.roA lpn
  (List.range (fld 31 20 a)).any fun j =>
    let h := s.hwRead lpn (fld 19 0 a + 72 * j)
    tb 63 h && fld 18 0 h == src && fld 21 19 h == ch

/-- An entry that holds nothing may be written back (R258). -/
def State.seqIdle (s : State) (lpn i : Nat) : Bool :=
  let e := s.seqAt lpn i
  if tb 1 e then
    let src := fld 20 2 e
    let ch := fld 23 21 e
    !((s.proc lpn).spill.any fun x => match x with
      | .held m => m.src == src && m.ch == ch
      | _ => false) && !(s.inReorder lpn src ch)
  else seqOUT e == 0

/-- Finds or creates the entry with a key: from the table, back from the spill area, or new with SEQ 0 and OUT 0; a full
table writes its least recently used idle entry back. None when it cannot (R258, R259). -/
def State.seqTake (s : State) (lpn key : Nat) : State × Option Nat :=
  match s.seqFind lpn key with
  | some i => (s.seqTouch lpn i, some i)
  | none =>
    let isIt (x : Spilled) : Bool := match x with
      | .entry e => e.toNat % 2 ^ 24 == key
      | _ => false
    let pos := (s.proc lpn).spill.findIdx isIt
    let old := (s.proc lpn).spill.find? isIt
    let e : W64 := match old with
      | some (.entry e) => e
      | _ => w64 key
    match (if old.isSome then s.spillFault lpn pos false else none) with
    | some f => (s.spillRecord lpn f, none)
    | none =>
      let take (s : State) : State := s.modProc lpn fun p => { p with spill := dropFirst isIt p.spill }
      match (List.range 312).find? fun i => !(tb 0 (s.seqAt lpn i)) with
      | some i => (((take s).seqPut lpn i e).seqTouch lpn i, some i)
      | none =>
        match (s.proc lpn).seqLru.find? fun i => s.seqIdle lpn i with
        | none => (s, none)
        | some i =>
          let (s', ok) := (take s).spillPut lpn (.entry (s.seqAt lpn i))
          if ok then ((s'.seqPut lpn i e).seqTouch lpn i, some i)
          else ({ s with imago := s'.imago }, none)

/-! ## Placing, holding and releasing (R258) -/

/-- Has the queue of a channel room for a message? -/
def State.queueRoom (s : State) (lpn k : Nat) : Bool :=
  chSPILLN (s.chB lpn k) == 0 && chCOUNT (s.chB lpn k) < chQCAP (s.chA lpn k)

/-- Wakes what waits for a message of a channel. -/
def State.wakeChannel (s : State) (lpn k : Nat) : State :=
  s.wakeAll lpn fun w => w = .recv k || w = .waitm k || w = .pop 4

/-- After a placing: the channel's interrupt and its waiters (R254, R271). -/
def State.placed (s : State) (lpn k : Nat) : State :=
  let a := s.chA lpn k
  let s := if tb 1 a then s.pend lpn (fld 5 2 a) k else s
  s.wakeChannel lpn k

/-- Puts a message at the tail of its queue. -/
def State.enqueue (s : State) (lpn : Nat) (m : Msg) : State :=
  let a := s.chA lpn m.ch
  let b := s.chB lpn m.ch
  let j := (chHEAD b + chCOUNT b) % (max 1 (chQCAP a))
  (s.hwDwords lpn (chQBASE a + 72 * j) m.words).setChB lpn m.ch (setFld 23 12 (chCOUNT b + 1) b)

/-- Counts a message of the spill area. -/
def State.countSpilled (s : State) (lpn k : Nat) : State :=
  let b := s.chB lpn k
  s.setChB lpn k (setFld 39 24 (chSPILLN b + 1) b)

/-- Place(m): the queue, else the spill area; the boolean says whether there was room (R258). -/
def State.placeMsg (s : State) (lpn : Nat) (m : Msg) : State × Bool :=
  if s.queueRoom lpn m.ch then ((s.enqueue lpn m).placed lpn m.ch, true)
  else
    let (s', ok) := s.spillPut lpn (.placed m)
    if ok then ((s'.countSpilled lpn m.ch).placed lpn m.ch, true) else (s', false)

/-- A free reorder slot. -/
def State.reorderFree (s : State) (lpn : Nat) : Option Nat :=
  let a := s.roA lpn
  if fld 11 0 (s.roB lpn) < fld 31 20 a then
    (List.range (fld 31 20 a)).find? fun j => !(tb 63 (s.hwRead lpn (fld 19 0 a + 72 * j)))
  else none

/-- Hold(m): a reorder slot, else the spill area (R258). -/
def State.holdMsg (s : State) (lpn : Nat) (m : Msg) : State × Bool :=
  match s.reorderFree lpn with
  | some j =>
    let s := s.hwDwords lpn (fld 19 0 (s.roA lpn) + 72 * j) m.words
    (s.hwWrite lpn 0x3608 (setFld 11 0 (fld 11 0 (s.roB lpn) + 1) (s.roB lpn)), true)
  | none => s.spillPut lpn (.held m)

/-- The message a reorder slot holds. -/
def State.reorderMsg (s : State) (lpn j : Nat) : Msg :=
  let off := fld 19 0 (s.roA lpn) + 72 * j
  let h := s.hwRead lpn off
  { src := fld 18 0 h, dst := lpn, ch := fld 21 19 h, seq := fld 33 22 h,
    pay := s.hwReads lpn (off + 8) (fld 36 34 h + 1), tag := 0, who := { lpn := fld 18 0 h, slot := 0 }, pc := 0,
    skip := tb 62 h }

/-- The reorder slot that holds a triple's message with a number. -/
def State.reorderFind (s : State) (lpn src ch seq : Nat) : Option Nat :=
  let a := s.roA lpn
  (List.range (fld 31 20 a)).find? fun j =>
    let h := s.hwRead lpn (fld 19 0 a + 72 * j)
    tb 63 h && fld 18 0 h == src && fld 21 19 h == ch && fld 33 22 h == seq

/-- Frees a reorder slot. -/
def State.reorderDrop (s : State) (lpn j : Nat) : State :=
  let s := s.hwWrite lpn (fld 19 0 (s.roA lpn) + 72 * j) 0
  s.hwWrite lpn 0x3608 (setFld 11 0 (fld 11 0 (s.roB lpn) - 1) (s.roB lpn))

/-- Advances the number a receive entry expects. -/
def State.seqAdvance (s : State) (lpn i : Nat) : State :=
  let e := s.seqAt lpn i
  s.seqPut lpn i (setFld 35 24 ((seqSEQ e + 1) % 4096) e)

/-- The loop of Arrive for one receive entry: the held messages that are now in sequence (R258). -/
def State.release (s : State) (lpn i src ch : Nat) : Nat → State
  | 0 => s
  | n + 1 =>
    let seq := seqSEQ (s.seqAt lpn i)
    match s.reorderFind lpn src ch seq with
    | some j =>
      let m := s.reorderMsg lpn j
      if m.skip then ((s.reorderDrop lpn j).seqAdvance lpn i).release lpn i src ch n
      else
        let (s', ok) := s.placeMsg lpn m
        if ok then ((s'.reorderDrop lpn j).seqAdvance lpn i).release lpn i src ch n
        else s'.modProc lpn fun p =>
          { p with rwait := addNew (src, ch) p.rwait }
    | none =>
      let isIt (x : Spilled) : Bool := match x with
        | .held m => m.src == src && m.ch == ch && m.seq == seq
        | _ => false
      match s.spillReadFault lpn isIt with
      | some f => (s.spillRecord lpn f).modProc lpn fun p => { p with rwait := addNew (src, ch) p.rwait }
      | none =>
      match (s.proc lpn).spill.find? isIt with
      | some (.held m) =>
        let s := s.modProc lpn fun p => { p with spill := dropFirst isIt p.spill }
        let s :=
          if m.skip then s
          else if s.queueRoom lpn ch then (s.enqueue lpn m).placed lpn ch
          else ((s.modProc lpn fun p => { p with spill := p.spill ++ [.placed m] }).countSpilled lpn ch).placed lpn ch
        (s.seqAdvance lpn i).release lpn i src ch n
      | _ => s

/-- How often the loop of Arrive can turn. -/
def State.releaseFuel (s : State) (lpn : Nat) : Nat := fld 31 20 (s.roA lpn) + (s.proc lpn).spill.length + 1

/-- Room has appeared: spilled messages of the channel move into the queue in their order (R258). -/
def State.refill (s : State) (lpn k : Nat) : Nat → State
  | 0 => s
  | n + 1 =>
    let b := s.chB lpn k
    if chSPILLN b != 0 && chCOUNT b < chQCAP (s.chA lpn k) then
      match s.spillReadFault lpn (Spilled.placedOn k) with
      | some f => s.spillRecord lpn f
      | none =>
      match (s.proc lpn).spill.find? (Spilled.placedOn k) with
      | some (.placed m) =>
        let s := s.modProc lpn fun p => { p with spill := dropFirst (Spilled.placedOn k) p.spill }
        let s := s.setChB lpn k (setFld 39 24 (chSPILLN b - 1) b)
        (s.enqueue lpn m).refill lpn k n
      | _ => s
    else s

/-- Wakes what waits for an entry of a sequence table (R259). -/
def State.wakeSenders (s : State) (lpn : Nat) : State := s.wakeAll lpn fun k => k = .send

/-- Room has appeared in a queue: first spilled messages, then the receive entries whose next message waits (R258). -/
def State.roomAppears (s : State) (lpn k : Nat) : State :=
  let s := s.refill lpn k ((s.proc lpn).spill.length + 1)
  let l := (s.proc lpn).rwait
  let s := s.modProc lpn fun p => { p with rwait := [] }
  (forEach l s fun s e =>
    match s.seqTake lpn (seqKey true e.1 e.2) with
    | (s', some i) => s'.release lpn i e.1 e.2 (s'.releaseFuel lpn)
    | (s', none) => s'.modProc lpn fun p => { p with rwait := p.rwait ++ [e] }).wakeSenders lpn

/-! ## Taking messages -/

/-- The fault that the read of the head message meets, when it lies in the spill area (R262). -/
def State.headFault (s : State) (lpn k : Nat) : Option XFault :=
  if chEN (s.chA lpn k) && chCOUNT (s.chB lpn k) = 0 && chSPILLN (s.chB lpn k) != 0 then s.spillReadFault lpn (Spilled.placedOn k)
  else none

/-- Sends the record of that fault (R262). -/
def State.headRecord (s : State) (lpn k : Nat) : State :=
  match s.headFault lpn k with
  | some f => s.spillRecord lpn f
  | none => s

/-- Number of receivable messages; a closed channel behaves as an empty one (R254, R255). -/
def State.receivable (s : State) (lpn k : Nat) : Nat :=
  if chEN (s.chA lpn k) then chCOUNT (s.chB lpn k) + chSPILLN (s.chB lpn k) else 0

/-- Number of messages that can be taken: none while the head lies in the spill area and cannot be read there (R262; log 16). -/
def State.takeable (s : State) (lpn k : Nat) : Nat := if (s.headFault lpn k).isSome then 0 else s.receivable lpn k

/-- The nine dwords of the receivable message at a position. -/
def State.msgAt (s : State) (lpn k n : Nat) : List W64 :=
  let a := s.chA lpn k
  let b := s.chB lpn k
  if n < chCOUNT b then s.hwReads lpn (chQBASE a + 72 * ((chHEAD b + n) % (max 1 (chQCAP a)))) 9
  else
    let l := (s.proc lpn).spill.filterMap fun x => match x with
      | .placed m => if m.ch = k then some m.words else none
      | _ => none
    l.getD (n - chCOUNT b) []

/-- Squashes the uncommitted chunks of other threads that popped the head tentatively, which is taken now (R254, R269; log 13). -/
def State.squashPops (s : State) (lpn k : Nat) (but : Who) : State :=
  forEach (allSlots.map fun n => ({ lpn := lpn, slot := n } : Who)) s fun s w =>
    if w != but && fld 3 1 (s.slot w).regs.pipecfg == k then s.squashIf w fun c => c.pops.contains 4 else s

/-- Removes the head message of a channel, in one step of the core's domain (R254). -/
def State.takeMsg (s : State) (lpn k : Nat) : State :=
  let a := s.chA lpn k
  let b := s.chB lpn k
  let s :=
    if chCOUNT b != 0 then
      s.setChB lpn k (setFld 11 0 ((chHEAD b + 1) % (max 1 (chQCAP a))) (setFld 23 12 (chCOUNT b - 1) b))
    else
      (s.modProc lpn fun p => { p with spill := dropFirst (Spilled.placedOn k) p.spill }).setChB lpn k (setFld 39 24 (chSPILLN b - 1) b)
  s.roomAppears lpn k

/-! ## Sending (R249, R253, R435) -/

/-- TADDR of a message: destination, channel, sequence number (R261). -/
def msgAddr (dst ch seq : Nat) : W64 := w64 (dst % 2 ^ 19 + ch % 8 * 2 ^ 19 + seq % 4096 * 2 ^ 22)

/-- Flits of a message with n payload dwords (R435). -/
def msgFlits (n : Nat) : Nat := 1 + (8 * n - 16 + 31) / 32

/-- Numbers a message and releases it through the egress latch; none while it must wait for what FENCE.H waits for, for
a refused message, for a send entry or for OUT to fall (R253, R259, R260). -/
def State.trySend (s : State) (w : Who) (dst ch : Nat) (pay : List W64) (pc : BitVec 20) : Option State :=
  let t := s.slot w
  if !t.atomics.isEmpty || !t.heldMsgs.isEmpty then none else
  match s.seqTake w.lpn (seqKey false dst ch) with
  | (_, none) => none
  | (s', some i) =>
    let e := s'.seqAt w.lpn i
    if 2048 ≤ seqOUT e then none else
    let seq := seqSEQ e
    let wt := min 65535 (seqWT e + msgFlits pay.length)
    let s := s'.seqPut w.lpn i (setFld 63 48 wt (setFld 47 36 (seqOUT e + 1) (setFld 35 24 ((seq + 1) % 4096) e)))
    let m : Msg := { src := w.lpn, dst := dst, ch := ch, seq := seq, pay := pay, tag := s.tagOf w, who := w, pc := pc,
                     skip := false }
    let s := s.modSlot w fun t => { t with sends := t.sends ++ [(w.lpn, dst, ch, seq)] }
    some (s.sendItem (s.hostOf w.lpn) (.msg m))

/-- SENDLIM of the current thread. -/
def State.sendlim (s : State) : Nat := fld 31 0 s.me.regs.sendlim

/-- The event that ends a wait at SENDLIM. -/
def sendlimEv (w : Who) (id : Nat) : Option Ev := some (.sendlimExpiry w.lpn w.slot id)

/-- The values of a run of registers. -/
def State.runVals (s : State) (d : Reg) (n : BitVec 3) : List W64 := (regRun d n).map s.rd

/-- SEND (R253). -/
def execSend (r : AK) (s : State) : Out :=
  .next (s.when r.g fun s =>
    let dst := (s.rdB r.b r.x).toNat % 2 ^ 19
    match s.placeLookup (s.hostOf s.cur.lpn) dst with
    | .none => s.raise cSEGV 0 4 (w64 dst)
    | .ask => s.askPlace dst
    | .host _ =>
      match s.trySend s.cur dst r.k.toNat (s.runVals r.d r.n) s.me.arch.pc with
      | some s' => s'
      | none =>
        let a := msgAddr dst r.k.toNat 0
        if s.waitOver .send then s.raise cSENDSTALL 0 0 a
        else s.waitAgain .send s.sendlim a (sendlimEv s.cur))

/-- The sender's side of a message that is placed or given up: OUT falls by one and what waits for it goes on. -/
def State.sendDone (s : State) (src dst ch seq : Nat) : State :=
  let s := match s.seqFind src (seqKey false dst ch) with
    | some i =>
      let e := s.seqAt src i
      s.seqPut src i (setFld 47 36 (seqOUT e - 1) e)
    | none => s
  let s := { s with procs := spMap s.procs fun _ p => { p with slots := spMap p.slots fun _ t =>
    { t with sends := t.sends.filter fun x => x != (src, dst, ch, seq),
             heldMsgs := t.heldMsgs.filter fun h => !(h.msg.src == src && h.msg.dst == dst && h.msg.ch == ch && h.msg.seq == seq) } } }
  let s := { s with procs := spMap s.procs fun _ p => { p with slots := spMap p.slots fun _ t =>
    match t.wait with
    | some x => if t.st = .waiting && (x.kind = .fence || x.kind = .send || (x.kind = .refused && t.heldMsgs.isEmpty))
        then { t with st := .ready } else t
    | none => t } }
  s

/-- MESSAGE_ACK: an acknowledgement reaches the sender's core (R249, R260). -/
def execMessageAck (id : Nat) (s : State) : Out :=
  .next (match s.item id with
    | some (.ack src dst ch seq) => (s.dropItem id).sendDone src dst ch seq
    | _ => s)

/-! ## Arrival (R258) -/

/-- The host acknowledges a message. -/
def State.ackMsg (s : State) (m : Msg) : State :=
  if m.skip then s else s.sendNow (s.hostOf m.dst) (.ack m.src m.dst m.ch m.seq)

/-- The host refuses a message: 0 full, 1 closed, 2 job. -/
def State.refuseMsg (s : State) (m : Msg) (why : Nat) : State := s.sendNow (s.hostOf m.dst) (.msgRefused m why)

/-- The actions of Arrive(m), for a message and for a skip notice (R258). -/
def State.arriveActs (s : State) (m : Msg) : State :=
  let lpn := m.dst
  if !jobCheck m.tag (s.proc lpn) then (if m.skip then s else s.refuseMsg m 2)
  else if !m.skip && !chEN (s.chA lpn m.ch) then s.refuseMsg m 1
  else
    match s.seqTake lpn (seqKey true m.src m.ch) with
    | (s, none) => s.refuseMsg m 0
    | (s, some i) =>
      if m.seq != seqSEQ (s.seqAt lpn i) then
        match s.holdMsg lpn m with
        | (s, true) => s.ackMsg m
        | (s, false) => s.refuseMsg m 0
      else if m.skip then (s.seqAdvance lpn i).release lpn i m.src m.ch (s.releaseFuel lpn)
      else
        match s.placeMsg lpn m with
        | (s, true) => ((s.ackMsg m).seqAdvance lpn i).release lpn i m.src m.ch (s.releaseFuel lpn)
        | (s, false) => s.refuseMsg m 0

/-- Arrive(m); what waits for an entry of the table looks again (R258, R259). -/
def State.arriveMsg (s : State) (m : Msg) : State := (s.arriveActs m).wakeSenders m.dst

/-- MESSAGE_ARRIVE (R258). -/
def execMessageArrive (id : Nat) (s : State) : Out :=
  .next (match s.item id with
    | some (.msg m) => if m.skip then s else (s.dropItem id).arriveMsg m
    | _ => s)

/-- SKIP_NOTICE_ARRIVE (R258, R261). -/
def execSkipNoticeArrive (id : Nat) (s : State) : Out :=
  .next (match s.item id with
    | some (.msg m) => if m.skip then (s.dropItem id).arriveMsg m else s
    | _ => s)

/-- SKIP_NOTICE_REOFFER: the sender's core offers a refused skip notice again (R258). -/
def execSkipNoticeReoffer (id : Nat) (s : State) : Out :=
  .next (match s.item id with
    | some (.msg m) =>
      (s.modProc m.src fun p => { p with skips := p.skips.filter fun x => x != m }).depart (s.hostOf m.src) id (.msg m)
    | _ => s)

/-! ## Refusals (R260, R261) -/

/-- Sends the skip notice of a message that is given up, and its send entry treats it as acknowledged (R261). -/
def State.skipMsg (s : State) (m : Msg) : State :=
  (s.sendDone m.src m.dst m.ch m.seq).sendNow (s.hostOf m.src) (.msg { m with skip := true, pay := [0] })

/-- Takes the wait of a thread out of the queues of its own process, if it stands in one. -/
def State.leaveQueues (s : State) (lpn id : Nat) : State :=
  s.modProc lpn fun p =>
    { p with waits := p.waits.filter fun x => x.id != id,
             mbox := spMap p.mbox fun _ b => { b with queue := b.queue.filter fun y => y.id != id } }

/-- Does an identity stand in a queue of a process: a word's, a barrier's or a mailbox's? -/
def Proc.queued (p : Proc) (id : Nat) : Bool :=
  p.waits.any (fun x => x.id == id) || p.mbox.any fun b => b.2.queue.any fun y => y.id == id

/-- A trap of the send side, taken at the bundle the slot waits at: a wait that its bundle would take up again ends at once, and one
in a queue of the own process is withdrawn; an absent or halted slot takes none (R261; log 16). -/
def State.sendTrap (s : State) (w : Who) (d : Due) : State :=
  let t := s.slot w
  if t.st = .absent || t.st = .halted then s
  else
    let s := s.modSlot w fun t => { t with due := t.due ++ [d] }
    match t.wait with
    | some x =>
      if t.st != .waiting then s
      else if t.latch.isNone then s.wake w
      else if (s.proc w.lpn).queued x.id then
        (s.leaveQueues w.lpn x.id).modSlot w fun t => { t with st := .ready, wait := none, latch := none }
      else s
    | none => s

/-- MESSAGE_REFUSED: a refusal reaches the sender's core (R260, R261). -/
def execMessageRefused (id : Nat) (s : State) : Out :=
  .next (match s.item id with
    | some (.msgRefused m why) =>
      let s := s.dropItem id
      if m.skip then
        ((s.putItem id (.msg m)).modProc m.src fun p => { p with skips := p.skips ++ [m] }).after (.proc m.src) 256
          (.skipNoticeReoffer id)
      else
        let w := m.who
        let a := msgAddr m.dst m.ch m.seq
        match why with
        | 2 => (s.skipMsg m).sendTrap w { mkDue cSEGV 0 5 a m.pc with deferred := true }
        | 1 => (s.skipMsg m).sendTrap w { mkDue cSENDSTALL 0 0 a (s.slot w).arch.pc with deferred := true }
        | _ =>
          let t := s.slot w
          if t.heldMsgs.any fun h => h.msg = m then s
          else
            let h : HeldMsg := { msg := m, since := (s.proc w.lpn).time, id := s.nextId }
            let s := s.fresh.after (.proc w.lpn) (fld 31 0 t.regs.sendlim) (.sendlimExpiry w.lpn w.slot h.id)
            let s := if t.heldMsgs.isEmpty then s.after (.proc w.lpn) 256 (.messageReoffer w.lpn w.slot) else s
            s.modSlot w fun t => { t with heldMsgs := t.heldMsgs ++ [h] }
    | _ => s)

/-- Is a copy of a message, its acknowledgement or its refusal still on its way? -/
def State.msgInFlight (s : State) (m : Msg) : Bool :=
  s.net.any fun e => match e.2 with
    | .msg x => x = m
    | .msgRefused x _ => x = m
    | .ack a b c d => a == m.src && b == m.dst && c == m.ch && d == m.seq
    | _ => false

/-- MESSAGE_REOFFER: each refused message of a slot is offered again, every 256 cycles (R260). -/
def execMessageReoffer (lpn slot : Nat) (s : State) : Out :=
  let w : Who := { lpn := lpn, slot := slot }
  let l := (s.slot w).heldMsgs
  .next (if l.isEmpty then s else
    let s := forEach l s fun s h => if s.msgInFlight h.msg then s else s.sendNow (s.hostOf lpn) (.msg h.msg)
    s.after (.proc lpn) 256 (.messageReoffer lpn slot))

/-- SENDLIM_EXPIRY: the identity names a refused message or a waiting SEND or push (R259, R261). An acceptance that is
on its way wins (R277). -/
def execSendlimExpiry (lpn slot id : Nat) (s : State) : Out :=
  let w : Who := { lpn := lpn, slot := slot }
  let t := s.slot w
  .next (match t.heldMsgs.find? fun h => h.id == id with
    | some h =>
      let acked := s.net.any fun e => match e.2 with
        | .ack a b c d => a == h.msg.src && b == h.msg.dst && c == h.msg.ch && d == h.msg.seq
        | _ => false
      if acked then s
      else
        let s := { s with net := s.net.filter fun e => e.2 != Item.msg h.msg && e.2 != Item.msgRefused h.msg 0 }
        (s.skipMsg h.msg).sendTrap w { mkDue cSENDSTALL 0 0 (msgAddr h.msg.dst h.msg.ch h.msg.seq) t.arch.pc with deferred := true }
    | none =>
      match t.wait with
      | some x =>
        if x.id = id && t.st = .waiting then
          let s := s.modSlot w fun t => { t with pushq := t.pushq.drop 1 }
          s.raiseFor w (mkDue cSENDSTALL 0 0 x.addr t.arch.pc)
        else s
      | none => s)

/-! ## Receiving (R254 to R256) -/

/-- Writes the header and the payload of a message: payload beyond its length reads 0 (R254). -/
def State.writeMsg (s : State) (a d : Reg) (n : BitVec 3) (ws : List W64) : State :=
  let len := fld 36 34 (ws.headD 0)
  forEach (List.range (n.toNat + 1)) (s.wr a (ws.headD 0)) fun s i =>
    s.wr (d + BitVec.ofNat 5 i) (if i ≤ len then ws.getD (i + 1) 0 else 0)

/-- RECV (R254). -/
def execRecv (r : AK) (s : State) : Out :=
  .next (s.when r.g fun s =>
    let k := r.k.toNat
    let lpn := s.cur.lpn
    let s := s.headRecord lpn k
    if s.takeable lpn k = 0 then
      if s.waitOver (.recv k) then s.raise cWAITTO 0 0 (w64 k)
      else s.waitAgain (.recv k) s.waitlim (w64 k) (waitlimEv s.cur)
    else
      let ws := s.msgAt lpn k 0
      if s.lineHeld (popLine lpn k) (some s.cur) then { s with bst := .stop } else
      ((s.squashPops lpn k s.cur).takeMsg lpn k).writeMsg r.a r.d r.n ws)

/-- PEEK (R254). -/
def execPeek (r : AK) (s : State) : Out :=
  .next (s.when r.g fun s =>
    let k := r.k.toNat
    let s := s.headRecord s.cur.lpn k
    if s.takeable s.cur.lpn k = 0 then s.wr r.a 0
    else s.writeMsg r.a r.d r.n (s.msgAt s.cur.lpn k 0))

/-- The status of a receive channel (R255). -/
def State.chanStatus (s : State) (lpn k : Nat) : W64 :=
  let a := s.chA lpn k
  let b := s.chB lpn k
  w64 (chCOUNT b + chSPILLN b * 2 ^ 12 + (bw (chEN a)).toNat * 2 ^ 28 + (bw (tb 1 a)).toNat * 2 ^ 29 +
    fld 5 2 a * 2 ^ 30 + chQCAP a * 2 ^ 34)

/-- CHSTAT (R255). -/
def execChstat (r : AK) (s : State) : Out := .next (s.when r.g fun s => s.wr r.d (s.chanStatus s.cur.lpn r.k.toNat))

/-- WAITM on a channel (R256). -/
def execWaitm (r : AK) (s : State) : Out :=
  .next (s.when r.g fun s =>
    let k := r.k.toNat
    if s.receivable s.cur.lpn k != 0 then s
    else if s.waitOver (.waitm k) then s.raise cWAITTO 0 0 (w64 k)
    else s.waitAgain (.waitm k) s.waitlim (w64 k) (waitlimEv s.cur))

/-- WAITM.I on the inbox (R256). -/
def execWaitmI (r : AK) (s : State) : Out :=
  .next (s.when r.g fun s =>
    if s.myProc.inCount != 0 then s
    else if s.waitOver .inbox then s.raise cWAITTO 0 0 8
    else s.waitAgain .inbox s.waitlim 8 (waitlimEv s.cur))

/-! ## The inbox (R59, R257) -/

/-- Offset of the inbox entry at a position from the head (log 17). -/
def inboxOff (head n : Nat) : Nat := 0x2000 + 16 * ((head + n) % 256)

/-- Offers an entry to the inbox; it is placed in a step of the core's domain. -/
def State.offerEntry (s : State) (lpn : Nat) (e : InEnt) : State :=
  (s.modProc lpn fun p => { p with inWait := p.inWait ++ [e] }).post (.inboxEntryPlace lpn)

/-- INB (R257). Removing an engine's completion entry adopts its writes, which every later read sees (R151, log 10). -/
def execInb (r : AR) (s : State) : Out :=
  .next (s.when r.g fun s =>
    let lpn := s.cur.lpn
    let p := s.myProc
    if p.inCount = 0 then (s.wr r.d 0).wr (r.d + 1) 0
    else
      let a := s.hwRead lpn (inboxOff p.inHead 0)
      let b := s.hwRead lpn (inboxOff p.inHead 0 + 8)
      let s := s.modProc lpn fun p => { p with inHead := (p.inHead + 1) % 256, inCount := p.inCount - 1 }
      let s := if p.inWait.isEmpty then s else s.post (.inboxEntryPlace lpn)
      (s.wr r.d a).wr (r.d + 1) b)

/-! ## The mask and the return from the handler (R273, R274) -/

/-- MSGMASK (R274). -/
def execMsgmask (r : AR) (s : State) : Out :=
  .next (s.when r.g fun s =>
    let old := s.me.regs.uistat
    let s := s.wr r.d (w64 (fld 8 0 old))
    s.modMe fun t => { t with regs := { t.regs with uistat := setFld 8 0 (fld 8 0 (s.rdB r.b r.x)) t.regs.uistat } })

/-- RETU (R273): a misaligned h0[19:0] takes ALIGN, as every transfer does (R20). -/
def execRetu (r : AR) (s : State) : Out :=
  .next (s.when r.g fun s =>
    if !s.me.inUser then s.illop
    else
      let t : Nat := (s.me.hbank.toList.getD 0 0).toNat % 2 ^ 20
      if t % 8 != 0 then s.raise cALIGN 0 0 (w64 t)
      else s.transfer t fun s => s.modMe fun x => { x with regs := { x.regs with uistat := setBit 32 false x.regs.uistat } })

/-! ## Weights (R435, R436) -/

/-- WEIGHT_REPORT: a reported weight is written to RWT of its receive entry, if the table holds one (R436). -/
def execWeightReport (id : Nat) (s : State) : Out :=
  .next (match s.item id with
    | some (.weight src dst ch w) =>
      let s := s.dropItem id
      match s.seqFind dst (seqKey true src ch) with
      | some i => s.seqPut dst i (setFld 63 48 w (s.seqAt dst i))
      | none => s
    | _ => s)

end Sys2Proof.Machine
end

