-- ==== Sys2Proof/Machine/Life.lean ====
section
/-!
DEFINITION. What is shared by the units that end things: launch counters (07 R171), completion entries of engine
operations (13 R309), the stream side of a commit (13 R311 to R316), and a slot becoming absent (07 R159).
-/

namespace Sys2Proof.Machine

/-! ## Launch counters (R171) -/

/-- Is this the launch that a LID names in a job? -/
def Launch.named (lid job vmid : Nat) (l : Launch) : Bool :=
  l.lid == lid && l.job.toNat == job && l.vmid.toNat == vmid

/-- Has a launch nothing left to wait for? -/
def Launch.past (l : Launch) : Bool := l.counter ≤ 0 && l.engines == 0 && l.starting == 0

/-- Changes the counter and the engine count of a launch, and reports it complete when both are 0 (R171). -/
def State.launchAdd (s : State) (lid job vmid : Nat) (dc de : Int) : State :=
  let upd (l : Launch) : Launch := { l with counter := l.counter + dc, engines := ((l.engines : Int) + de).toNat }
  let s := { s with launches := mapIf (Launch.named lid job vmid) upd s.launches }
  s.postAll ((s.launches.filter fun l => l.named lid job vmid && l.past).map fun l => .launchComplete l.id)

/-- The LID of a thread (R374). -/
def Slot.lid (t : Slot) : Nat := fld 15 0 t.regs.launch

/-- Changes the counter of a thread's launch. -/
def State.threadAdd (s : State) (w : Who) (dc : Int) : State :=
  let p := s.proc w.lpn
  s.launchAdd (s.slot w).lid p.job p.vmid dc 0

/-! ## Completion entries (R309) -/

/-- Dword 0 of a completion entry. -/
def entryWord (tag : BitVec 16) (kind status str side reason : Nat) : W64 :=
  w64 (tag.toNat + kind * 2 ^ 16 + status * 2 ^ 20 + str * 2 ^ 24 + side * 2 ^ 26 + reason * 2 ^ 27 + 2 ^ 63)

/-- Offers the completion entry of an operation to the inbox of its process (R257, R309). -/
def State.completeOp (s : State) (c : Copy) (kind status str side reason prog : Nat) : State :=
  s.offerEntry c.who.lpn
    { id := c.id, who := c.who, lid := c.lid, w0 := entryWord c.tag kind status str side reason, w1 := w64 prog }

/-! ## Streams (R311 to R316) -/

/-- Number of elements T of a descriptor (R305). -/
def descCount (d : Desc) : Nat :=
  let n := d[3]
  let nd := fld 5 4 d[0]
  ((List.range (nd + 1)).map fun i => n.toNat / 2 ^ (16 * i) % 65536).foldl (· * ·) 1

/-- START of a descriptor. -/
def descStart (d : Desc) : Nat := d[7].toNat

/-- Element size of a descriptor. -/
def descSize (d : Desc) : Nat := 2 ^ fld 3 2 d[0]

/-- The stream register n of a core, if it is bound. -/
def State.stream (s : State) (core n : Nat) : Option Stream :=
  match (s.core core).streams.find? fun e => e.1 == n with
  | some e => if e.2.bound then some e.2 else none
  | none => none

/-- Changes a stream register. -/
def State.modStream (s : State) (core n : Nat) (f : Stream → Stream) : State :=
  s.modCore core fun c => { c with streams := c.streams.map fun e => if e.1 == n then (e.1, f e.2) else e }

/-- KIND of a stream's completion entry. -/
def Stream.kind (x : Stream) : Nat := if x.out then 2 else 1

/-- Unbinds a stream and places its completion with a status and PROG; what waits on the stream goes on. -/
def State.endStream (s : State) (core n status side reason prog : Nat) : State :=
  match s.stream core n with
  | none => s
  | some x =>
    let s := s.modCore core fun c => { c with streams := spDel c.streams n }
    (s.completeOp x.op x.kind status n side reason prog).wakeAll (s.core core).host fun k =>
      k = .pop n || k = .push n || k = .stream

/-- An inbound stream whose elements have all been popped in committed chunks, or an outbound one whose elements have
all been written, completes with status done (R311). -/
def State.streamDone (s : State) (core n : Nat) : State :=
  match s.stream core n with
  | none => s
  | some x =>
    if descCount x.op.desc ≤ x.done then s.endStream core n 0 0 0 (max (descStart x.op.desc) (descCount x.op.desc)) else s

/-- Commits pops of an inbound stream: the read point moves and reading ahead goes on (R312, R313). -/
def State.commitPops (s : State) (core n k : Nat) : State :=
  if k = 0 then s else
  match s.stream core n with
  | none => s
  | some _ =>
    let s := s.modStream core n fun x => { x with buf := x.buf.drop k, done := x.done + k }
    (s.post (.streamReadAhead core (BitVec.ofNat 2 n))).streamDone core n

/-- Is a request of an operation on its way? -/
def State.opSent (s : State) (id : Nat) : Bool := spHas s.net id

/-- Ends a stream with a status and nothing else, once the element that is on its way has been written (R308, R316). -/
def State.endSoon (s : State) (core n status : Nat) : State :=
  match s.stream core n with
  | none => s
  | some x =>
    if x.out && s.opSent x.op.id then s.modStream core n fun x => { x with ending := some (x.ending.getD status) }
    else s.endStream core n status 0 0 x.done

/-- Commits a push to an outbound stream: the element will be written; one at or beyond the fault point is discarded
(R312, R314). -/
def State.commitPush (s : State) (core n slot : Nat) (v : W64) : State :=
  match s.stream core n with
  | none => s
  | some x =>
    if !x.out || x.slot != slot || x.ending.isSome then s else
    match x.fault with
    | some _ => s
    | none =>
      let s := s.modStream core n fun x => { x with buf := x.buf ++ [v] }
      -- a stream that has elements to write is at work already
      if x.buf.isEmpty then s.post (.engineElementWrite x.op.id) else s

/-- Ends with status unbound the streams bound to a slot that becomes absent (R316). -/
def State.unbindSlot (s : State) (core slot : Nat) : State :=
  forEach [0, 1, 2, 3] s fun s n =>
    match s.stream core n with
    | some x => if x.slot = slot && x.seen then s.endSoon core n 11 else s
    | none => s

/-! ## A slot becomes absent (R159) -/

/-- A thread's slot becomes absent by HALT, RETJ, migration out or cancel: its streams end, its launch's counter falls
when the thread itself ends, and its commits and watch entries go. -/
def State.vacate (s : State) (w : Who) (ended : Bool) : State :=
  let core := s.hostOf w.lpn
  let s := ((s.releaseAll w).unwatch w []).retryDoms
  let s := if ended then s.threadAdd w (-1) else s
  let s := s.modSlot w fun t =>
    { t with st := .absent, chunk := none, commit := none, wait := none, latch := none, grants := [], fetch := [],
             due := [], later := [], park := none, resume := false, solo := none, squashes := 0, lastSets := [], cut := none, precise := false, ending := none, issued := none, arrived := false, sdesc := none, fence := [],
             snaph := 0, rebin := false, query := none, bound := false, doomed := false, arch := { t.arch with landing := [] } }
  s.unbindSlot core w.slot

end Sys2Proof.Machine
end

