-- ==== Sys2Proof/Machine/Chunk.lean ====
section
/-!
DEFINITION. Chunks and their commits (06 R132 to R154): sets and limits, the merging of a chunk's own stores, the
arbiters, admission, the Apply of a domain, pins, and what follows a commit.
-/

namespace Sys2Proof.Machine

/-! ## Sets (R133, R134) -/

/-- The domains of some lines, in ascending order (R139, R141). -/
def State.domsOf (s : State) (ls : List Line) : List Nat := ls.foldl (fun l x => insNat (s.domOf x) l) []

/-- The running chunk of the current thread, or the one its bundle opens. -/
def State.myChunk (s : State) : Chunk :=
  match s.me.chunk with
  | some c => c
  | none => s.me.newChunk

/-- Changes the running chunk of the current thread, opening one if needed. -/
def State.modChunk (s : State) (f : Chunk → Chunk) : State :=
  s.modMe fun t => let t := t.openChunk; { t with chunk := t.chunk.map f }

/-- Has the running chunk issued a bundle, or anything to commit? -/
def Slot.chunkStarted (t : Slot) : Bool :=
  match t.chunk with
  | some c => c.count != 0 || !c.stores.isEmpty || !c.pushes.isEmpty || !c.pops.isEmpty
  | none => false

/-- Would an access to a line pass the limits of the chunk (R134)? -/
def Chunk.roomFor (c : Chunk) (l : Line) (wr : Bool) : Bool :=
  if wr then c.writes.contains l || c.writes.length < 64 else c.reads.contains l || c.reads.length < 128

/-- The domains of a solo attempt, if the running chunk is one: the chunk that follows a solo attempt is not (R143). -/
def Slot.soloRun (t : Slot) : Option (List Nat) := if t.commit.isSome then none else t.solo

/-- May the running chunk touch a line: a solo attempt only in a domain it holds (R143)? -/
def State.soloMay (s : State) (l : Line) : Bool :=
  match s.me.soloRun with
  | some ds => ds.contains (s.domOf l)
  | none => true

/-- The chunk ends before the running bundle, which reissues when it has committed (R134). -/
def State.endBefore (s : State) : State :=
  (s.waitAgain .commit 0 0 fun _ => none).endChunk s.cur

/-- A solo attempt comes to a line of a domain that it does not hold: it ends before that access, or, having issued nothing,
releases its domains to take the enlarged set (R143). -/
def State.soloWiden (s : State) (l : Line) : State :=
  if s.me.chunkStarted then s.endBefore
  else
    let s := (s.releaseAll s.cur).retryDoms
    { s.modMe fun t => { t with solo := some [], lastSets := addNew l t.lastSets, chunk := none } with bst := .stop }

/-- Enters a line in the read or the write set of the running chunk and performs the access, or ends the chunk before
it (R134, R143). -/
def State.withLine (s : State) (l : Line) (wr : Bool) (la : Nat) (f : State → State) : State :=
  let c := s.myChunk
  if !s.soloMay l then s.soloWiden l
  else if !c.roomFor l wr then s.endBefore
  else
    let bno := s.me.arch.bno
    f (s.modChunk fun c =>
      { c with reads := if wr then c.reads else addNew l c.reads,
               writes := if wr then addNew l c.writes else c.writes,
               touch := if c.touch.any fun t => t.line = l then c.touch else c.touch ++ [{ line := l, bno := bno, la := w64 la, seg := s.useg }] })

/-- One byte of a value after a store that covers it. -/
def Store.byteAt (st : Store) (paged : Bool) (space addr : Nat) : Option Byte :=
  if st.paged = paged && st.space = space && st.addr ≤ addr && addr < st.addr + st.size then
    some (BitVec.ofNat 8 (st.val.toNat / 2 ^ (8 * (addr - st.addr))))
  else none

/-- n bytes of a value with the chunk's own stores merged over it (R136). -/
def mergeStores (l : List Store) (paged : Bool) (space addr : Nat) : Nat → Nat → Nat
  | 0, _ => 0
  | n + 1, v =>
    let b : Nat := match l.reverse.findSome? fun st => st.byteAt paged space addr with
      | some x => x.toNat
      | none => v % 256
    b + 256 * mergeStores l paged space (addr + 1) n (v / 256)

/-- A value read by the running chunk, with its own stores merged over it (R136). -/
def State.merged (s : State) (paged : Bool) (space addr n v : Nat) : Nat :=
  match s.me.chunk with
  | some c => mergeStores c.stores paged space addr n v
  | none => v

/-- The chunk of a thread that holds the bundle of a number: the running one, or else the committing one. -/
def Slot.chunkOf (t : Slot) (bno : Nat) : Option Chunk :=
  match t.chunk, t.commit with
  | some r, c => if r.start.bno ≤ bno then some r else c.map fun c => c.chunk
  | none, c => c.map fun c => c.chunk

/-- Changes the chunk that holds the bundle of a number. -/
def State.modChunkOf (s : State) (w : Who) (bno : Nat) (f : Chunk → Chunk) : State :=
  s.modSlot w fun t =>
    let commit (t : Slot) : Slot := { t with commit := t.commit.map fun c => { c with chunk := f c.chunk } }
    match t.chunk with
    | some r => if r.start.bno ≤ bno then { t with chunk := some (f r) } else commit t
    | none => commit t

/-- Adds a line to the read set of the chunk that holds the bundle of a load, when its value comes after that bundle; `none` when
the chunk must end before the bundle (R133, R134, R143). A single-access load joins no set (R145). -/
def State.readAt (s : State) (w : Who) (e : Landing) (l : Line) : Option State :=
  let t := s.slot w
  match t.chunkOf e.bno with
  | none => none
  | some c =>
    let solo := match t.solo with
      | some ds => if t.commit.isSome && t.chunk.any (fun r => r.start.bno ≤ e.bno) then true else ds.contains (s.domOf l)
      | none => true
    if !solo || !c.roomFor l false then none
    else some (s.modChunkOf w e.bno fun c =>
      { c with reads := addNew l c.reads,
               touch := if c.touch.any fun t => t.line = l then c.touch
                        else c.touch ++ [{ line := l, bno := e.bno, la := e.addr, seg := e.seg }] })

/-- The line of a load that was refused leaves the read set, unless an earlier access put it there or the chunk writes it: the load
traps, and what its chunk has done stays (R32). -/
def State.unread (s : State) (w : Who) (e : Landing) (l : Line) : State :=
  s.modChunkOf w e.bno fun c =>
    if c.writes.contains l || c.touch.any (fun t => t.line = l && t.bno < e.bno) then c
    else { c with reads := c.reads.filter fun x => x != l, touch := c.touch.filter fun t => t.line != l }

/-! ## Arbiters (R140) -/

/-- Does the write set of one commit meet a set of the other (R140)? -/
def Held.meets (h k : Held) : Bool :=
  h.writes.any (fun l => k.reads.contains l || k.writes.contains l) ||
    k.writes.any (fun l => h.reads.contains l || h.writes.contains l)

/-- Do two commits conflict: by their sets, or because a solo attempt holds the domain, which then performs no write of
another party (R140, R143)? -/
def Held.conflicts (h k : Held) : Bool :=
  h.meets k || (h.solo && (k.solo || !k.writes.isEmpty)) || (k.solo && !h.writes.isEmpty)

/-- May an arbiter admit a commit now (R140)? -/
def Dom.admits (d : Dom) (h : Held) : Bool :=
  (d.held.any fun k => k.who == h.who) || (!(d.held.any h.conflicts) && !((d.queue.takeWhile fun k => k.who != h.who).any h.conflicts))

/-- The arbiter holds a commit. -/
def Dom.hold (d : Dom) (h : Held) : Dom :=
  { held := (d.held.filter fun k => k.who != h.who) ++ [h], queue := d.queue.filter fun k => k.who != h.who }

/-- The arbiter queues a commit in arrival order. -/
def Dom.enqueue (d : Dom) (h : Held) : Dom :=
  if d.queue.any fun k => k.who = h.who then d else { d with queue := d.queue ++ [h] }

/-! ## After a commit -/

/-- Sends the held pushes to g30 in order; what cannot be sent yet waits for the slot's next issue (R269). -/
def State.sendPushes (s : State) (w : Who) : List Push → State
  | [] => s
  | p :: rest =>
    let cfg := (s.slot w).regs.pipecfg
    if !(s.slot w).pushq.isEmpty then s.modSlot w fun t => { t with pushq := t.pushq ++ (p :: rest) }
    else match s.trySend w (fld 26 8 cfg) (fld 6 4 cfg) [p.val] p.pc with
      | some s' => s'.sendPushes w rest
      | none => s.modSlot w fun t => { t with pushq := t.pushq ++ (p :: rest) }

/-- The pops and pushes of a committed chunk take effect (R137, R269, R312). -/
def State.commitViews (s : State) (w : Who) (c : Chunk) : State :=
  let core := s.hostOf w.lpn
  let s := forEach [0, 1, 2, 3] s fun s n => s.commitPops core n (c.pops.filter fun x => x == n).length
  let up := fld 3 1 (s.slot w).regs.pipecfg
  let s := forEach (c.pops.filter fun x => x == 4) s fun s _ => (s.squashPops w.lpn up w).takeMsg w.lpn up
  let s := forEach (c.pushes.filter fun p => p.view != 4) s fun s p => s.commitPush core p.view w.slot p.val
  s.sendPushes w (c.pushes.filter fun p => p.view == 4)

/-- Wakes a thread that waits for its commit, its fence or its departure. -/
def State.wakeCommit (s : State) (w : Who) : State :=
  match (s.slot w).wait with
  | some x => if x.kind = .commit then s.wake w else s
  | none => s

/-- A chunk is committed: everything it held is released, the squash count is cleared, the next ended chunk begins to
commit, and a trap that waited is taken (R138, R141). -/
def State.finishCommit (s : State) (w : Who) (c : Chunk) : State :=
  let stay : List Line := match (s.slot w).chunk with
    | some r => r.reads
    | none => []
  let s := (s.releaseAll w).unwatch w stay
  let s := s.modSlot w fun t => { t with commit := none, squashes := 0, solo := none, lastSets := [] }
  let s := (s.commitViews w c).retryDoms
  let s := match (s.slot w).chunk with
    | some r => if r.ended then
        (s.modSlot w fun t => { t with chunk := none, commit := some { chunk := r, st := .waiting, owns := [], pinWait := none, begun := false } }).post
          (.chunkCommit w.lpn w.slot)
      else s
    | none => s
  (s.wakeCommit w).takeDue w

/-! ## CHUNK_COMMIT, DOMAIN_ACQUIRE, DOMAIN_APPLY (R141) -/

/-- Changes the committing chunk of a slot. -/
def State.modCommit (s : State) (w : Who) (f : Committing → Committing) : State :=
  s.modSlot w fun t => { t with commit := t.commit.map f }

/-- Is a load of the chunk still out (R141)? -/
def Slot.loadsOut (t : Slot) (c : Chunk) : Bool := t.arch.landing.any fun l => l.open && l.id < c.endId

/-- CHUNK_COMMIT: an ended chunk whose loads have returned, and whose thread has no atomic outstanding, begins to acquire
its domains; one whose sets are empty is committed with its predecessor (R141). -/
def execChunkCommit (lpn slot : Nat) (s : State) : Out :=
  let w : Who := { lpn := lpn, slot := slot }
  let t := s.slot w
  .next (match t.commit with
    | none => s
    | some c =>
      if c.st != .waiting || t.loadsOut c.chunk || !t.atomics.isEmpty then s else
      match s.domsOf (s.linesOf w c.chunk) with
      | [] => s.finishCommit w c.chunk
      | d :: ds => (s.modCommit w fun c => { c with st := .acquiring (d :: ds) }).post (.domainAcquire d lpn slot))

/-- The lines of a domain. -/
def State.inDom (s : State) (d : Nat) (ls : List Line) : List Line := ls.filter fun l => s.domOf l == d

/-- Does the job check of a core's domain refuse a line (R31, R141)? -/
def State.lineRefused (s : State) (w : Who) : Line → Bool
  | .loc lpn _ => lpn != w.lpn && !jobCheck (s.tagOf w) (s.proc lpn)
  | .paged _ _ => false

/-- A refusal at an Acquire: every domain is released without an Apply, and the chunk re-runs with its end before the
refused access (R141). -/
def State.refuseCommit (s : State) (w : Who) (c : Chunk) : State :=
  let first := (c.touch.filter fun t => s.lineRefused w t.line).head?
  let n := (s.slot w).squashes
  let solo := (s.slot w).solo
  (s.squash w).modSlot w fun t =>
    { t with squashes := n, solo := solo.map fun _ => [], cut := first.map fun t => (t.bno, .refused t.la t.seg) }

/-- The sectors of some paged lines that a chunk's stores write, each with a store to it. -/
def Chunk.sectors (c : Chunk) (ls : List Line) : List Store :=
  (c.stores.filter fun st => st.paged && ls.contains (.paged st.space (st.addr / 256))).foldl (fun l st =>
    if l.any fun x => x.space == st.space && x.addr / 128 == st.addr / 128 then l else l ++ [st]) []

/-- Asks for the ownership of the paged lines that a commit writes, sector by sector (R95, R154). -/
def State.askOwnership (s : State) (w : Who) (c : Chunk) (ls : List Line) : State :=
  forEach (c.sectors ls) s fun s st =>
    let id := s.nextId
    let r := { pgReqFor .own (s.hostOf w.lpn) w st.space (st.addr / 128 * 128) with la := st.la.toNat }
    ((s.launchItem (.pg r)).modCommit w fun c => { c with owns := c.owns ++ [id] }).post (.l2OwnershipRequest id)

/-- The ownership request of a commit met a fault that was answered invalid: nothing has been applied, every domain is released, and the
chunk re-runs with its end before the store, which then takes XLATE (R49, R52). -/
def State.ownInvalid (s : State) (w : Who) (reason : Nat) (r : PgReq) : State :=
  let n := (s.slot w).squashes
  let solo := (s.slot w).solo
  match (s.slot w).commit with
  | none => s
  | some c =>
    let st := c.chunk.stores.find? fun x => x.paged && x.space == r.vmid && x.addr / 128 == r.gpa / 128
    ((c.owns.foldl State.dropItem s).squash w).modSlot w fun t =>
      { t with squashes := n, solo := solo.map fun _ => [], cut := st.map fun x => (x.bno, .invalid reason x.la) }

/-- A solo attempt takes the next of its domains; when it holds them all its thread goes on (R143). -/
def State.soloAcquire (s : State) (d : Nat) (w : Who) (held : List Nat) : State :=
  let h : Held := { who := w, reads := s.inDom d (s.slot w).lastSets, writes := [], solo := true }
  if (s.dom d).admits h then
    let s := (s.modDom d fun x => x.hold h).modSlot w fun t => { t with solo := some (held ++ [d]) }
    match (s.domsOf (s.slot w).lastSets).find? fun x => !((held ++ [d]).contains x) with
    | some n => s.post (.domainAcquire n w.lpn w.slot)
    | none => s.wakeCommit w
  else s.modDom d fun x => x.enqueue h

/-- May a commit be admitted at a domain? A solo attempt, which holds its domains from its start, waits for a commit that it meets
and that is admitted everywhere (R140, R143). -/
def State.admitted (s : State) (d : Nat) (h : Held) : Bool :=
  if h.solo then !((s.dom d).held.any fun k => k.who != h.who && k.meets h && (s.slot k.who).commit.any Committing.safe)
  else (s.dom d).admits h

/-- A commit of a solo attempt is admitted: what it meets and is not admitted everywhere is squashed, as its Apply would do
(R142). -/
def State.clearWay (s : State) (d : Nat) (h : Held) : State :=
  if !h.solo then s else
  ((s.dom d).held.filter fun k => k.who != h.who && k.meets h).foldl (fun s k => s.squashIf k.who fun _ => true) s

/-- DOMAIN_ACQUIRE: the arbiter admits a commit that conflicts with none it holds, or queues it (R140, R141). -/
def execDomainAcquire (dom lpn slot : Nat) (s : State) : Out :=
  let w : Who := { lpn := lpn, slot := slot }
  let t := s.slot w
  .next (match t.commit with
    | some c =>
      match c.st with
      | .acquiring (d :: ds) =>
        if d != dom then s else
        let rs := s.inDom d c.chunk.reads
        let ws := s.inDom d c.chunk.writes
        if (rs ++ ws).any fun l => s.lineRefused w l then s.refuseCommit w c.chunk else
        let h : Held := { who := w, reads := rs, writes := ws ++ s.inDom d (s.popLines w c.chunk), solo := t.soloHeld }
        if !s.admitted d h then s.modDom d fun x => x.enqueue h
        else
          let s := (s.clearWay d h).modDom d fun x => x.hold h
          let s := s.askOwnership w c.chunk ws
          match ds with
          | n :: _ => (s.modCommit w fun c => { c with st := .acquiring ds }).post (.domainAcquire n lpn slot)
          | [] =>
            let all := s.domsOf (s.linesOf w c.chunk)
            (s.modCommit w fun c => { c with st := .applying all }).postAll (all.take 1 |>.map fun d => .domainApply d lpn slot)
      | _ => s
    | none =>
      match t.chunk, t.solo with
      | none, some held => if held.contains dom then s else s.soloAcquire dom w held
      | _, _ => s)

/-- Is a line pinned by tile fetch, or held for a tile read (R99, R100, R111, R153)? -/
def State.pinned (s : State) : Line → Bool
  | .paged v n =>
    (match s.l2Find v n with
      | some l => l.pins != 0
      | none => false) || (s.slice (sliceOf n)).holds.any fun h => h.vmid == v && h.line == n
  | .loc _ _ => false

/-- Takes a commit's lines off the list of lines whose pin-free tile requests wait, and lets those ask again (R153). -/
def State.openShut (s : State) (ls : List Line) : State :=
  forEach ls s fun s l =>
    match l with
    | .paged v n =>
      let k := sliceOf n
      if (s.slice k).shut.contains (v, n) then
        let go := (s.slice k).tileWait
        (s.modSlice k fun x => { x with shut := x.shut.filter fun e => e != (v, n), tileWait := [] }).postAll
          (go.map fun i => .tileRequest i)
      else s
    | .loc _ _ => s

/-- Writes one store of a committing chunk. A paged store goes to the core's stash when it holds the sector, else to the
line's home (R73, R103, R136). -/
def State.applyStore (s : State) (core : Nat) (st : Store) : State :=
  if st.paged then
    let line := st.addr / 256
    let inStash := match s.stashLine core st.space line with
      | some (key, l) => if l.sec (secOf st.addr) = SecSt.absent then none else some key
      | none => none
    match inStash with
    | some key =>
      let k := secKey st.space st.addr
      let s := { s with secs := spPut s.secs k (secWrite (spGet 0 s.secs k) (st.addr % 128) st.size st.val.toNat) }
      s.stashMod core key fun l =>
        ({ l with st := if l.st = LineSt.x then LineSt.x else LineSt.o }).setSec (secOf st.addr)
          (if l.sec (secOf st.addr) = SecSt.poisoned then SecSt.poisoned else SecSt.dirty)
    | none =>
      match s.frameOf st.space st.addr with
      | some h => s.pgWrite st.space st.addr h st.size st.val.toNat
      | none => s
  else s.locWrite st.space st.priv st.addr st.size st.val.toNat

/-- The line of a store. -/
def Store.line (st : Store) : Line := if st.paged then .paged st.space (st.addr / 256) else locLine st.space st.addr

/-- The Apply of a chunk at a domain, one step of its arbiter: other copies are invalidated and readers squashed, the
core's copy becomes the owner's, and the bytes are written in program order (R141, R142, R95). -/
def State.applyDom (s : State) (d : Nat) (w : Who) (c : Chunk) : State :=
  let core := s.hostOf w.lpn
  let ws := s.inDom d c.writes
  let s := forEach ws s fun s l =>
    let s := s.squashReaders l none
    match l with
    | .paged v n =>
      let s := (s.dropCopies v n (some core)).predClear v n core
      match s.stashLine core v n with
      | some (_, x) => s.l2Mod v n fun m => { m with dir := if x.st = .x then .x core else .o core }
      | none => s.modProc w.lpn fun p => { p with chghit := p.chghit + 1 }
    | .loc _ _ => s
  forEach (c.stores.filter fun st => ws.contains st.line) s fun s st => s.applyStore core st

/-- Lines of a commit's write set whose pages a block slot covers: they need ownership after the replay (R120, R154). -/
def State.blockedLines (s : State) (c : Chunk) : List Line :=
  c.writes.filter fun l => match l with
    | .paged v n => (s.blockOf v (n * 256)).isSome
    | .loc _ _ => false

/-- DOMAIN_APPLY (R141); it waits for pins and for ownership requests, and before the first Apply for the pages that have been
blocked meanwhile (R153, R154). -/
def execDomainApply (dom lpn slot : Nat) (s : State) : Out :=
  let w : Who := { lpn := lpn, slot := slot }
  .next (match (s.slot w).commit with
    | none => s
    | some c =>
      match c.st with
      | .applying (d :: ds) =>
        if d != dom || !c.owns.isEmpty then s
        else if c.chunk.writes.any s.pinned then
          if c.pinWait.isSome then s
          else
            let now := s.clk
            (s.modCommit w fun c => { c with pinWait := some now }).after .network 4096 (.pinWaitLimit lpn slot)
        else if !c.begun && !(s.blockedLines c.chunk).isEmpty then s.askOwnership w c.chunk (s.blockedLines c.chunk)
        else
          let s := (s.modCommit w fun c => { c with begun := true }).applyDom d w c.chunk
          match ds with
          | [] => (s.openShut c.chunk.writes).finishCommit w c.chunk
          | n :: _ => (s.modCommit w fun c => { c with st := .applying ds }).post (.domainApply n lpn slot)
      | _ => s)

/-- Commits that wait to apply are tried again: a pin or an ownership request has gone (R153, R154). -/
def State.retryApplies (s : State) : State :=
  s.postAll (s.threads.filterMap fun w =>
    match (s.slot w).commit with
    | some c =>
      match c.st with
      | .applying (d :: _) => some (.domainApply d w.lpn w.slot)
      | _ => none
    | none => none)

/-- PIN_WAIT_LIMIT: from now on pin-free tile requests for the lines that the commit writes wait at the slice, if it has waited
4,096 cycles (R153). -/
def execPinWaitLimit (lpn slot : Nat) (s : State) : Out :=
  let w : Who := { lpn := lpn, slot := slot }
  .next (match (s.slot w).commit with
    | none => s
    | some c =>
      if !(c.pinWait.any fun n => n + 4096 ≤ s.clk) then s else
      forEach c.chunk.writes s fun s l =>
        match l with
        | .paged v n => s.modSlice (sliceOf n) fun x => { x with shut := addNew (v, n) x.shut }
        | .loc _ _ => s)

end Sys2Proof.Machine
end

