-- ==== Sys2Proof/Machine/Fill.lean ====
section
/-!
DEFINITION. Loads of the paged region after their bundles: the requests they make of the row's walker and of the slices, and the
value on its way into the landing entry (07 R164, R165, 10 R224, 06 R133, R136).
-/

namespace Sys2Proof.Machine

/-- The slot number under which requests that belong to no slot travel. -/
def noSlot : Nat := 16

/-- The request of an access of a thread. -/
def State.pgReqOf (s : State) (w : Who) (kind : PgKind) (la : Nat) (l : Leaf1) : PgReq :=
  { pgReqFor kind (s.hostOf w.lpn) w (s.proc w.lpn).vmid l.gpa with la := la, w1 := l.w, u1 := l.u, mt := l.mt }

/-- Puts a request into the queue of a row's walker, for a thread or for a load that has issued (R43). -/
def State.askWalk (s : State) (w : Who) (la acc : Nat) (ld : Option LoadInfo) : State :=
  let row := rowOf (s.hostOf w.lpn)
  (s.modPort row fun q => { q with queue := q.queue ++ [{ who := w, la := la, acc := acc, ld := ld }] }).post (.pageWalk row)

/-- Is the queue of a core's row full (R43)? -/
def State.walkFull (s : State) (core : Nat) : Bool := 32 ≤ (s.port core).queue.length

/-- The value of a load of n bytes, extended to 64 bits. -/
def loadExt (sx : Bool) (n v : Nat) : W64 := if sx then sext (8 * n) v else w64 (v % 2 ^ (8 * n))

/-- The value of a load that has issued, from the sector that holds its bytes: the line joins the read set of the load's chunk, and
what that chunk stored before it is merged over it (R133, R136). A poisoned sector gives POISON at the load (R72). -/
def State.loadLand (s : State) (w : Who) (i : LoadInfo) (vmid gpa : Nat) (sec : BitVec 1024) (bad : Bool) : State :=
  match (s.slot w).landingOf i.id with
  | none => s
  | some e =>
    if bad then s.landResult w i.id (.trap cPOISON 0 0 e.addr)
    else match s.readAt w e (.paged vmid (gpa / 256)) with
      | none => s.rerun w e.bno .precise
      | some s =>
        let own := match (s.slot w).chunkOf e.bno with
          | some c => c.stores.filter fun st => st.bno < e.bno
          | none => []
        let v := mergeStores own true vmid gpa i.size (secRead sec (gpa % 128) i.size)
        s.landResult w i.id (.value (loadExt i.sx i.size v))

/-- A load that has issued goes on once its translation is at hand: from the stash, or by a request to the home slice. What it cannot
do after its bundle makes the bundle issue anew and wait in place (R34, R39, R74 to R76, R112, R134, R326). -/
def State.loadGo (s : State) (w : Who) (i : LoadInfo) (la : Nat) : State :=
  match (s.slot w).landingOf i.id with
  | none => s
  | some e =>
    let p := s.proc w.lpn
    let priv := (s.slot w).priv
    let again := s.rerun w e.bno .precise
    if !(tb 0 p.xroot) then s.landResult w i.id (.trap cXLATE 0 3 e.addr)
    else match s.stashHit p.core la with
      | some (_, l) =>
        let gpa := l.gtag * 256 + la % 256
        let lf : Leaf1 := { gpa := gpa, size := 4096, w := l.w1, u := l.u1, mt := l.mt, level := 7, ent := 0 }
        if !rights1 priv false l.w1 l.u1 || (l.vmid = 0 && !(rangeOf gpa).named && priv != 2) then again
        else if l.sec (secOf gpa) = SecSt.absent then s.sendItem p.core (.pg { s.pgReqOf w (.fill false) la lf with ld := some i })
        else s.loadLand w i l.vmid gpa (spGet 0 s.secs (secKey l.vmid gpa)) (l.sec (secOf gpa) = SecSt.poisoned)
      | none =>
        match s.rowHit p la with
        | none => if s.walkFull p.core then again else s.askWalk w la 0 (some i)
        | some l =>
          if !rights1 priv false l.w l.u || (p.vmid = 0 && !(rangeOf l.gpa).named && priv != 2) || l.mt = 2 ||
              (s.stashLine p.core p.vmid (l.gpa / 256)).isSome then again
          else if stashSets p = 0 || s.nonAlloc p.vmid l.mt then
            s.sendItem p.core (.pg { s.pgReqOf w (.home false) la l with ld := some i })
          else if !s.stashRoom p.core p.vmid (l.gpa / 256) la then again
          else s.sendItem p.core (.pg { s.pgReqOf w (.fill false) la l with ld := some i })

/-- Sends the fill of a prefetch, which no thread waits for (R237). -/
def State.prefFill (s : State) (w : Who) (la : Nat) (l : Leaf1) : State :=
  let core := s.hostOf w.lpn
  s.sendItem core (.pg (s.pgReqOf w (.fill false) la l))

/-- A prefetch whose translation is at hand asks for its sector, unless one of the cases of R237 holds. -/
def State.prefGo (s : State) (w : Who) (priv la : Nat) : State :=
  let p := s.proc w.lpn
  match s.rowHit p la with
  | none => s
  | some l =>
    if !rights1 priv false l.w l.u || l.mt != 0 || stashSets p = 0 || s.nonAlloc p.vmid l.mt ||
        (p.vmid = 0 && !(rangeOf l.gpa).named && priv != 2) then s
    else match s.stashLine p.core p.vmid (l.gpa / 256) with
      | some (key, x) =>
        let s := s.stashMod p.core key fun _ => { x with ltag := la / 256, w1 := l.w, u1 := l.u }
        if x.sec (secOf l.gpa) != SecSt.absent then s else s.prefFill w la l
      | none => if !s.stashRoom p.core p.vmid (l.gpa / 256) la then s else s.prefFill w la l

/-- A load whose access met a fault or a limit after its bundle: the bundle issues anew, and waits in place (R134, R326). -/
def State.loadBack (s : State) (w : Who) (id : Nat) : State :=
  match (s.slot w).landingOf id with
  | some e => s.rerun w e.bno .precise
  | none => s

end Sys2Proof.Machine
end

