-- ==== Sys2Proof/Machine/Paged.lean ====
section
/-!
DEFINITION. The way of a paged request: the row port's walker (02 R43), the L2 slice with its directory (04 R93 to
R106), the memory side and the stage-two unit (05 R115, R116, 02 R47), repair waits (05 R124), the stash replies (03
R73), and the partition, bucket and scrub machinery (04 R99 to R105).
-/

namespace Sys2Proof.Machine

/-! ## The walker (R43) -/

/-- Puts a leaf into the translation cache: 8 ways in each of 256 sets, which the low bits of the page number name; the entry that
leaves a full set is a free choice (R43; log 9). -/
def tlbAdd (free : Nat) (l : List TlbEnt) (e : TlbEnt) : List TlbEnt :=
  let inSet := l.filter fun x => x.page % 256 == e.page % 256
  if inSet.length < 8 then l ++ [e]
  else
    let out := inSet[Config.lruVictim 0 free % inSet.length]?
    (l.filter fun x => some x != out) ++ [e]

/-- Keeps at most n entries, dropping the oldest. -/
def capped {α : Type} (n : Nat) (l : List α) : List α := l.drop (l.length - n)

/-- Wakes a thread that waits for a fill; a repair wait had parked it (R124). -/
def State.wakeFill (s : State) (w : Who) : State :=
  match (s.slot w).wait with
  | some x =>
    if x.kind = .fill then
      s.modSlot w fun t => { t with st := if t.st = .waiting || t.st = .parked then .ready else t.st, park := none }
    else s
  | none => s

/-- Does a thread wait for a fill? -/
def State.waitsFill (s : State) (w : Who) : Bool :=
  match (s.slot w).wait with
  | some x => x.kind = .fill && ((s.slot w).st = .waiting || (s.slot w).st = .parked)
  | none => false

/-- A request's walk has ended with a leaf in the translation cache, or with XROOT.E = 0. -/
def State.walked (s : State) (x : WalkReq) : State :=
  match x.ld with
  | some i => s.loadGo x.who i x.la
  | none => if x.who.slot = noSlot then s.prefGo x.who (x.acc - 4) x.la else s.wakeFill x.who

/-- A request's walk has met a fault (R50, R237, R326). -/
def State.walkFailed (s : State) (x : WalkReq) (f : XFault) : State :=
  match x.ld with
  | some i => s.loadBack x.who i.id
  | none => if s.waitsFill x.who then s.parkThread x.who x.acc f x.la else s

/-- PAGE_WALK: the walker of a row performs the oldest walk of its queue; every queued request for the page takes its
result: a waiting thread reissues or parks, a load that has issued goes on or issues anew, a prefetch goes on or ends (R38, R43,
R237). -/
def execPageWalk (row : Nat) (s : State) : Out :=
  let q := spGet Port.init s.ports row
  .next (match q.queue with
    | [] => s
    | r :: _ =>
      let p := s.proc r.who.lpn
      let mine (x : WalkReq) : Bool := (s.proc x.who.lpn).vmid == p.vmid && (s.proc x.who.lpn).job == p.job
      let k := s.walk1 p r.la
      let s := s.walkReads p.vmid r.who k.reads
      let keep (s : State) (f : WalkReq → Bool) : State :=
        s.modPort row fun q => { q with walks := capped 128 (q.walks ++ k.ents), queue := q.queue.filter fun x => !f x }
      match k.res with
      | .ok l =>
        let e : TlbEnt := { vmid := p.vmid, job := p.job, page := r.la / l.size, size := l.size, gpa := l.gpa / l.size * l.size,
                            w := l.w, u := l.u, mt := l.mt, level := l.level, ent := l.ent }
        let hit (x : WalkReq) : Bool := mine x && x.la / l.size == r.la / l.size
        let s := (keep s hit).modPort row fun q => { q with tlb := tlbAdd s.free q.tlb e }
        (q.queue.filter hit).foldl State.walked s.tick
      | .off => (s.modPort row fun q => { q with queue := q.queue.drop 1 }).walked r
      | .bad f =>
        let hit (x : WalkReq) : Bool := mine x && x.la / 4096 == r.la / 4096
        (q.queue.filter hit).foldl (fun s x => s.walkFailed x f) (keep s hit)
      -- an entry that cannot be read yet is read a cycle later; the walks behind it go on
      | .wait =>
        (s.modPort row fun q => { q with walks := capped 128 (q.walks ++ k.ents), queue := q.queue.drop 1 ++ [r] }).after .network 1
          (.pageWalk row))

/-! ## Block slots (R117 to R122) -/

/-- Changes a block slot. -/
def State.modBlock (s : State) (b : Nat) (f : Block → Block) : State := { s with blocks := spPut s.blocks b (f (s.block b)) }

/-- The place of a request's arrival at its slice. -/
def State.arrival (s : State) (id : Nat) : Nat :=
  match s.item id with
  | some (.pg r) => r.arr.getD 0
  | _ => 0

/-- A request starts afresh: what its last translation gave is forgotten, and what was fetched for it (R120). -/
def PgReq.afresh (r : PgReq) : PgReq :=
  { r with hpa := none, w2 := false, kind := match r.kind with
    | .tile need _ held => .tile need 0 held
    | k => k }

/-- Puts a request into the block queue of its slice, in the order of the arrivals: one that had passed the slice before the block
began comes ahead of every later arrival (R120, R121). -/
def State.blockPut (s : State) (b id : Nat) (r : PgReq) : State :=
  let n := r.arr.getD s.nextId
  let k := sliceOf (r.gpa / 256)
  let s := (if r.arr.isSome then s else s.fresh).putItem id (.pg { r.afresh with arr := some n })
  let old := spGet [] (s.block b).queue k
  let q := old.takeWhile (fun i => s.arrival i < n) ++ [id] ++ old.dropWhile (fun i => s.arrival i < n)
  s.modBlock b fun x => { x with queue := spPut x.queue k q }

/-- Sends a request of the paged region to its slice again. -/
def State.again (s : State) (id : Nat) : State :=
  match s.item id with
  | some (.pg r) => (s.putItem id (.pg { r.afresh with arr := none })).post ((Item.pg r).event id)
  | _ => s

/-! ## Engine elements and the host's (R150, R461) -/

/-- What the host reads of the module: it leaves by the port. -/
def State.toHost (s : State) (r : Res) : State :=
  { s with outbox := s.outbox ++ [.reply { lpn := Config.imagoLpn, slot := 0 } r] }

/-- A second-stage fault of a BAR2 access: a record that parks nothing, whose job, core and linear address are not stated
(R50, R461; log 19). -/
def State.bar2Record (s : State) (vmid : Nat) (f : XFault) : State :=
  let x (n : Nat) : Nat := (Config.freeDword (s.free + n)).toNat
  let d := faultDwords s f.kind f.level 3 0 f.sub vmid (x 0) (x 1) 0 (x 2) f.gpa
  { s with free := s.free + 3 }.record (.fault d)

/-- The answer to an element's request leaves its slice: to the core of its operation, or to the host, for which every failure is a
refusal (R308, R461). -/
def State.engAnswer (s : State) (id : Nat) (r : PgReq) (x : Res) : State :=
  if r.who.slot = hostSlot then
    let s := s.dropItem id
    match x with
    | .fault kind level sub gpa => (s.bar2Record r.vmid { kind := kind, level := level, sub := sub, gpa := gpa }).toHost .refused
    | .trap _ => s.toHost .refused
    | .device => s.toHost .refused
    | x => s.toHost x
  else s.answer r.core id r.who x

/-- Is an item a posted write of a function of the host that is not performed yet? -/
def hostWrite (vf : Nat) : Item → Bool
  | .pg r => r.who.slot == hostSlot && r.la == vf && (match r.kind with
    | .eng wr _ _ => wr
    | _ => false)
  | .device w hpa _ v _ => w.slot == hostSlot && v.isSome && (hpa - Config.doorbellBase) / 4096 / 1024 == vf
  | _ => false

/-- Is a posted write of a function, of those that came before an identity, not performed yet (R462)? -/
def State.hostBefore (s : State) (vf id : Nat) : Bool := s.net.any fun e => e.1 < id && hostWrite vf e.2

/-! ## A translation that a TLBI removed (R57) -/

/-- An atomic in flight fails: its trap comes where its result would land, or at its thread's next issue; a combined one stands for two
(R52, R72, R91, R231, R323). -/
def State.atomicFails (code reason : Nat) : Nat → Nat → State → State
  | 0, _, s => s
  | n + 1, i, s =>
    match s.item i with
    | some (.pg r) =>
      let s := s.dropItem i
      match r.parts with
      | some (a, b, _) =>
        let s := { s with combine := spMap s.combine fun _ l => l.filter fun x => x != i }
        State.atomicFails code reason n b (State.atomicFails code reason n a s)
      | none =>
        match (s.slot r.who).atomics.find? fun a => a.1 == i with
        | some (_, pc, la, _) =>
          (s.atomicAck r.who i).modSlot r.who fun t => { t with due := t.due ++ [{ mkDue code 0 reason la pc with keep := true }] }
        | none => s.landResult r.who i (.trap code 0 reason (w64 r.la))
    | _ => s

/-- An atomic in flight fails, with everything it stands for. -/
def State.atomicFail (s : State) (id code reason : Nat) : State := State.atomicFails code reason (s.net.length + 1) id s

/-- An atomic in flight opens a record of its own and waits for the answer (R50, R326). -/
def State.atomicPark (s : State) (id : Nat) (r : PgReq) (f : XFault) : State :=
  (s.putItem id (.pg r.afresh)).openFault r.who (some id) r.who.slot 2 f r.la

/-- An atomic in flight is translated anew and goes to the home that it finds; a combined one is taken apart (R57, R91). -/
def State.atomicAnew (s : State) (id : Nat) (r : PgReq) : State :=
  match r.parts with
  | some (a, b, _) =>
    ({ s.dropItem id with combine := spMap s.combine fun _ l => l.filter fun x => x != id }.again a).again b
  | none =>
    let (s, x) := s.leafNow (s.proc r.who.lpn) r.who r.la
    match x with
    | .off => s.atomicFail id cXLATE 3
    | .bad f => s.atomicPark id r f
    | .wait => s.after .network 1 ((Item.pg r).event id)
    | .ok l =>
      if !rights1 (s.slot r.who).priv true l.w l.u then
        s.atomicPark id r { kind := 1, level := l.level, sub := 0, gpa := l.ent }
      else
        let r := { r.afresh with gpa := l.gpa, w1 := l.w, u1 := l.u, mt := l.mt, stale := false, arr := none }
        (s.putItem id (.pg r)).post (.l2Atomic id)

/-- The slice instruction of a thread gives up a tile request, and asks again. -/
def State.tileDrop (s : State) (id : Nat) (w : Who) : State :=
  let mine (q : SliceOp) : Bool := q.who == w && q.wants.contains id
  let s := s.dropItem id
  if !((s.proc w.lpn).mx.queue.any mine) then s
  else
    let s := s.modProc w.lpn fun p =>
      { p with mx := { p.mx with queue := mapIf mine (fun q => { q with wants := q.wants.filter fun i => i != id }) p.mx.queue } }
    s.wake w

/-- A request whose translation a TLBI has removed is translated anew: its thread's bundle reissues, its load goes on from the start,
its element or its row is asked for again (R57). -/
def State.anew (s : State) (id : Nat) (r : PgReq) : State :=
  match r.kind with
  | .atomic _ _ _ _ _ => s.atomicAnew id r
  | .eng _ _ _ => if r.who.slot = hostSlot then (s.putItem id (.pg { r with stale := false })).again id else s.engAnswer id r .anew
  | .tile _ _ _ => s.tileDrop id r.who
  | _ =>
    let s := s.dropItem id
    match r.ld with
    | some i => s.loadGo r.who i r.la
    | none => if r.who.slot = noSlot then s else s.wakeFill r.who

/-! ## The slice (R93 to R98, R106) -/

/-- The line of a sector key: its VMID and line number. -/
def secLine (sec : Nat) : Nat × Nat := (sec / 2 ^ 41, sec % 2 ^ 41 / 2)

/-- A reply leaves the slice: the access is charged where it is performed, and the request carries what was found. A store that is to
be performed at the home, of a page whose W is not known, is checked first (R47, R106). -/
def State.slReply (s : State) (id : Nat) (r : PgReq) (h mt : Nat) (w2 : Bool) : State :=
  let got := match r.kind with
    | .tile need got held => PgKind.tile need (got ||| 2 ^ secOf r.gpa) held
    | k => k
  let s := s.putItem id (.pg { r with hpa := some h, mt := mt, w2 := w2, kind := got })
  match r.kind with
  | .atomic _ _ _ _ _ => s.post (.l2Atomic id)
  | .tile _ _ _ => s.post (.tileRequest id)
  | .own => s.post (.l2OwnershipRequest id)
  | .eng wr _ _ => s.post (if wr then .engineElementWrite id else .engineElementRead id)
  | .home true =>
    if !w2 && r.vmid != 0 then s.post (.s2UpgradeCheck id)
    else (s.modProc r.who.lpn fun p => { p with chghit := p.chghit + 1 }).post (.stashFillReply id)
  | _ => (s.modProc r.who.lpn fun p => { p with chghit := p.chghit + 1 }).post (.stashFillReply id)

/-- A request for a sector in repair wait joins its waiters. -/
def Repair.join (vmid gpa id : Nat) (x : Repair) : Repair :=
  if x.vmid == vmid && x.gpa / 128 == gpa / 128 then { x with waiting := x.waiting ++ [id] } else x

/-- Is a request one for which a thread, or its load, waits? -/
def PgKind.ofThread : PgKind → Bool
  | .fill _ => true
  | .home _ => true
  | .upgrade => true
  | _ => false

/-- What stands in the way of a request at its slice, if anything does: the block queue, a repair wait, a busy line. -/
def State.slWait (s : State) (id : Nat) (r : PgReq) : Option State :=
  let line := r.gpa / 256
  match s.blockOf r.vmid r.gpa with
  | some b => some (s.blockPut b id r)
  | none =>
    match s.repairs.find? fun x => x.vmid == r.vmid && x.gpa / 128 == r.gpa / 128 with
    | some x =>
      let s' := { s with repairs := s.repairs.map (Repair.join r.vmid r.gpa id) }
      some (if x.first == some r.who && r.kind.ofThread && s.waitsFill r.who && (s.slot r.who).settled then
        s'.modSlot r.who fun t => { t with st := .parked, park := some x.seq } else s')
    | none => match s.l2Find r.vmid line with
      | some l => if l.busy.isSome then some (s.l2Mod r.vmid line fun l => { l with waiting := l.waiting ++ [id] }) else none
      | none => none

/-- A request reaches its slice: it is translated anew after a TLBI, it waits, or it is handled, and then what errors its sector has
are met (R57, R95, R120, R123, R124). -/
def State.atSlice (s : State) (id : Nat) (f : PgReq → State → State) : State :=
  match s.item id with
  | some (.pg r) =>
    if r.stale then s.anew id r
    else match s.slWait id r with
      | some s' => s'
      | none =>
        let s := s.meetL2 r.core r.vmid r.gpa
        if r.arr.isSome then f r s
        else
          let r := { r with arr := some s.nextId }
          f r (s.fresh.putItem id (.pg r))
  | _ => s

/-- A transaction holds the line busy until a core has answered (R95). -/
def State.slBusy (s : State) (id : Nat) (r : PgReq) (e : Ev) : State :=
  (s.l2Mod r.vmid (r.gpa / 256) fun l => { l with busy := some { acks := 1, req := id } }).post e

/-- Does a request of a VMID wait for a token at a slice? -/
def State.missOf (s : State) (k vmid : Nat) : Bool :=
  (s.slice k).misses.any fun i => match s.item i with
    | some (.pg q) => q.vmid == vmid
    | _ => false

/-- Sends a miss on: with a token to the memory side, else into the miss queue. Its own bucket serves it at once, unless its tenant
waits already; the pool serves it when nobody waits (R105). -/
def State.slMiss (s : State) (id : Nat) (r : PgReq) : State :=
  let k := sliceOf (r.gpa / 256)
  let waits := s.dieWaits (dieOfSlice k)
  match (if r.vmid != 0 && s.missOf k r.vmid then none else s.ownToken k r.vmid) with
  | some s' => s'.post (.mscFill id)
  | none =>
    match (if waits then none else s.poolToken (dieOfSlice k)) with
    | some s' => s'.post (.mscFill id)
    | none =>
      let s := s.modSlice k fun x => { x with misses := x.misses ++ [id] }
      if waits then s else s.after .network 1 (.tokenRetry k)

/-- The core that another core's access must first recall or revoke, with the event that does it (R95). -/
def L2Line.recall (l : L2Line) (core sec : Nat) : Option Ev :=
  match l.dir with
  | .o c => if c = core then none else some (.stashRecall c sec false)
  | .x c => if c = core then none else some (.stashRevoke c sec)
  | _ => none

/-- L2_FILL_REQUEST (R95, R103). -/
def execL2FillRequest (id : Nat) (s : State) : Out :=
  .next (s.atSlice id fun r s =>
    let line := r.gpa / 256
    let s := s.predClear r.vmid line r.core
    match s.l2Find r.vmid line with
    | some l =>
      if l.sec (secOf r.gpa) = .absent then s.slMiss id r
      else match l.recall r.core (secKey r.vmid r.gpa) with
        | some e => s.slBusy id r e
        | none =>
          let s := s.modSlice (sliceOf line) fun x =>
            { x with lru := spPut x.lru (homeSet line) (Config.lruTouch (spGet 0 x.lru (homeSet line)) l.way) }
          s.slReply id r (l.hline * 256 + r.gpa % 256) (max l.mt r.mt) (l.w2 || r.w2)
    | none => s.slMiss id r)

/-- The requests that wait for a token on a die, with their slices, in the order in which the pool serves them: by tier, then in a
slice order that rotates with the cycles, then in the order of each queue (R105). -/
def State.askers (s : State) (die : Nat) : List (Nat × Nat) :=
  let mine := s.slices.filter fun x => dieOfSlice x.1 == die
  let c := s.clk % 512
  let turn := mine.filter (fun x => c ≤ x.1 % 512) ++ mine.filter (fun x => x.1 % 512 < c)
  let all := turn.flatMap fun x => x.2.misses.map fun i => (x.1, i)
  let tier (e : Nat × Nat) : Nat := match s.item e.2 with
    | some (.pg r) => fld 37 36 (s.bwOf r.vmid)
    | _ => 0
  [0, 1, 2, 3].flatMap fun t => all.filter fun e => tier e == t

/-- A request that waits asks for its token again. -/
def State.tokenTry (s : State) (e : Nat × Nat) : State :=
  let leave (s : State) : State := s.modSlice e.1 fun x => { x with misses := x.misses.filter fun i => i != e.2 }
  match s.item e.2 with
  | some (.pg r) =>
    match s.takeToken e.1 r.vmid with
    | some s' => (leave s').post (.mscFill e.2)
    | none => s
  | _ => leave s

/-- TOKEN_RETRY: every request that waits on the die of a slice asks again in the next cycle (R105). -/
def execTokenRetry (slice : Nat) (s : State) : Out :=
  let die := dieOfSlice slice
  let s := (s.askers die).foldl State.tokenTry s
  .next (if s.dieWaits die then s.after .network 1 (.tokenRetry slice) else s)

/-! ## The memory side (R115, R116, R47) -/

/-- Does a request bring a sector into the slice: a write that leaves nothing there only goes through it (R103, R106)? -/
def State.fills (s : State) (r : PgReq) : Bool :=
  match r.kind with
  | .own => !s.nonAlloc r.vmid r.mt
  | .eng true _ _ => !s.nonAlloc r.vmid r.mt
  | _ => true

/-- A sector has come from the memory side: it is charged, installed in the slice, and the reply leaves (R96, R106). -/
def State.fromMemory (s : State) (id : Nat) (r : PgReq) (h mt : Nat) (w2 : Bool) (st : SecSt) : State :=
  let s := if r.who.slot = hostSlot || !s.fills r then s else s.modProc r.who.lpn fun p => { p with chgfill := p.chgfill + 1 }
  let w2 := w2 || r.w2
  (s.l2Install r mt w2 (h / 256) st).slReply id r h mt w2

/-- MSC_FILL: a hit returns the sector; a miss goes to the stage-two unit, and so does an access of memory type 2. A hit does not tell
the page's W, which an upgrade check finds when a store needs it (R42, R115; log 10). -/
def execMscFill (id : Nat) (s : State) : Out :=
  .next (match s.item id with
    | some (.pg r) =>
      let s := s.meetMsc r.core r.vmid r.gpa
      match s.mscFind r.vmid (r.gpa / 256), s.mscSec r.vmid r.gpa with
      | some l, st =>
        if st = .absent || r.mt = 2 then s.post (.s2Translate id)
        else s.fromMemory id r (l.hline * 256 + r.gpa % 256) r.mt (r.vmid == 0) (if st = .poisoned then .poisoned else .clean)
      | none, _ => s.post (.s2Translate id)
    | _ => s)

/-- The access code of a request for its fault record (R50). -/
def PgKind.acc : PgKind → Nat
  | .fill st => if st then 1 else 0
  | .home st => if st then 1 else 0
  | .upgrade => 1
  | .atomic _ _ _ _ _ => 2
  | .eng _ _ _ => 3
  | .own => 1
  | _ => 0

/-- Does a request need the right W (R47)? -/
def PgKind.writes : PgKind → Bool
  | .fill st => st
  | .home st => st
  | .upgrade => true
  | .atomic _ _ _ _ _ => true
  | .eng wr _ _ => wr
  | .own => true
  | _ => false

/-- Releases every pin of a slice instruction and keeps what it has read (R99). -/
def State.unpinOp (s : State) (w : Who) : State :=
  let mine (q : SliceOp) : Bool := q.who == w
  let ts := ((s.proc w.lpn).mx.queue.filter mine).flatMap fun q => q.tiles.filter fun t => t.pinned
  (s.modProc w.lpn fun p =>
    { p with mx := { p.mx with queue := mapIf mine (fun q => { q with tiles := q.tiles.map fun t => { t with pinned := false } }) p.mx.queue } }).postAll
    (ts.map fun t => .tilePinRelease (s.hostOf w.lpn) (t.gpa / 256))

/-- A request meets a translation fault: a thread that waits for it parks; an atomic in flight, and the ownership request of a commit,
open a record of their own and wait for the answer; a tile request parks the thread whose slice instruction sent it, which gives its
pins up; an element's operation learns of it (R49, R50, R99, R308, R326, R350). -/
def State.pgFault (s : State) (id : Nat) (r : PgReq) (f : XFault) : State :=
  match r.kind with
  | .atomic _ _ _ _ _ => s.atomicPark id r f
  | .own =>
    if (s.slot r.who).commit.any fun c => c.owns.contains id then
      (s.putItem id (.pg r.afresh)).openFault r.who (some id) r.who.slot 1 f r.la
    else s.dropItem id
  | .eng _ _ _ => s.engAnswer id r (.fault f.kind f.level f.sub f.gpa)
  | .tile _ _ _ =>
    let mine (q : SliceOp) : Bool := q.who == r.who && q.wants.contains id
    let s := s.dropItem id
    if (s.proc r.who.lpn).mx.queue.any mine then
      ((s.unpinOp r.who).modProc r.who.lpn fun p =>
        { p with mx := { p.mx with queue := mapIf (fun q => q.who == r.who) (fun q => { q with wants := [] }) p.mx.queue } }).parkThread
        r.who 0 f r.la
    else s
  | k =>
    let s := s.dropItem id
    match r.ld with
    | some i => s.loadBack r.who i.id
    | none => if s.waitsFill r.who then s.parkThread r.who k.acc f r.la else s

/-- A request meets memory type 2 where no device access is made of it (R42). -/
def State.pgDevice (s : State) (id : Nat) (r : PgReq) : State :=
  match r.kind with
  | .atomic _ _ _ _ _ => s.atomicFail id cXLATE 2
  | .eng _ _ _ => s.engAnswer id r .device
  | _ => s.anew id r

/-- S2_TRANSLATE: translation and checks of a request that missed every cache; a blocked leaf returns it to its slice or
makes it wait; an uncorrectable error of the sector comes back in its place (R47, R116, R121, R124). -/
def execS2Translate (id : Nat) (s : State) : Out :=
  .next (match s.item id with
    | some (.pg r) =>
      let s := s.s2Load r.vmid r.gpa
      match s2Check r.vmid r.gpa r.mt r.kind.writes (s.s2Find r.vmid r.gpa) with
      | .error f => s.pgFault id r f
      | .ok (l, mt) =>
        if l.b then
          match s.blockOf r.vmid r.gpa with
          | some b => s.blockPut b id r
          | none => (s.modBase (baseOf r.gpa) fun b => { b with blocked := b.blocked ++ [id] }).after .network 64 (.s2BlockedRetry id)
        else if mt = 2 then s.pgDevice id r
        else
          let s := s.countSoft r.core (.mem (l.hpa / 128))
          (s.putItem id (.pg { r with hpa := some l.hpa, mt := mt, w2 := l.w })).post
            (.controllerFillReturn id (s.errs.contains (.mem (l.hpa / 128))))
    | _ => s)

/-- S2_BLOCKED_RETRY (R121). -/
def execS2BlockedRetry (id : Nat) (s : State) : Out :=
  .next (match s.item id with
    | some (.pg r) =>
      if (s.base (baseOf r.gpa)).blocked.contains id then
        (s.modBase (baseOf r.gpa) fun b => { b with blocked := b.blocked.filter fun i => i != id }).post (.s2Translate id)
      else s
    | _ => s)

/-- An uncorrectable error: the sector enters repair wait, and the thread is parked; a thread with uncommitted chunks, or whose load
had issued, comes to the sector again when they have committed (R124, R146). -/
def State.openRepair (s : State) (id : Nat) (r : PgReq) (h : Nat) : State :=
  let seq := s.imago.seq
  let thread := r.kind.ofThread && (s.waitsFill r.who || r.ld.isSome)
  let x : Repair := { seq := seq, vmid := r.vmid, gpa := r.gpa / 128 * 128, hpa := h / 128 * 128, since := s.clk, waiting := [],
                      first := if thread then some r.who else none }
  let s := s.record (.poison (poisonDwords s (memSource h) true h r.vmid (some r.gpa)))
  let s := { s with repairs := s.repairs ++ [x] }.after .network (2 ^ 28) (.repairTimeout seq)
  let stay (s : State) : State :=
    { s with repairs := mapIf (fun y => y.seq == seq) (fun y => { y with waiting := [id] }) s.repairs }
  match r.ld with
  | some i => (s.dropItem id).loadBack r.who i.id
  | none =>
    if !thread then stay s
    else
      let s := s.endChunk r.who
      if (s.slot r.who).settled then (stay s).modSlot r.who fun t => { t with st := .parked, park := some seq }
      else (s.dropItem id).startWait r.who .commit 0 0 fun _ => none

/-- CONTROLLER_FILL_RETURN: data comes from a controller, or an uncorrectable error does (R115, R124). A page that a
block slot covers by now sends the fill back to its slice (R121). -/
def execControllerFillReturn (id : Nat) (lost : Bool) (s : State) : Out :=
  .next (match s.item id with
    | some (.pg r) =>
      match r.hpa, s.blockOf r.vmid r.gpa with
      | none, _ => s
      | some _, some b => s.blockPut b id r
      | some h, none =>
        if lost then s.openRepair id r h
        else
          let bad := s.poison.contains (h / 128)
          let st : SecSt := if bad then .poisoned else .clean
          let line := r.gpa / 256
          let k := secOf r.gpa
          let s := if r.mt = 0 && s.fills r then s.mscKeep r.vmid r.gpa h else s
          (s.fromMemory id r h r.mt r.w2 st).secGc r.vmid line k
    | _ => s)

/-- MSC_WRITEBACK: the dirty sectors of the named line go to the memory side, and the line stays clean (R102, R115). -/
def execMscWriteback (id : Nat) (s : State) : Out :=
  .next (match s.item id with
    | some (.pg r) =>
      let s := s.dropItem id
      match s.l2Find r.vmid (r.gpa / 256) with
      | some l =>
        forEach [0, 1] s fun s k =>
          if l.sec k = .dirty then
            ((s.mscWrite l.vmid l.line k l.hline .dirty).l2Mod l.vmid l.line fun m => m.setSec k .clean).wbToken (sliceOf l.line) l.vmid
          else s
      | none => s
    | _ => s)

/-- MSC_NONALLOC_WRITE: the bytes are merged into the memory side's sector, or into memory (R103, R115). -/
def execMscNonallocWrite (id : Nat) (s : State) : Out :=
  .next (match s.item id with
    | some (.pg r) =>
      match r.kind, r.hpa with
      | .put n v, some h => (s.dropItem id).pgWrite r.vmid r.gpa h n v.toNat
      | _, _ => s
    | _ => s)

/-! ## Repair (R124, R126) -/

/-- Ends a repair wait: its requests are served in order, each starting afresh. -/
def State.endRepair (s : State) (x : Repair) (lost : Bool) : State :=
  let s := { s with repairs := s.repairs.filter fun y => y.seq != x.seq,
                    poison := if lost then insNat (x.hpa / 128) s.poison else s.poison,
                    errs := if lost then s.errs.filter fun e => e != .mem (x.hpa / 128) else s.errs }
  x.waiting.foldl State.again s

/-- PSNANS_REPAIRED (R126). -/
def execPsnansRepaired (seq : BitVec 32) (s : State) : Out :=
  .next (match s.repairs.find? fun x => x.seq == seq with
    | some x => s.endRepair x false
    | none => s)

/-- PSNANS_LOST (R126). -/
def execPsnansLost (seq : BitVec 32) (s : State) : Out :=
  .next (match s.repairs.find? fun x => x.seq == seq with
    | some x => s.endRepair x true
    | none => s)

/-- REPAIR_TIMEOUT: an unanswered repair wait is treated as lost (R124). -/
def execRepairTimeout (seq : BitVec 32) (s : State) : Out :=
  .next (match s.repairs.find? fun x => x.seq == seq with
    | some x => s.endRepair x true
    | none => s)

/-! ## At the stash (R73 to R76) -/

/-- A core that is frozen or gated answers as a stash with no lines (R77). -/
def State.stashDeaf (s : State) (core : Nat) : Bool := (s.core core).gated || (s.core core).frzSwap

/-- Has a slice's watch table an entry for a reader of a line, or room for one (R145)? -/
def State.watchRoom (s : State) (w : Who) (vmid gpa : Nat) : Bool :=
  let l := (s.slice (sliceOf (gpa / 256))).watch
  l.length < 64 || l.contains (.paged vmid (gpa / 256), w)

/-- A watch entry for a reader of a line at its slice. -/
def State.watchAdd (s : State) (w : Who) (vmid gpa : Nat) : State :=
  s.modSlice (sliceOf (gpa / 256)) fun x => { x with watch := addNew (.paged vmid (gpa / 256), w) x.watch }

/-- The data of a sector is handed to a thread for the reissue of its bundle, with a watch entry at the slice; with the
table full the load becomes a single-access chunk (R136, R145). -/
def State.grant (s : State) (r : PgReq) (h : Nat) : State :=
  let store := r.kind.writes
  let free := store || (s.slot r.who).single
  if !free && !s.watchRoom r.who r.vmid r.gpa then
    s.modSlot r.who fun t => { t with cut := some (t.arch.bno, .single) }
  else
    let g : Grant := { la := r.la / 128 * 128, vmid := r.vmid, gpa := r.gpa / 128 * 128, store := store,
                       data := s.secAt r.vmid r.gpa h, poisoned := s.secBad r.vmid r.gpa h, mt := r.mt }
    let s := if free then s else s.watchAdd r.who r.vmid r.gpa
    s.modSlot r.who fun t => { t with grants := t.grants ++ [g] }

/-- A load that has issued is read at its line's home, with a watch entry; with the table full its bundle issues anew as a
single-access chunk (R136, R145). -/
def State.loadHome (s : State) (r : PgReq) (i : LoadInfo) (h : Nat) : State :=
  if !s.watchRoom r.who r.vmid r.gpa then
    match (s.slot r.who).landingOf i.id with
    | some e => s.rerun r.who e.bno .single
    | none => s
  else (s.watchAdd r.who r.vmid r.gpa).loadLand r.who i r.vmid r.gpa (s.secAt r.vmid r.gpa h) (s.secBad r.vmid r.gpa h)

/-- STASH_FILL_REPLY: the sector is installed in the stash, or granted at the home when nothing may be installed; the
thread's bundle reissues (R73, R75, R76, R103). -/
def execStashFillReply (id : Nat) (s : State) : Out :=
  .next (match s.item id with
    | some (.pg r) =>
      match r.hpa with
      | none => s
      | some h =>
        match s.blockOf r.vmid r.gpa with
        | some b => s.blockPut b id r
        | none =>
          if r.stale then s.anew id r else
          let s := s.dropItem id
          let home := match r.kind with
            | .home _ => true
            | _ => false
          let inL2 := match s.l2Find r.vmid (r.gpa / 256) with
            | some l => l.sec (secOf r.gpa) != SecSt.absent
            | none => false
          if home || !inL2 || r.mt != 0 || s.stashDeaf r.core || stashSets (s.proc (s.core r.core).host) = 0 then
            match r.ld with
            | some i => s.loadHome r i h
            | none => if s.waitsFill r.who then (s.grant r h).wakeFill r.who else s
          else if (s.stashLine r.core r.vmid (r.gpa / 256)).isNone && !s.stashRoom r.core r.vmid (r.gpa / 256) r.la then
            match r.ld with
            | some i => s.loadBack r.who i.id
            | none => (s.endChunk r.who).wakeFill r.who
          else
            let bad := s.secBad r.vmid r.gpa h
            -- PREF, which comes from no slot, installs no poisoned sector (R237)
            if bad && r.who.slot = noSlot then s
            else
              let s := s.stashInstall r.core r r.mt r.w2 (if bad then .poisoned else .clean)
              match r.ld with
              | some i => s.loadGo r.who i r.la
              | none => s.wakeFill r.who
    | _ => s)

/-- The identity of the transaction that holds a line busy. -/
def State.busyReq (s : State) (vmid line : Nat) : List Ev :=
  match s.l2Find vmid line with
  | some l =>
    match l.busy with
    | some b => [.l2InvalidateAck b.req]
    | none => []
  | none => []

/-- STASH_INVALIDATE: a copy is dropped after its write-back and the core's readers are squashed (R73). -/
def execStashInvalidate (core sec : Nat) (s : State) : Out :=
  let (v, n) := secLine sec
  .next (
    let s := if s.stashDeaf core then s else (s.dropCopy core v n).squashHere (s.core core).host (.paged v n)
    s.postAll (s.busyReq v n))

/-- STASH_RECALL: an owner writes its dirty sectors back and keeps the line shared, or drops it (R73). -/
def execStashRecall (core sec : Nat) (inv : Bool) (s : State) : Out :=
  let (v, n) := secLine sec
  .next (
    let s :=
      if s.stashDeaf core then s.l2Mod v n fun l => { l with dir := l.dir.drop core }
      else match s.stashLine core v n with
        | none => s.l2Mod v n fun l => { l with dir := l.dir.drop core }
        | some (key, _) =>
          if inv then s.stashLose core key
          else ((s.stashBack core key).stashMod core key fun l => { l with st := .s }).l2Mod v n fun l => { l with dir := .s [core] }
    s.postAll (s.busyReq v n))

/-- STASH_REVOKE: an exclusive holder writes back and drops the line (R73). -/
def execStashRevoke (core sec : Nat) (s : State) : Out :=
  let (v, n) := secLine sec
  .next (
    let s := if s.stashDeaf core then s else s.dropCopy core v n
    let s := s.l2Mod v n fun l => { l with dir := l.dir.drop core }
    s.postAll (s.busyReq v n))

/-- EXCLUSIVE_GRANT: the line becomes exclusive at a core that holds it, and every other copy goes (R73, R95, R98). -/
def execExclusiveGrant (core sec : Nat) (s : State) : Out :=
  let (v, n) := secLine sec
  .next (match s.stashLine core v n with
    | some (key, _) =>
      if s.stashDeaf core then s else
      ((s.dropCopies v n (some core)).stashMod core key fun l => { l with st := .x }).l2Mod v n fun l => { l with dir := .x core }
    | none => s)

/-- L2_INVALIDATE_ACK: when the last acknowledgement of a transaction arrives the line is free again, and the requests
that waited for it are served in order (R95). -/
def execL2InvalidateAck (id : Nat) (s : State) : Out :=
  .next (match s.item id with
    | some (.pg r) =>
      match s.l2Find r.vmid (r.gpa / 256) with
      | some l =>
        match l.busy with
        | some b =>
          if b.req != id then s
          else if 1 < b.acks then s.l2Mod r.vmid l.line fun l => { l with busy := some { b with acks := b.acks - 1 } }
          else
            let s := s.l2Mod r.vmid l.line fun l => { l with busy := none, waiting := [] }
            (id :: l.waiting).foldl (fun s i =>
              match s.item i with
              | some x => s.post (x.event i)
              | none => s) s
        | none => s
      | none => s.post ((Item.pg r).event id)
    | _ => s)

/-- The right W of a request that is performed at the home is known (R47). -/
def State.w2Ok (s : State) (r : PgReq) : Bool :=
  r.vmid == 0 || r.w2 || (match s.l2Find r.vmid (r.gpa / 256) with
    | some l => l.w2
    | none => false)

/-- The core that must give a line up before a commit of another core may write it (R95). -/
def L2Line.recallInv (l : L2Line) (core sec : Nat) : Option Ev :=
  match l.dir with
  | .o c => if c = core then none else some (.stashRecall c sec true)
  | .x c => if c = core then none else some (.stashRevoke c sec)
  | _ => none

/-- A commit has the ownership that a request asked for; it may apply once it has all (R154). -/
def State.owned (s : State) (id : Nat) (w : Who) : State :=
  let s := (s.dropItem id).modCommit w fun c => { c with owns := c.owns.filter fun i => i != id }
  match (s.slot w).commit with
  | some c =>
    match c.st with
    | .applying (d :: _) => s.post (.domainApply d w.lpn w.slot)
    | _ => s
  | none => s

/-- L2_OWNERSHIP_REQUEST of a commit: it waits in a block queue; otherwise another owner is recalled, a sector that neither the core's
stash nor the slice holds is asked of the memory side, and the commit may apply. The copies of sharers go with the Apply (R49, R95,
R103, R105, R154). -/
def execL2OwnershipRequest (id : Nat) (s : State) : Out :=
  .next (s.atSlice id fun r s =>
    let line := r.gpa / 256
    let held := match s.stashLine r.core r.vmid line with
      | some (_, l) => l.sec (secOf r.gpa) != SecSt.absent
      | none => false
    match (s.l2Find r.vmid line).bind fun l => l.recallInv r.core (secKey r.vmid r.gpa) with
    | some e => s.slBusy id r e
    | none =>
      if held then s.owned id r.who
      else if s.l2Sec r.vmid r.gpa = .absent && r.hpa.isNone then s.slMiss id r
      else if !s.w2Ok r then s.post (.s2UpgradeCheck id)
      else s.owned id r.who)

/-- A notice of a stash waits while its line is busy (R95, R111). -/
def State.noticeWaits (s : State) (id : Nat) (r : PgReq) : Option State :=
  match s.l2Find r.vmid (r.gpa / 256) with
  | some l => if l.busy.isSome then some (s.l2Mod r.vmid l.line fun l => { l with waiting := l.waiting ++ [id] }) else none
  | none => none

/-- A stash has let a line go: the directory learns of it (R95). -/
def State.noticeTaken (s : State) (id : Nat) : State :=
  match s.item id with
  | some (.pg r) =>
    match s.noticeWaits id r with
    | some s' => s'
    | none =>
      let s := s.dropItem id
      if (s.stashLine r.core r.vmid (r.gpa / 256)).isSome then s
      else s.l2Mod r.vmid (r.gpa / 256) fun l => { l with dir := l.dir.drop r.core }
  | _ => s

/-- L2_DROP_NOTICE: a sharer has dropped its copy (R95). -/
def execL2DropNotice (id : Nat) (s : State) : Out := .next (s.noticeTaken id)

/-- L2_WRITEBACK: the owner has evicted its copy; the slice holds the dirty sectors (R95). -/
def execL2Writeback (id : Nat) (s : State) : Out := .next (s.noticeTaken id)

/-- S2_UPGRADE_CHECK: a store to a line whose recorded W is 0 asks the unit; it parks with kind 5 when W is 0 (R47). What is performed
at the home goes on there. -/
def execS2UpgradeCheck (id : Nat) (s : State) : Out :=
  .next (match s.item id with
    | some (.pg r) =>
      if r.stale then s.anew id r else
      let s := s.s2Load r.vmid r.gpa
      match s2Check r.vmid r.gpa r.mt true (s.s2Find r.vmid r.gpa) with
      | .error f => s.pgFault id r f
      | .ok _ =>
        let line := r.gpa / 256
        let s := s.l2Mod r.vmid line fun l => { l with w2 := true }
        match r.kind with
        | .upgrade =>
          let s := s.dropItem id
          let s := match s.stashLine r.core r.vmid line with
            | some (key, _) => s.stashMod r.core key fun l => { l with w2 := true }
            | none => s
          s.wakeFill r.who
        | k =>
          let s := s.putItem id (.pg { r with w2 := true })
          match k with
          | .home _ => (s.modProc r.who.lpn fun p => { p with chghit := p.chghit + 1 }).post (.stashFillReply id)
          | _ => s.post ((Item.pg r).event id)
    | _ => s)

/-! ## Engine elements at their slices (R150, R461) -/

/-- The one step of an element's access: a write invalidates every copy and squashes every reader. A write of no bytes asks only whether
the row of a matrix store may write the sector, and performs nothing (R106, R142, R150, R361). -/
def State.engPerform (s : State) (id : Nat) (r : PgReq) (h : Nat) : State :=
  match r.kind with
  | .eng wr size v =>
    let line := r.gpa / 256
    if s.secBad r.vmid r.gpa h then s.engAnswer id r (.trap 6)
    else if wr && !s.w2Ok r then s.post (.s2UpgradeCheck id)
    else if size = 0 then s.engAnswer id r .done
    else if wr && s.lineHeld (.paged r.vmid line) none then s.after .network 1 (.engineElementWrite id)
    else
      let s := if r.who.slot = hostSlot then s else s.modProc r.who.lpn fun p => { p with chghit := p.chghit + 1 }
      if wr then
        let s := ((s.dropCopies r.vmid line none).squashReaders (.paged r.vmid line) none).pgWrite r.vmid r.gpa h size v.toNat
        s.engAnswer id r .done
      else s.engAnswer id r (.value (w64 (s.pgRead r.vmid r.gpa h size)))
  | _ => s

/-- An element's request at its home slice: another core's copy is taken back first, a sector that is absent is asked of the memory
side, and so is memory type 2, which ends the operation there. The host's posted writes of one function are performed in their order
(R42, R95, R98, R150, R462). -/
def State.engServe (s : State) (id : Nat) : State :=
  if (match s.item id with
    | some (.pg r) => hostWrite r.la (.pg r) && s.hostBefore r.la id
    | _ => false) then s.after .network 1 (.engineElementWrite id)
  else s.atSlice id fun r s =>
    let line := r.gpa / 256
    let sec := secKey r.vmid r.gpa
    let s := s.predClear r.vmid line r.core
    if r.mt = 2 then (if r.vmid = 0 then s.pgDevice id r else s.post (.s2Translate id))
    else match s.l2Find r.vmid line with
      | some l =>
        if l.sec (secOf r.gpa) = .absent && r.hpa.isNone then s.slMiss id r
        else match (if r.kind.writes then l.recallInv noCore sec else l.recall r.core sec) with
          | some e => s.slBusy id r e
          | none => s.engPerform id r (l.hline * 256 + r.gpa % 256)
      | none =>
        match r.hpa with
        | some h => s.engPerform id r h
        | none => s.slMiss id r

/-! ## Tile requests (R99, R100, R153) -/

/-- Pins of a core's tile fetch unit. -/
def State.tilePins (s : State) (core : Nat) : List (Nat × Nat) := (s.proc (s.core core).host).mx.pins

/-- May a line take n more pins: at most 15 on a line, and at most twelve ways of a set pinned (R99)? -/
def State.pinRoom (s : State) (vmid line n : Nat) : Bool :=
  match s.l2Find vmid line with
  | some l =>
    l.pins + n ≤ 15 && (l.pins != 0 ||
      ((s.slice (sliceOf line)).lines.filter fun m => homeSet m.line == homeSet line && m.pins != 0).length < 12)
  | none => true

/-- Has a unit pinned a line already: it pins a line once, whatever it takes of it (R99). -/
def State.tileHas (s : State) (core vmid line : Nat) : Bool := (s.tilePins core).contains (vmid, line)

/-- The sectors of a line that a tile request reads, all at one point of its domain's order (R154). -/
def State.tileSecs (s : State) (r : PgReq) (need : Nat) : List TileSec :=
  let line := r.gpa / 256
  let h := match s.l2Find r.vmid line with
    | some l => l.hline * 256
    | none => r.hpa.getD 0 / 256 * 256
  ([0, 1].filter fun k => need / 2 ^ k % 2 == 1).map fun k =>
    let g := line * 256 + 128 * k
    { la := r.la / 256 * 256 + 128 * k, vmid := r.vmid, gpa := g, data := s.secAt r.vmid g (h + 128 * k),
      bad := s.secBad r.vmid g (h + 128 * k), pinned := false }

/-- Sectors of which the first bears the mark of its line's pin. -/
def markPin (pin : Bool) : List TileSec → List TileSec
  | [] => []
  | t :: l => { t with pinned := pin } :: l

/-- What a tile request reads goes to its instruction, which keeps the line's pin; that of an instruction that is over is released at
once (R99, R154). -/
def State.tilePut (s : State) (id : Nat) (r : PgReq) (pin : Bool) : State :=
  let mine (q : SliceOp) : Bool := q.who == r.who && q.wants.contains id
  match r.kind with
  | .tile need _ _ =>
    let ts := s.tileSecs r need
    let take (q : SliceOp) : SliceOp :=
      let old := q.tiles.filter fun t => t.la / 256 == r.la / 256
      { q with tiles := (q.tiles.filter fun t => t.la / 256 != r.la / 256) ++ markPin (pin || old.any fun t => t.pinned) ts }
    if (s.proc r.who.lpn).mx.queue.any mine then
      s.modProc r.who.lpn fun p => { p with mx := { p.mx with queue := mapIf mine take p.mx.queue } }
    else if pin then s.post (.tilePinRelease r.core (r.gpa / 256))
    else s
  | _ => s

/-- A tile request is answered, and the line is pinned for its unit. A line that is not installed cannot be pinned (R99, R100). -/
def State.tileGive (s : State) (id vmid line : Nat) : State :=
  match s.item id with
  | some (.pg r) =>
    let pin := (s.l2Find vmid line).isSome && !s.tileHas r.core vmid line
    let s := if pin then
        (s.l2Mod vmid line fun l => { l with pins := l.pins + 1 }).modProc r.who.lpn fun p =>
          { p with mx := { p.mx with pins := p.mx.pins ++ [(vmid, line)] } }
      else s
    let s := (s.modProc r.who.lpn fun p => { p with chghit := p.chghit + 1 }).tilePut id r pin
    (s.putItem id (.pgReply r 0)).post (.landingResult id)
  | _ => s

/-- Serves requests that the one read of a line answers: each pins the line, and those that would pin it too often, or one way too many
of its set, wait (R99, R100). -/
def State.tileServe (s : State) (ids : List Nat) (vmid line : Nat) : State :=
  ids.foldl (fun s id =>
    let again := match s.item id with
      | some (.pg r) => s.tileHas r.core vmid line
      | _ => false
    if again || s.pinRoom vmid line 1 then s.tileGive id vmid line
    else s.modSlice (sliceOf line) fun x => { x with tileWait := x.tileWait ++ [id] }) s

/-- The requests that a request of a group is read for: those that joined it, or itself alone. -/
def State.tileGroup (s : State) (id k : Nat) : List Nat :=
  match (s.slice k).holds.find? fun h => h.reqs.head? == some id with
  | some h => h.reqs
  | none => [id]

/-- The sectors of a tile request that are still to be fetched. -/
def State.tileLacks (s : State) (r : PgReq) : List Nat :=
  match r.kind with
  | .tile need got _ => [0, 1].filter fun k =>
      need / 2 ^ k % 2 == 1 && got / 2 ^ k % 2 == 0 && s.l2Sec r.vmid (r.gpa / 256 * 256 + 128 * k) == .absent
  | _ => []

/-- A tile request, and what joined it, is read: a sector that is absent is fetched first, and another core's copy is taken back (R95,
R99, R100). -/
def State.tileRead1 (s : State) (id : Nat) (r : PgReq) : State :=
  let line := r.gpa / 256
  let k := sliceOf line
  match s.tileLacks r with
  | x :: _ =>
    let r := { r with gpa := line * 256 + 128 * x }
    (s.putItem id (.pg r)).slMiss id r
  | [] =>
    match (s.l2Find r.vmid line).bind fun l => l.recall r.core (secKey r.vmid r.gpa) with
    | some e => s.slBusy id r e
    | none =>
      let ids := s.tileGroup id k
      (s.modSlice k fun x => { x with holds := x.holds.filter fun h => h.reqs.head? != some id }).tileServe ids r.vmid line

/-- May a tile request join a held one: the same line and sectors, its window open, and from another core (R100)? -/
def State.joins (s : State) (r : PgReq) (h : TileHold) : Bool :=
  match r.kind with
  | .tile need _ _ =>
    !h.closed && h.vmid == r.vmid && h.line == r.gpa / 256 && h.need == need && !(h.reqs.any fun i => match s.item i with
      | some (.pg q) => q.core == r.core
      | _ => false)
  | _ => false

/-- A tile request that has just arrived is held for its window, or joins one that is (R100). -/
def State.tileHold (s : State) (id : Nat) (r : PgReq) : State :=
  let line := r.gpa / 256
  let k := sliceOf line
  match r.kind with
  | .tile need got _ =>
    let s := s.putItem id (.pg { r with kind := .tile need got true })
    if (s.slice k).holds.any (s.joins r) then
      s.modSlice k fun x => { x with holds := mapIf (s.joins r) (fun h => { h with reqs := h.reqs ++ [id] }) x.holds }
    else
      (s.modSlice k fun x =>
        { x with holds := x.holds ++ [{ vmid := r.vmid, line := line, need := need, closed := false, reqs := [id] }] }).after
        .network (fld 7 0 s.regs.l2cfg) (.tileMergeClose k line)
  | _ => s

/-- TILE_REQUEST: a request for sectors of one line of a tile at its home slice (R98 to R100, R153). -/
def execTileRequest (id : Nat) (s : State) : Out :=
  .next (s.atSlice id fun r s =>
    let line := r.gpa / 256
    let k := sliceOf line
    let s := s.predClear r.vmid line r.core
    if (s.slice k).shut.contains (r.vmid, line) && (s.tilePins r.core).isEmpty then
      s.modSlice k fun x => { x with tileWait := x.tileWait ++ [id] }
    else match r.kind with
      | .tile _ _ held => if held || fld 7 0 s.regs.l2cfg = 0 then s.tileRead1 id r else s.tileHold id r
      | _ => s)

/-- TILE_MERGE_CLOSE: the window of the oldest held request for a line ends; the line is read once for all that joined (R100). -/
def execTileMergeClose (slice line : Nat) (s : State) : Out :=
  let mine (h : TileHold) : Bool := h.line == line && !h.closed
  .next (match (s.slice slice).holds.find? mine with
    | some h =>
      let s := s.modSlice slice fun x =>
        { x with holds := x.holds.map fun e => if e == h then { e with closed := true } else e }
      match h.reqs.head? with
      | some i => s.post (.tileRequest i)
      | none => s
    | none => s)

/-- TILE_PIN_RELEASE: the unit of a core releases its pin on a line (R99); waiting tile requests and commits go on. -/
def execTilePinRelease (core line : Nat) (s : State) : Out :=
  let lpn := (s.core core).host
  .next (match (s.proc lpn).mx.pins.find? fun p => p.2 == line with
    | some (v, _) =>
      let s := s.modProc lpn fun p => { p with mx := { p.mx with pins := dropFirst (fun q => q == (v, line)) p.mx.pins } }
      let s := s.l2Mod v line fun l => { l with pins := l.pins - 1 }
      let go := (s.slice (sliceOf line)).tileWait
      ((s.modSlice (sliceOf line) fun x => { x with tileWait := [] }).postAll (go.map fun i => .tileRequest i)).retryApplies
    | none => s)

/-! ## Scrub, buckets and partitions (R102, R104, R110) -/

/-- MASK_SCRUB: the next set of a slice; each VMID's own pointer counts from its last L2PART write (R102). -/
def execMaskScrub (slice : Nat) (s : State) : Out :=
  let x := s.slice slice
  let now := x.scrub
  .next (
    let s := x.lines.foldl (fun s l =>
      let set := (now + 128 - spGet 0 x.scrubOf l.vmid % 128) % 128
      if l.vmid != 0 && homeSet l.line == set && s.l2Mask l.vmid / 2 ^ l.way % 2 == 0 then
        let n := ([0, 1].filter fun k => l.sec k == SecSt.dirty).length
        if n = 0 then s
        else
          let id := s.nextId
          let r := pgReqFor .writeback 0 s.cur l.vmid (l.line * 256)
          let s := (s.launchItem (.pg r)).post (.mscWriteback id)
          { s with regs := { s.regs with l2stat := s.regs.l2stat + w64 n } }
      else s) s
    s.modSlice slice fun x => { x with scrub := (x.scrub + 1) % 128 })

/-- One bucket's refill: its count is clipped to the depth in force from now on, takes the rate, and gives what is past the depth to the
pool (R104, R110; log 62). -/
def refillOne (b rate depth : Int) : Int × Nat :=
  let b := min b depth
  if b + rate > depth then (depth, (b + rate - depth).toNat) else (b + rate, 0)

/-- Tokens that flow over go into a die's pool, up to POOLMAX (R104). -/
def State.poolAdd (s : State) (die n : Nat) : State :=
  { s with pools := spPut s.pools die (min (fld 39 16 s.regs.l2cfg) (spGet 0 s.pools die + n)) }

/-- The VMIDs that have buckets (R104). -/
def tenants : List Nat := (List.range 255).map fun v => v + 1

/-- BUCKET_REFILL: every bucket of a slice, once each 1,024 slice cycles (R104). -/
def execBucketRefill (slice : Nat) (s : State) : Out :=
  .next (forEach tenants s fun s v =>
    let bw := spGet l2bwReset s.regs.l2bw v
    let depth : Int := fld 35 16 bw
    let (b, past) := refillOne (spGet depth (s.slice slice).buckets v) (fld 15 0 bw) depth
    let s := s.modSlice slice fun x => { x with buckets := if b = depth then spDel x.buckets v else spPut x.buckets v b }
    if past = 0 then s else s.poolAdd (dieOfSlice slice) past)

/-- The refill of the slices of a die that are not listed: their buckets are full and give their whole rates to the pool (R104). -/
def State.refillRest (s : State) (die : Nat) : State :=
  let listed := (s.slices.filter fun x => dieOfSlice x.1 == die).length
  let rate := tenants.foldl (fun n v => n + fld 15 0 (spGet l2bwReset s.regs.l2bw v)) 0
  s.poolAdd die ((512 - listed) * rate)

/-- The refill of every slice in its cycle: the parameters written since the last one are in force (R104, R110). -/
def State.refillAll (s : State) : State :=
  let s := { s with bwOld := [] }
  (forEach (List.range 16) s State.refillRest).postAll (s.slices.map fun x => .bucketRefill x.1)

/-- L2PART_WRITE: the masks of a VMID change and its scrub restarts at set 0 (R102, R109). -/
def execL2partWrite (vmid : BitVec 8) (v : W64) (s : State) : Out :=
  .next (
    let s := { s with regs := { s.regs with l2part := spPut s.regs.l2part vmid.toNat v } }
    { s with slices := spMap s.slices fun _ x => { x with scrubOf := spPut x.scrubOf vmid.toNat x.scrub } })

/-- L2BW_WRITE: the bucket's parameters change; those in force stay until each slice's next refill, which clips b (R110). A full bucket
that was not listed is listed at its old depth. -/
def execL2bwWrite (vmid : BitVec 8) (v : W64) (s : State) : Out :=
  let n := vmid.toNat
  let old : Int := s.bwDepth n
  let bw := s.bwOf n
  .next (
    let s := if old = (fld 35 16 v : Int) then s
      else forEach (List.range 8192) s fun s k =>
        s.modSlice k fun x => { x with buckets := spPut x.buckets n (spGet old x.buckets n) }
    { s with regs := { s.regs with l2bw := spPut s.regs.l2bw n v }, bwOld := spPut s.bwOld n bw })

/-- L2STAT_CLEAR: a write clears L2STAT (R110). -/
def execL2statClear (s : State) : Out := .next { s with regs := { s.regs with l2stat := 0 } }

end Sys2Proof.Machine
end

