-- ==== Sys2Proof/Machine/Pages.lean ====
section
/-!
DEFINITION. Page migration (05 R117 to R122), the page copy engine (05 R119) and the checkpoint (05 R128 to R130).
-/

namespace Sys2Proof.Machine

/-! ## Block slots (R117, R120, R122) -/

/-- Do the pages of two PGBLK values of one VMID overlap? -/
def pgOverlap (a b : W64) : Bool :=
  let la := fld 47 12 a * 4096
  let lb := fld 47 12 b * 4096
  fld 63 56 a == fld 63 56 b && la < lb + pgSize (fld 5 4 b) && lb < la + pgSize (fld 5 4 a)

/-- May PGBLK be written with a value (R117)? -/
def State.pgblkOk (s : State) (v : W64) : Bool :=
  let k := fld 2 0 v
  fld 63 56 v != 0 && fld 47 12 v * 4096 % pgSize (fld 5 4 v) == 0 &&
    (if fld 7 6 v = 0 then
      !(s.block k).active && !((List.range 8).any fun b => (s.block b).active && pgOverlap (s.block b).val v)
    else fld 7 6 v == 1 && (s.block k).active)

/-- The lines of a page that any L2 slice holds. -/
def State.pageL2 (s : State) (v : W64) : List L2Line :=
  s.slices.flatMap fun x => x.2.lines.filter fun l => pgCovers v l.vmid (l.line * 256)

/-- Squashes every uncommitted chunk whose read set holds a line of a page (R120). -/
def State.squashPage (s : State) (v : W64) : State :=
  s.threads.foldl (fun s w =>
    let t := s.slot w
    let ls := (match t.chunk with
        | some c => c.reads
        | none => []) ++
      (match t.commit with
        | some c => c.chunk.reads
        | none => [])
    ls.foldl (fun s l =>
      match l with
      | .paged vm n => if pgCovers v vm (n * 256) then (s.squashOn l w).dropGrants l else s
      | .loc _ _ => s) s) s

/-- PGBLK_BLOCK: the slot opens on every slice and the page begins to drain (R117, R120). -/
def execPgblkBlock (v : W64) (s : State) : Out :=
  let b := fld 2 0 v
  .next (if !s.pgblkOk v || fld 7 6 v != 0 then s else
    let s := { s with regs := { s.regs with pgblk := v } }
    let s := s.modBlock b fun _ => { val := v, active := true, drained := false, queue := [] }
    let s := (s.pageL2 v).foldl (fun s l => s.dropCopies l.vmid l.line none) (s.squashPage v)
    s.post (.pageDrainDone (BitVec.ofNat 3 b)))

/-- Can a page be drained: no line pinned or busy, no sector in repair wait, no write-back on its way (R120, R131)? -/
def State.drainable (s : State) (v : W64) : Bool :=
  let onWay (i : Item) : Bool := match i with
    | .pg r => match r.kind with
      | .writeback => pgCovers v r.vmid r.gpa
      | .put _ _ => pgCovers v r.vmid r.gpa
      | _ => false
    | _ => false
  !((s.pageL2 v).any fun l => l.pins != 0 || l.busy.isSome) && !(s.repairs.any fun r => pgCovers v r.vmid r.gpa) &&
    !(s.net.any fun e => onWay e.2)

/-- PAGE_DRAIN_DONE: every slice and memory-side cache writes the page's dirty sectors down and drops its lines; until
pins and repair waits end it is tried again (R120). -/
def execPageDrainDone (block : BitVec 3) (s : State) : Out :=
  let b := block.toNat
  let x := s.block b
  .next (if !x.active || x.drained then s
    else if !s.drainable x.val then s.after .network 1 (.pageDrainDone block)
    else
      let s := (s.pageL2 x.val).foldl (fun s l => s.l2Evict l none) s
      let s := s.bases.foldl (fun s d =>
        (d.2.lines.filter fun l => pgCovers x.val l.vmid (l.line * 256)).foldl (fun s l => s.mscEvict d.1 l) s) s
      s.modBlock b fun x => { x with drained := true })

/-- Releases a block slot: its queues replay in order, every request handled afresh (R120, R122). -/
def State.releaseBlock (s : State) (b : Nat) : State :=
  let q := (s.block b).queue
  let s := s.modBlock b fun x => { x with active := false, drained := false, queue := [] }
  q.foldl (fun s e => e.2.foldl State.again s) s

/-- PGBLK_ABANDON (R122). -/
def execPgblkAbandon (v : W64) (s : State) : Out :=
  let b := fld 2 0 v
  .next (if !(s.block b).active then s
    else { s with regs := { s.regs with pgblk := v } }.releaseBlock b)

/-- PGSTAT (R118). -/
def State.pgstat (s : State) : W64 :=
  let bits (p : Block → Bool) : Nat := ((List.range 8).map fun k => if p (s.block k) then 2 ^ k else 0).foldl (· + ·) 0
  w64 (bits (fun b => b.active) + bits (fun b => b.active && b.drained) * 2 ^ 8 + (if s.copyBusy then 2 ^ 16 else 0) +
    (if s.ckPhase != .idle then 2 ^ 17 else 0))

/-! ## The page copy engine (R119) -/

/-- Memory with n bytes from a source copied over a destination that does not overlap it. -/
def memCopy (m : List Host.Cell) (src dst n : Nat) : List Host.Cell :=
  let moved := (m.filter fun c => src ≤ c.1 && c.1 < src + n).map fun c => (c.1 - src + dst, c.2)
  (m.filter fun c => c.1 < dst) ++ moved ++ (m.filter fun c => dst + n ≤ c.1)

/-- Poisoned sectors after the same copy. -/
def poisonCopy (l : List Nat) (src dst n : Nat) : List Nat :=
  let moved := (l.filter fun k => src ≤ k && k < src + n).map fun k => k - src + dst
  (l.filter fun k => k < dst) ++ moved ++ (l.filter fun k => dst + n ≤ k)

/-- Bytes of a PGCDST size code. -/
def pgcSize (n : Nat) : Nat :=
  match n with
  | 0 => 128
  | 1 => 0x1000
  | 2 => 0x10000
  | 3 => 0x200000
  | _ => 0x40000000

/-- Is a range wholly in HBM4E, the header page, LPDDR6 general or the checkpoint region? -/
def copyRange (a n : Nat) : Bool :=
  (a + n ≤ 0x010000000000) || (0x010000000000 ≤ a && a + n ≤ 0x010000001000) ||
    (0x010000001000 ≤ a && a + n ≤ 0x040000000000) || (0x040000000000 ≤ a && a + n ≤ 0x050000000000)

/-- May PGCDST be written with a value (R119)? -/
def State.pgcdstOk (s : State) (v : W64) : Bool :=
  let n := pgcSize (fld 2 0 v)
  let src := fld 47 7 s.regs.pgcsrc * 128
  let dst := fld 47 7 v * 128
  fld 2 0 v ≤ 4 && !s.copyBusy && s.ckPhase == .idle && src % n == 0 && dst % n == 0 &&
    (src + n ≤ dst || dst + n ≤ src) && copyRange src n && copyRange dst n

/-- PAGE_COPY_START: a write of PGCDST starts the engine (R119). -/
def execPageCopyStart (v : W64) (s : State) : Out :=
  .next (if !s.pgcdstOk v then s
    else
      { s with regs := { s.regs with pgcdst := v }, copyBusy := true, copySrc := fld 47 7 s.regs.pgcsrc * 128 }.post .pageCopyDone)

/-- The memory sectors of a range that have an uncorrectable error, ascending. -/
def State.lostIn (s : State) (a n : Nat) : List Nat :=
  (s.errs.filterMap fun e => match e with
    | .mem k => if a ≤ k * 128 && k * 128 < a + n then some k else none
    | _ => none).foldl (fun l k => insNat k l) []

/-- Memory after whole sectors were copied at the controllers: poison goes with them, a sector that cannot be read leaves poison at the
destination, and every other destination sector is whole again (R119, R123). -/
def State.copied (s : State) (src dst n : Nat) : State :=
  let lost := (s.lostIn src n).map fun k => k - src / 128 + dst / 128
  let inDst (e : ErrAt) : Bool := match e with
    | .mem k => dst ≤ k * 128 && k * 128 < dst + n
    | _ => false
  { s with mem := memCopy s.mem src dst n, errs := s.errs.filter fun e => !inDst e,
           poison := lost.foldl (fun l k => insNat k l) (poisonCopy s.poison (src / 128) (dst / 128) (n / 128)) }

/-- PAGE_COPY_DONE: every sector has been copied at the controllers; each that cannot be read sends a record of source 4 (R119, R125,
R131). -/
def execPageCopyDone (s : State) : Out :=
  .next (if !s.copyBusy then s else
    let n := pgcSize (fld 2 0 s.regs.pgcdst)
    let dst := fld 47 7 s.regs.pgcdst * 128
    let lost := s.lostIn s.copySrc n
    { lost.foldl (fun s k => s.poisonNote 4 (k * 128) 0 none) (s.copied s.copySrc dst n) with copyBusy := false })

/-! ## Checkpoint (R128 to R130) -/

/-- CHECKPOINT_START: CKPT.GO begins the stop phase; a second GO has no effect (R128, R129). -/
def execCheckpointStart (s : State) : Out :=
  .next (if s.ckPhase != .idle then s
    else
      { s with ckPhase := .stop, ckStart := s.clk, ckPoison := 0,
               regs := { s.regs with ckpt := setBit 0 true (setBit 2 false s.regs.ckpt) } }.post .checkpointFlush)

/-- POWER_FAIL_INPUT starts a checkpoint when CKPT.AUTO is set (R128). -/
def execPowerFailInput (s : State) : Out :=
  if tb 1 s.regs.ckpt then execCheckpointStart s else .next s

/-- Does a commit wait in a block queue (R154)? -/
def State.inBlockQueue (s : State) (c : Committing) : Bool :=
  c.owns.any fun i => s.blocks.any fun b => b.2.queue.any fun q => q.2.contains i

/-- A core stops for a checkpoint: its chunks end, a commit held in a block queue is squashed, and it is frozen once
nothing of its threads is uncommitted; an MSTO stops at its next row (R129, R365). -/
def State.ckStop (s : State) (core : Nat) : State :=
  let lpn := (s.core core).host
  let ws : List Who := allSlots.map fun n => { lpn := lpn, slot := n }
  let s := ws.foldl (fun s w => s.endChunk w) s
  let s := ws.foldl (fun s w =>
    match (s.slot w).commit with
    | some c => if s.inBlockQueue c then ((c.owns.foldl State.dropItem s).openShut c.chunk.writes).squash w else s
    | none => s) s
  if ws.all fun w => (s.slot w).settled then
    let s := s.modProc lpn fun p => { p with mx := { p.mx with queue := p.mx.queue.map fun q => { q with halt := true } } }
    s.modCore core fun c => { c with frzCkpt := true }
  else s

/-- Has a core a slot that can issue, now or at the next rotation boundary? -/
def State.coreBusy (s : State) (core : Nat) : Bool :=
  (s.proc (s.core core).host).slots.any fun t => t.2.st == .ready || t.2.st == .starting

/-- The time since reset in microseconds, from the 2.0 GHz network clock (R110, R130). -/
def State.micros (s : State) : Nat := s.clk / 2000

/-- CHECKPOINT_FLUSH: once every core is frozen and no page copy runs, every cache writes its dirty and poisoned sectors
to memory; until then it is tried again (R129). -/
def execCheckpointFlush (s : State) : Out :=
  .next (if s.ckPhase != .stop then s else
    let idle := s.liveCores.filter fun c => c != Config.imago && !(s.core c).frzCkpt && !s.coreBusy c
    let s := idle.foldl State.ckStop s
    let all := s.liveCores.all fun c => c == Config.imago || (s.core c).frzCkpt
    if s.copyBusy || !all then s.after .network 16 .checkpointFlush
    else
      let s := (List.range Config.cores).foldl (fun s c => s.modCore c fun x => { x with frzCkpt := true }) s
      { s.flushAll with ckPhase := .copy }.post .checkpointCopy)

/-- CHECKPOINT_COPY: every HBM4E sector at h goes to C + h, poison included; one that cannot be read is written poisoned, with a record
of source 5 (R125, R129, R131). -/
def execCheckpointCopy (s : State) : Out :=
  .next (if s.ckPhase != .copy then s
    else
      let lost := s.lostIn 0 Config.hbmSize
      let s := lost.foldl (fun s k => s.poisonNote 5 (k * 128) 0 none) (s.copied 0 Config.ckptBase Config.hbmSize)
      { s with ckPoison := ((lost.foldl (fun l k => insNat k l) s.poison).filter fun k => k < Config.hbmSize / 128).length,
               ckPhase := .seal }.post .checkpointSeal)

/-- The checkpoint header: the magic half, the time, the block slots with their ACTIVE and DRAINED bits after them, the
count of poisoned sectors (R130; log 16). -/
def State.ckHeader (s : State) : List Host.Cell :=
  let b := Config.ckptHeader
  let m := memWrite [] b 2 0x5C9E
  let m := memWrite m (b + 8) 8 s.micros
  let m := (List.range 8).foldl (fun m k => memWrite m (b + 0x40 + 8 * k) 8 (s.block k).val.toNat) m
  let m := memWrite m (b + 0x80) 2 (s.pgstat.toNat % 2 ^ 16)
  memWrite m (b + 0x100) 8 s.ckPoison

/-- CHECKPOINT_SEAL: the header page is written whole, and the checkpoint has completed; the cores stay frozen (R129,
R130). -/
def execCheckpointSeal (s : State) : Out :=
  .next (if s.ckPhase != .seal then s
    else
      let b := Config.ckptHeader
      let m := (s.mem.filter fun c => c.1 < b) ++ s.ckHeader ++ (s.mem.filter fun c => b + 0x1000 ≤ c.1)
      let v := setBit 0 false (setBit 2 true (setFld 47 16 ((s.clk - s.ckStart) / 2000) s.regs.ckpt))
      { s with mem := m, ckPhase := .idle, regs := { s.regs with ckpt := v } })

end Sys2Proof.Machine
end

