-- ==== Sys2Proof/Machine/Carry.lean ====
section
/-!
DEFINITION. Migration (22 R414 to R418): the carry packet, its departure, arrival, acknowledgement and refusals.
-/

namespace Sys2Proof.Machine

/-- A thread starts in a slot: bindings made to it hold from now on (R316). -/
def State.slotStarts (s : State) (core slot : Nat) : State :=
  s.modCore core fun c => { c with streams := c.streams.map fun e => (e.1, if e.2.slot = slot then { e.2 with seen := true } else e.2) }

/-- The registers as they travel: g24 to g31 arrive as 0 with F = 0 (R414). -/
def Arch.carried (a : Arch) (pc : BitVec 20) : Arch :=
  { a with regs := (List.range 8).foldl (fun v i => v.set! (24 + i) 0) a.regs, full := a.full &&& 0x00FFFFFF, pc := pc,
           past := false, landing := [] }

/-- The slot-range registers as they travel (R414). -/
def SlotRegs.carried (r : SlotRegs) : SlotRegs :=
  { r with spinres := 0, quantum := setFld 63 32 0 r.quantum, uistat := setFld 24 16 0 r.uistat }

/-- The context of a carry packet: what R414 lists, and nothing else of the slot. The messages that FENCE.P waits for
are still the thread's (R156). -/
def Slot.carried (t : Slot) (pc : BitVec 20) (pos : BitVec 60) (bound : Bool) : Slot :=
  { Slot.init with st := .starting, arch := t.arch.carried pc, regs := t.regs.carried, sg := t.sg, hbank := t.hbank,
                   join := t.join, pri := t.pri, pos := pos, payload := t.payload, bound := bound, snaph := t.snaph,
                   sends := t.sends }

/-- Sends the carry packet of a thread; its slot waits for the acknowledgement (R416). `pc` is the migrating bundle. -/
def State.departWith (s : State) (w : Who) (d : Depart) (ctx : Slot) : State :=
  let t := s.slot w
  let c : Carry := { id := s.nextId, origin := w, dst := d.dst, why := d.why, tag := s.tagOf w, addr := d.addr, seg := d.seg, pc := t.arch.pc,
                     ctx := ctx, fieldcfg := (s.proc w.lpn).fieldcfg }
  let s := s.sendItem (s.hostOf w.lpn) (.carry c)
  s.startWait w .carry (fld 31 0 t.regs.waitlim) (w64 d.dst) fun _ => none

/-- A migration may depart once every landing has landed, and what FENCE.H waits for has happened, and no refused message
is held; otherwise the bundle waits and reissues (R414). -/
def State.whenCarriable (s : State) (f : State → State) : State :=
  let t := s.me
  if !t.settled && t.commit.isSome then s.waitAgain .commit 0 0 fun _ => none
  else if t.arch.landing.any Landing.open then s.waitAgain .landing 0 0 fun _ => none
  else if !t.atomics.isEmpty || !t.heldMsgs.isEmpty then s.waitAgain .fence 0 0 fun _ => none
  else f (s.modMe Slot.landAll)

/-- An access through a segment with M to another process: the thread goes there, and the bundle is performed on arrival
(R28, R415). -/
def State.migrateFor (s : State) (la : Nat) : State :=
  if s.me.chunkStarted then s.endBefore
  else s.whenCarriable fun s =>
    let s := s.modMe fun t => { t with chunk := none }
    let t := s.me
    let d : Depart := { dst := lpnOf la, why := .access, addr := w64 la, seg := s.useg, pos := t.pos, bound := false }
    { s.departWith s.cur d { t.carried t.arch.pc t.pos false with arrived := true } with bst := .stop }

/-- Is a slot free: absent and not reserved (R385)? -/
def Proc.freeSlot (p : Proc) (n : Nat) : Bool := (p.slot n).st == .absent && !(p.slot n).reserved

/-- The lowest usable free slot for an arriving thread (R416). -/
def Proc.usable (p : Proc) (bound : Bool) : Option Nat :=
  (List.range (if bound then 14 else 15)).find? p.freeSlot

/-- Starts an arrived thread in a slot (R416, R417). -/
def State.startArrival (s : State) (lpn n : Nat) (c : Carry) : State :=
  let w : Who := { lpn := lpn, slot := n }
  (s.modSlot w fun t => { c.ctx with heldMsgs := t.heldMsgs, st := .starting }).slotStarts (s.hostOf lpn) n

/-- CARRY_PACKET_ARRIVE (R416). -/
def execCarryPacketArrive (id : Nat) (s : State) : Out :=
  .next (match s.item id with
    | some (.carry c) =>
      let lpn := c.dst
      let p := s.proc lpn
      let core := p.core
      let answer (s : State) (i : Item) : State := (s.putItem id i).depart core id i
      if !jobCheck c.tag p then answer s (.carryRef c 5)
      else if c.why = .setpos && (!(tb 0 p.fieldcfg) || p.fieldcfg != c.fieldcfg) then answer s (.carryRef c 4)
      else match p.usable c.ctx.bound with
        | some n => answer (s.startArrival lpn n c) (.carryAck c core)
        | none =>
          if p.arrq.length < 8 then
            answer (s.modProc lpn fun p => { p with arrq := p.arrq ++ [c] }) (.carryAck c core)
          else answer s (.carryRef c 0)
    | _ => s)

/-- Does a slot still wait for the answer to a carry packet? -/
def State.awaitsCarry (s : State) (w : Who) : Bool :=
  match (s.slot w).wait with
  | some x => x.kind = .carry && (s.slot w).st = .waiting
  | none => false

/-- CARRY_ACK: the origin slot becomes absent (R416). -/
def execCarryAck (id : Nat) (s : State) : Out :=
  .next (match s.item id with
    | some (.carryAck c _) =>
      let s := s.dropItem id
      if s.awaitsCarry c.origin then s.vacate c.origin false else s
    | _ => s)

/-- A thread that a busy target refused and that has waited WAITLIM cycles resumes on the origin with WAITTO (R416). -/
def State.carryOver (s : State) (id : Nat) (c : Carry) : State :=
  (s.dropItem id).raiseFor c.origin (mkDue cWAITTO 0 0 (w64 c.dst) c.pc)

/-- CARRY_REFUSED: the thread resumes on the origin and takes the trap, or a busy target is offered the packet again
every 64 cycles until WAITLIM (R32, R416). -/
def execCarryRefused (id : Nat) (s : State) : Out :=
  .next (match s.item id with
    | some (.carryRef c why) =>
      let w := c.origin
      if !s.awaitsCarry w then s.dropItem id
      else if why = 5 then (s.dropItem id).raiseFor w (mkDue cSEGV c.seg 5 c.addr c.pc)
      else if why = 4 then (s.dropItem id).raiseFor w (mkDue cSEGV 0 4 (w64 (winAddr c.dst 0)) c.pc)
      else
        match (s.slot w).wait with
        | some x =>
          let past := (s.proc w.lpn).time - x.since
          if x.limit ≤ past then s.carryOver id c
          else (s.putItem id (.carry c)).after (.proc w.lpn) (min 64 (x.limit - past)) (.carryReoffer id)
        | none => s.dropItem id
    | _ => s)

/-- CARRY_REOFFER: a packet refused busy is offered again, unless WAITLIM has expired (R416). -/
def execCarryReoffer (id : Nat) (s : State) : Out :=
  .next (match s.item id with
    | some (.carry c) =>
      let late := match (s.slot c.origin).wait with
        | some x => x.limit ≤ (s.proc c.origin.lpn).time - x.since
        | none => false
      if late && s.awaitsCarry c.origin then s.carryOver id c else s.depart (s.hostOf c.origin.lpn) id (.carry c)
    | _ => s)

end Sys2Proof.Machine
end

