-- ==== Sys2Proof/Machine/Mem.lean ====
section
/-!
DEFINITION. Loads and stores (10 R224, R225): the way of a thread's access to the paged region (02 R38 to R48, 03 R70 to
R76), to its own local memory, to another process's, and to a device.
-/

namespace Sys2Proof.Machine

/-! ## Asking the slices -/

/-- The request of an access of the running bundle. -/
def State.pgReq (s : State) (kind : PgKind) (la : Nat) (l : Leaf1) : PgReq := s.pgReqOf s.cur kind la l

/-- The thread waits for a request of its own. -/
def State.askFor (s : State) (r : PgReq) : State :=
  (s.waitAgain .fill 0 0 fun _ => none).sendItem r.core (.pg r)

/-- Ends every chunk of the process that holds a line of a full stash set; the access is tried again (R75). -/
def State.endHolders (s : State) (la : Nat) : State :=
  let p := s.myProc
  let set := la / 256 % (max 1 (stashSets p))
  let lines := ((s.core p.core).stash.filter fun e => e.1 / 8 == set).map fun e => Line.paged e.2.vmid e.2.gtag
  let s := forEach (allSlots.map fun n => ({ lpn := s.cur.lpn, slot := n } : Who)) s fun s w =>
    match (s.slot w).chunk with
    | some c => if lines.any fun l => c.reads.contains l || c.writes.contains l then s.endChunk w else s
    | none => s
  { s with bst := .stop }

/-- Level and entry address of the leaf that translates an address, for a fault of kind 1 (R39, R50; log 57). -/
def State.leafAt (s : State) (la : Nat) : Nat × Nat :=
  let p := s.myProc
  match s.rowHit p la with
  | some l => (l.level, l.ent)
  | none =>
    match (s.walk1 p la).1 with
    | .ok l => (l.level, l.ent)
    | _ => (7, 0)

/-- An access of VMID 0 to a range that no second-stage leaf may name is counted in FAULTLOG (R112). -/
def State.noRange (s : State) : State :=
  s.modMyCore fun c => { c with faultlog := setFld 39 32 (min 255 (fld 39 32 c.faultlog + 1)) c.faultlog }

/-! ## A thread's paged access -/

/-- What a paged access of the running bundle comes to. -/
inductive PgAcc where
  /-- The line is at hand: VMID, guest-physical address and the sector. -/
  | ready (vmid gpa : Nat) (sec : BitVec 1024)
  /-- Memory type 2. -/
  | device (l : Leaf1)
  /-- An address of VMID 0 outside the named ranges. -/
  | nowhere
  /-- A slice is to be asked. -/
  | ask (r : PgReq)
  /-- The row's walker is to be asked. -/
  | walk
  /-- The bundle has trapped, parked or waits. -/
  | stop
  deriving DecidableEq, Repr

/-- Parks the running bundle with kind 1 (R39). -/
def State.parkRights (s : State) (la acc level ent : Nat) : State :=
  s.parkMe acc { kind := 1, level := level, sub := 0, gpa := ent } la

/-- An access that hits a stash line (R39, R44, R47, R72); one of VMID 0 to a line outside the named ranges reads nothing below M
(R112). -/
def State.stashAccess (s : State) (la acc : Nat) (l : StashLine) : State × PgAcc :=
  let wr := acc != 0
  if !rights1 s.me.priv wr l.w1 l.u1 then
    let (lv, ent) := s.leafAt la
    (s.parkRights la acc lv ent, .stop)
  else
    let gpa := l.gtag * 256 + la % 256
    let lf : Leaf1 := { gpa := gpa, size := 4096, w := l.w1, u := l.u1, mt := l.mt, level := 7, ent := 0 }
    if l.vmid = 0 && !(rangeOf gpa).named && s.me.priv != 2 then (s.noRange, .nowhere)
    else match l.sec (secOf gpa) with
    | .absent => (s, .ask (s.pgReq (.fill wr) la lf))
    | .poisoned => (s.raise cPOISON 0 0 (w64 la), .stop)
    | _ =>
      if wr && !l.w2 && l.vmid != 0 then (s, .ask (s.pgReq .upgrade la lf))
      else (s, .ready l.vmid gpa (spGet 0 s.secs (secKey l.vmid gpa)))

/-- An access that missed the stash and hit the row port; a retagged line keeps its place (R39, R42, R74 to R76, R103;
log 61). -/
def State.leafAccess (s : State) (la acc : Nat) (l : Leaf1) : State × PgAcc :=
  let wr := acc != 0
  let p := s.myProc
  if !rights1 s.me.priv wr l.w l.u then (s.parkRights la acc l.level l.ent, .stop)
  else if p.vmid = 0 && !(rangeOf l.gpa).named && s.me.priv != 2 then (s.noRange, .nowhere)
  else if l.mt = 2 then (s, .device l)
  else match s.stashLine p.core p.vmid (l.gpa / 256) with
    | some (key, x) =>
      let y := { x with ltag := la / 256, w1 := l.w, u1 := l.u }
      (s.stashMod p.core key fun _ => y).stashAccess la acc y
    | none =>
      if stashSets p = 0 || s.nonAlloc p.vmid l.mt then (s, .ask (s.pgReq (.home wr) la l))
      else if !s.stashRoom p.core p.vmid (l.gpa / 256) la then (s.endHolders la, .stop)
      else (s, .ask (s.pgReq (.fill wr) la l))

/-- The way of a thread's access to the paged region: what was read at the home for it, a stash hit, a row port hit, or a walk (R38,
R43, R136); with XROOT.E = 0 every one takes XLATE reason 3 (R34). `acc` is 0 for a read, 1 for a store. -/
def State.pagedSeek (s : State) (la acc : Nat) : State × PgAcc :=
  let p := s.myProc
  let mine (g : Grant) : Bool := g.la == la / 128 * 128 && (g.store || acc == 0)
  if !(tb 0 p.xroot) then (s.raise cXLATE 0 3 (w64 la), .stop)
  else match s.me.grants.find? mine with
  | some g =>
    let s := s.modMe fun t => { t with grants := dropFirst mine t.grants }
    if g.poisoned then (s.raise cPOISON 0 0 (w64 la), .stop) else (s, .ready g.vmid (g.gpa + la % 128) g.data)
  | none =>
    match s.stashHit p.core la with
    | some (_, l) => s.stashAccess la acc l
    | none =>
      match s.rowHit p la with
      | some l => s.leafAccess la acc l
      | none => (s, .walk)

/-- The thread waits for its row's walker, or tries again while its queue is full (R43). -/
def State.waitWalk (s : State) (la acc : Nat) : State :=
  if s.walkFull s.myProc.core then { s with bst := .stop }
  else (s.waitAgain .fill 0 0 fun _ => none).askWalk s.cur la acc none

/-- An access for which the thread waits in place until its translation and its sector are at hand. -/
def State.pagedAccess (s : State) (la acc : Nat) : State × PgAcc :=
  match s.pagedSeek la acc with
  | (s, .ask r) => (s.askFor r, .stop)
  | (s, .walk) => (s.waitWalk la acc, .stop)
  | x => x

/-! ## Devices (R42, R157) -/

/-- An access of memory type 2 in a chunk of its own: the second stage is checked first, then the size, 4 or 8 bytes (R42, R48, R135,
R144). One of a page that is blocked is tried again (R49). -/
def State.deviceAccess (s : State) (la size : Nat) (wr : Bool) (l : Leaf1) (f : Nat → State → State) : State :=
  s.whenSettled fun s =>
    let v := s.myProc.vmid
    if (s.blockOf v l.gpa).isSome then { s with bst := .stop }
    else
      let s := s.s2Load v l.gpa
      match s2Check v l.gpa 2 wr (s.s2Find v l.gpa) with
      | .error x => s.parkMe (if wr then 1 else 0) x la
      | .ok (l2, _) =>
        if size != 4 && size != 8 then s.raise cALIGN 0 0 (w64 la)
        else if l2.b then { s with bst := .stop }
        else f l2.hpa { s with alone := true }

/-! ## Loads (R224) -/

/-- Enters the line of a load in the read set; in a single-access chunk the read itself is the commit (R133, R145). -/
def State.readLine (s : State) (l : Line) (la : Nat) (f : State → State) : State :=
  if s.me.single then f ((s.modMe fun t => { t with single := false }).modChunk fun c => { c with last := true })
  else s.withLine l false la f

/-- Bytes of the chunk's own stores over a value: which bytes they cover, and what they hold (R136). -/
def State.ownBytes (s : State) (space off n : Nat) : W64 × W64 :=
  let z := s.merged false space off n 0
  let o := s.merged false space off n (2 ^ (8 * n) - 1)
  let mask : W64 := ~~~(w64 (z ^^^ o)) &&& w64 (2 ^ (8 * n) - 1)
  (mask, w64 z &&& mask)

/-- A load from the window: from the own local memory, by migration, or by a request; the access of a thread that has just migrated for
it stands in a chunk of its own (R27, R28, R135, R136). -/
def State.loadWindow (s : State) (seg : Seg) (d : Reg) (la size : Nat) (sx : Bool) (win : Nat) : State :=
  let lpn := lpnOf la
  let off := offOf la
  if lpn = s.cur.lpn then
    if s.locBad lpn s.me.priv off size then s.raise cPOISON 0 0 (w64 la)
    else if s.me.arrived then
      s.whenSettled fun s =>
        { s with alone := true }.openLand d win (.value (loadExt sx size (s.locRead lpn s.me.priv off size))) (w64 la) false
    else s.readLine (locLine lpn off) la fun s =>
      let v := if s.me.priv != 2 && hwArea s.myProc.lmmap off then 0
        else s.merged false lpn off size (s.locRead lpn s.me.priv off size)
      s.openLand d win (.value (loadExt sx size v)) (w64 la) false
  else if segHas (s.seg s.cur seg.toNat) rM then s.migrateFor la
  else
    let single := s.me.single
    s.readLine (locLine lpn off) la fun s =>
      let (mask, own) := s.ownBytes lpn off size
      let id := s.nextId
      (s.openLand d win .pending (w64 la) false).emit (s.hostOf s.cur.lpn) id
        (.win s.cur (s.tagOf s.cur) lpn (.load off size sx mask own single))

/-- A load whose value is not at hand issues: it takes its landing entry, and its window's bundles go on (R164). -/
def State.loadIssue (s : State) (d : Reg) (la size : Nat) (sx : Bool) (win : Nat) (f : LoadInfo → State → State) : State :=
  let i : LoadInfo := { id := s.nextId, size := size, sx := sx }
  f i (s.openLand d win .pending (w64 la) false)

/-- A load from the paged region (R136, R164, R224): from what is at hand, or through its landing entry; one whose first issue met a
fault or a limit waits in place (R326). -/
def State.loadPaged (s : State) (d : Reg) (la size : Nat) (sx : Bool) (win : Nat) : State :=
  match (if s.me.precise then s.pagedAccess la 0 else s.pagedSeek la 0) with
  | (s, .stop) => s
  | (s, .nowhere) => s.openLand d win (.value 0) (w64 la) false
  | (s, .device l) =>
    s.deviceAccess la size false l fun hpa s =>
      let id := s.nextId
      (s.openLand d win .pending (w64 la) false).emit (s.hostOf s.cur.lpn) id (.device s.cur hpa size none sx)
  | (s, .ready vmid gpa sec) =>
    s.readLine (.paged vmid (gpa / 256)) la fun s =>
      let v := s.merged true vmid gpa size (secRead sec (gpa % 128) size)
      s.openLand d win (.value (loadExt sx size v)) (w64 la) false
  | (s, .ask r) =>
    s.readLine (.paged r.vmid (r.gpa / 256)) la fun s =>
      s.loadIssue d la size sx win fun i s => s.sendItem r.core (.pg { r with ld := some i })
  | (s, .walk) =>
    if s.walkFull s.myProc.core then { s with bst := .stop }
    else s.loadIssue d la size sx win fun i s => s.askWalk s.cur la 0 (some i)

/-- Load (R224). -/
def State.load (s : State) (seg : Seg) (d : Reg) (off : W64) (size : Nat) (sx : Bool) (win : Nat) : State :=
  s.onSeek seg (s.seek seg off size rR false)
    (fun la s => s.withEntry fun s => s.loadPaged d la size sx win)
    (fun la s => s.withEntry fun s => s.loadWindow seg d la size sx win)

/-- A load in format AM. -/
def State.loadAM (s : State) (r : AM) (size : Nat) (sx : Bool) : Out :=
  .next (s.when r.g fun s => s.load r.seg r.d (s.offAM r size) size sx r.la.toNat)

/-- LD.b (R224). -/
def execLdB (r : AM) (s : State) : Out := s.loadAM r 1 false
/-- LD.h (R224). -/
def execLdH (r : AM) (s : State) : Out := s.loadAM r 2 false
/-- LD.w (R224). -/
def execLdW (r : AM) (s : State) : Out := s.loadAM r 4 false
/-- LD.d (R224). -/
def execLdD (r : AM) (s : State) : Out := s.loadAM r 8 false
/-- LDS.b (R224). -/
def execLdsB (r : AM) (s : State) : Out := s.loadAM r 1 true
/-- LDS.h (R224). -/
def execLdsH (r : AM) (s : State) : Out := s.loadAM r 2 true
/-- LDS.w (R224). -/
def execLdsW (r : AM) (s : State) : Out := s.loadAM r 4 true

/-- LDX (R224). -/
def execLdx (r : AX) (s : State) : Out :=
  .next (s.when r.g fun s => s.load r.seg r.d (s.offAX r) (2 ^ r.sz.toNat) r.sx r.la.toNat)

/-! ## Stores (R225) -/

/-- Adds a store to the chunk buffer (R136). -/
def State.addStore (s : State) (paged : Bool) (space addr size : Nat) (v : W64) (la : Nat) : State :=
  let t := s.me
  let st : Store := { paged := paged, space := space, addr := addr, size := size, val := w64 (v.toNat % 2 ^ (8 * size)),
                      pc := t.arch.pc, la := w64 la, priv := t.priv, bno := t.arch.bno }
  s.modChunk fun c => { c with stores := c.stores ++ [st] }

/-- A store to the window; the access of a thread that has just migrated for it is one step of its own (R28, R63, R135, R480). -/
def State.storeWindow (s : State) (seg : Seg) (la size : Nat) (v : W64) : State :=
  let lpn := lpnOf la
  let off := offOf la
  if lpn = s.cur.lpn then
    if size != 8 && s.locBad lpn s.me.priv off size then s.raise cPOISON 0 0 (w64 la)
    else if s.me.arrived then
      s.whenSettled fun s =>
        if s.lineHeld (locLine lpn off) (some s.cur) then { s with bst := .stop }
        else { (s.squashReaders (locLine lpn off) none).locWrite lpn s.me.priv off size v.toNat with alone := true }
    else s.withLine (locLine lpn off) true la fun s => s.addStore false lpn off size v la
  else if segHas (s.seg s.cur seg.toNat) rM then s.migrateFor la
  else s.withLine (locLine lpn off) true la fun s => s.addStore false lpn off size v la

/-- A store to the paged region (R225). -/
def State.storePaged (s : State) (la size : Nat) (v : W64) : State :=
  match s.pagedAccess la 1 with
  | (s, .nowhere) => s
  | (s, .device l) =>
    s.deviceAccess la size true l fun hpa s =>
      s.sendItem (s.hostOf s.cur.lpn) (.device s.cur hpa size (some (w64 (v.toNat % 2 ^ (8 * size)))) false)
  | (s, .ready vmid gpa _) =>
    s.withLine (.paged vmid (gpa / 256)) true la fun s => s.addStore true vmid gpa size v la
  | (s, _) => s

/-- Store (R225). -/
def State.store (s : State) (seg : Seg) (d : Reg) (off : W64) (size : Nat) : State :=
  let v := s.rd d
  s.onSeek seg (s.seek seg off size rW false)
    (fun la s => s.storePaged la size v)
    (fun la s => s.storeWindow seg la size v)

/-- ST (R225). -/
def execSt (r : AS) (s : State) : Out :=
  let size := 2 ^ r.f.toNat
  .next (s.when r.g fun s => s.store r.seg r.d (s.offAS r size) size)

/-- STX (R225). -/
def execStx (r : AX) (s : State) : Out :=
  .next (s.when r.g fun s => s.store r.seg r.d (s.offAX r) (2 ^ r.sz.toNat))

end Sys2Proof.Machine
end

