-- ==== Sys2Proof/Machine/Sync.lean ====
section
/-!
DEFINITION. Full/empty words (03 R65 to R69, 10 R226 to R228): the operations, the wait list of a core, and the service
of a word's queue.
-/

namespace Sys2Proof.Machine

/-! ## One operation at the word's core (R66) -/

/-- Does an operation return the word? -/
def SyncOp.reads : SyncOp → Bool
  | .ldsync => true
  | .ldff => true
  | _ => false

/-- Does an operation write the word's bytes? -/
def SyncOp.stores : SyncOp → Bool
  | .stsync => true
  | .stfill => true
  | _ => false

/-- May an operation proceed on the word's current state (R66)? -/
def State.syncMay (s : State) (lpn priv off : Nat) (op : SyncOp) : Bool :=
  match op with
  | .ldsync => s.isFull lpn priv off
  | .ldff => s.isFull lpn priv off
  | .stsync => !s.isFull lpn priv off || (priv != 2 && hwArea (s.proc lpn).lmmap off)
  | _ => true

/-- Sets the full bit as an operation of a privilege does: below M the words of the hardware areas stay full (R63). -/
def State.syncFull (s : State) (lpn priv off : Nat) (b : Bool) : State :=
  if priv != 2 && hwArea (s.proc lpn).lmmap off then s else s.setFull lpn off b

/-- The step of an operation that may proceed, with the word it returns (R66). -/
def State.syncStep (s : State) (lpn priv off : Nat) (op : SyncOp) (v : W64) (but : Option Who) : State × W64 :=
  match op with
  | .ldsync => (s.syncFull lpn priv off false, w64 (s.locRead lpn priv off 8))
  | .ldff => (s, w64 (s.locRead lpn priv off 8))
  | .sete => (s.syncFull lpn priv off false, 0)
  | _ => (((s.squashReaders (locLine lpn off) but).locWrite lpn priv off 8 v.toNat).syncFull lpn priv off true, 0)

/-- Does an operation change the word's state, so that its queue is served (R67)? -/
def SyncOp.changes : SyncOp → Bool
  | .ldff => false
  | _ => true

/-- After an operation from outside the queue the word's queue is served (R67). -/
def State.serveWord (s : State) (lpn off : Nat) (op : SyncOp) : State :=
  if op.changes && (s.proc lpn).waits.any (fun x => x.op.isSome && x.key == off) then s.post (.fullEmptyService lpn off) else s

/-- Has the wait list of a process a free entry (R67, R68)? -/
def Proc.waitRoom (p : Proc) : Bool := p.waits.length < 64

/-- Joins the wait list. -/
def State.joinWaits (s : State) (lpn : Nat) (x : Waiter) : State :=
  s.modProc lpn fun p => { p with waits := p.waits ++ [x] }

/-- Leaves the wait list. -/
def State.leaveWaits (s : State) (lpn id : Nat) : State :=
  s.modProc lpn fun p => { p with waits := p.waits.filter fun x => x.id != id }

/-- Is an identity in the wait list of a process? -/
def Proc.waitsFor (p : Proc) (id : Nat) : Bool := p.waits.any fun x => x.id == id

/-- Is this identity the wait of a thread that waits in place? -/
def Slot.holds (t : Slot) (id : Nat) : Bool :=
  match t.wait with
  | some x => x.id = id && t.st = .waiting && t.latch.isSome
  | none => false

/-- Does this identity's event go on with the thread: one that waits in place, or that Lomter stopped while it did (R159)? -/
def Slot.awaits (t : Slot) (id : Nat) : Bool :=
  match t.wait with
  | some x => x.id = id && (t.st = .waiting || t.st = .halted) && t.latch.isSome
  | none => false

/-- A waiter is served with a word: the thread goes on, or the reply to a remote waiter is sent (R67). -/
def State.served (s : State) (lpn : Nat) (x : Waiter) (v : W64) : State :=
  let s := s.leaveWaits lpn x.id
  if x.remote then s.answer (s.hostOf lpn) x.id x.who (.value v)
  else match x.op with
    | some o =>
      if o.reads then s.landResult x.who x.id (.value v)
      else if (s.slot x.who).awaits x.id then s.complete x.who id else s
    | none => s

/-- FULL_EMPTY_SERVICE: the head of a word's queue is served if it may proceed, in one step; the service goes on until a
head must wait. A service that would write a line of a held commit waits for its release (R67, R140). -/
def execFullEmptyService (lpn off : Nat) (s : State) : Out :=
  .next (match (s.proc lpn).waits.find? fun x => x.op.isSome && x.key == off with
    | some x =>
      match x.op with
      | some o =>
        if !s.syncMay lpn x.priv off o then s
        else if o.stores && s.lineHeld (locLine lpn off) none then s.after (.proc lpn) 1 (.fullEmptyService lpn off)
        else
          let (s, v) := s.syncStep lpn x.priv off o x.val none
          (s.served lpn x v).post (.fullEmptyService lpn off)
      | none => s
    | none => s)

/-! ## Waiting (R67, R68, R228) -/

/-- What is left of a limit of the running bundle's operation, counted from its first issue. -/
def State.remaining (s : State) (k : WaitKind) (limit : Nat) : Nat :=
  match s.me.wait with
  | some x => if x.kind = k then x.limit - (s.myProc.time - x.since) else limit - s.elapsed
  | none => limit - s.elapsed

/-- An operation that must wait and finds the list full is retried after 16 cycles (R68). -/
def State.listFull (s : State) (k : WaitKind) (limit : Nat) (addr : W64) (ev : Nat → Option Ev) : State :=
  (s.waitAgain k limit addr ev).after (.proc s.cur.lpn) 16 (.waitListRetry s.cur.lpn s.cur.slot)

/-- WAIT_LIST_RETRY: an operation that found the list full is tried again (R68). -/
def execWaitListRetry (lpn slot : Nat) (s : State) : Out :=
  let w : Who := { lpn := lpn, slot := slot }
  .next (match (s.slot w).wait with
    | some x => if (x.kind = .word || x.kind = .barrier) && (s.slot w).latch.isNone then s.wake w else s
    | none => s)

/-- A waiter of the running thread for a word of its own core. -/
def State.myWaiter (s : State) (id : Nat) (op : SyncOp) (off : Nat) (v : W64) : Waiter :=
  { id := id, who := s.cur, op := some op, key := off, val := v, remote := false, priv := s.me.priv }

/-- LDSYNC and LDFF on the own core (R66, R226, R228). -/
def State.syncReadHere (s : State) (op : SyncOp) (d : Reg) (win la : Nat) : State :=
  let lpn := s.cur.lpn
  let off := offOf la
  let a := w64 la
  if s.locBad lpn s.me.priv off 8 then s.raise cPOISON 0 0 a
  else if s.syncMay lpn s.me.priv off op then
    let (s, v) := s.syncStep lpn s.me.priv off op 0 none
    (s.openLand d win (.value v) a false).serveWord lpn off op
  else
    let left := s.remaining .word s.waitlim
    if left = 0 then s.openLand d win (.trap cWAITTO 0 0 a) a false
    else if s.myProc.waitRoom then
      let id := s.nextId
      let w := s.myWaiter id op off 0
      ((s.openLand d win .pending a true).joinWaits lpn w).after (.proc lpn) left (.waitlimExpiry lpn s.cur.slot id)
    else s.listFull .word s.waitlim a (waitlimEv s.cur)

/-- STSYNC, STFILL and SETE on the own core (R66, R226, R228). -/
def State.syncWriteHere (s : State) (op : SyncOp) (v : W64) (la : Nat) : State :=
  let lpn := s.cur.lpn
  let off := offOf la
  let a := w64 la
  if s.syncMay lpn s.me.priv off op then
    if op.stores && s.lineHeld (locLine lpn off) (some s.cur) then { s with bst := .stop }
    else (s.syncStep lpn s.me.priv off op v none).1.serveWord lpn off op
  else if s.remaining .word s.waitlim = 0 then s.raise cWAITTO 0 0 a
  else if s.myProc.waitRoom then
    let s := s.hold .word s.waitlim a 0 (waitlimEv s.cur)
    match s.me.wait with
    | some x => s.joinWaits lpn (s.myWaiter x.id op off v)
    | none => s
  else s.listFull .word s.waitlim a (waitlimEv s.cur)

/-- Sends a request to the core of another process under an identity the instruction has. -/
def State.request (s : State) (id dst : Nat) (op : WinOp) : State :=
  s.emit (s.hostOf s.cur.lpn) id (.win s.cur (s.tagOf s.cur) dst op)

/-- A request in place: the thread goes on at the reply (R226, R243, R388). -/
def State.holdAs (s : State) (k : WaitKind) (limit : Nat) (addr : W64) (d : Reg) (ev : Nat → Option Ev) (dst : Nat) (op : WinOp) :
    State :=
  let s := s.hold k limit addr d ev
  match s.me.wait with
  | some x => s.request x.id dst op
  | none => s

/-- A request in place whose wait is of kind reply. -/
def State.holdRequest (s : State) (limit : Nat) (addr : W64) (d : Reg) (ev : Nat → Option Ev) (dst : Nat) (op : WinOp) : State :=
  s.holdAs .reply limit addr d ev dst op

/-- A full/empty operation at a window address (R226). -/
def State.syncAt (s : State) (op : SyncOp) (seg : Seg) (d : Reg) (v : W64) (win la : Nat) : State :=
  let lpn := lpnOf la
  let off := offOf la
  if lpn = s.cur.lpn then (if op.reads then s.syncReadHere op d win la else s.syncWriteHere op v la)
  else if segHas (s.seg s.cur seg.toNat) rM then s.migrateFor la
  else if op.reads then
    let id := s.nextId
    ((s.openLand d win .pending (w64 la) true).request id lpn (.sync op off 0)).after (.proc s.cur.lpn) (s.remaining .word s.waitlim)
      (.waitlimExpiry s.cur.lpn s.cur.slot id)
  else if op = .stsync then s.holdRequest s.waitlim (w64 la) 0 (waitlimEv s.cur) lpn (.sync op off v)
  else s.holdRequest 0 (w64 la) 0 (fun _ => none) lpn (.sync op off v)

/-- Sync (R226): LDSYNC and LDFF. -/
def State.syncRead (s : State) (op : SyncOp) (r : AM) : Out :=
  .next (s.when r.g fun s =>
    s.onSeek r.seg (s.seek r.seg (s.offAM r 8) 8 (rS + rR) true) (fun _ s => s)
      (fun la s => s.withEntry fun s => s.syncAt op r.seg r.d 0 r.la.toNat la))

/-- Sync (R226): STSYNC, STFILL and SETE. -/
def State.syncWrite (s : State) (op : SyncOp) (r : AS) : Out :=
  .next (s.when r.g fun s =>
    s.onSeek r.seg (s.seek r.seg (s.offAS r 8) 8 (rS + rW) true) (fun _ s => s)
      (fun la s => s.syncAt op r.seg 0 (s.rd r.d) 0 la))

/-- LDSYNC (R226). -/
def execLdsync (r : AM) (s : State) : Out := s.syncRead .ldsync r
/-- LDFF (R226). -/
def execLdff (r : AM) (s : State) : Out := s.syncRead .ldff r
/-- STSYNC (R226). -/
def execStsync (r : AS) (s : State) : Out := s.syncWrite .stsync r
/-- STFILL (R226). -/
def execStfill (r : AS) (s : State) : Out := s.syncWrite .stfill r
/-- SETE (R226). -/
def execSete (r : AS) (s : State) : Out := s.syncWrite .sete r

end Sys2Proof.Machine
end

