-- ==== Sys2Proof/Machine/Atomic.lean ====
section
/-!
DEFINITION. Atomics (10 R230 to R232): the operations, the own local memory, another process's, the stash that holds the
line in X, the home slice with its locality predictor (04 R97, R98), and the splitting of combined requests (04 R91).
-/

namespace Sys2Proof.Machine

/-! ## The operations (R231) -/

/-- Op(old, x, y) on w = 8 × size bits; none where nothing is written (R231). -/
def atomicOp (fn size old x y : Nat) : Option Nat :=
  let w := 8 * size
  let x := x % 2 ^ w
  let y := y % 2 ^ w
  match fn with
  | 0 => some ((old + x) % 2 ^ w)
  | 1 => some x
  | 2 => if old = x then some y else none
  | 3 => some (if sint w old ≤ sint w x then old else x)
  | 4 => some (if sint w old ≤ sint w x then x else old)
  | 5 => some (min old x)
  | 6 => some (max old x)
  | 7 => some (old &&& x)
  | _ => some (old ||| x)

/-! ## In local memory -/

/-- The step of an atomic on a local word, with the old value; a hardware area returns 0 and is not written below M
(R63, R231). -/
def State.atomicLocal (s : State) (lpn priv fn size off : Nat) (x y : W64) (but : Option Who) : State × W64 :=
  if priv != 2 && hwArea (s.proc lpn).lmmap off then (s, 0)
  else
    let old := s.locRead lpn priv off size
    match atomicOp fn size old x.toNat y.toNat with
    | some v => ((s.squashReaders (locLine lpn off) but).locWrite lpn priv off size v, w64 old)
    | none => (s, w64 old)

/-- The old value of an atomic goes to its destination, if it returns one. -/
def State.atomicLand (s : State) (ret : Bool) (d : Reg) (win la : Nat) (v : W64) : State :=
  if ret then s.openLand d win (.value v) (w64 la) false else s

/-- A request of an atomic: a returning one takes a landing entry, the other is followed until its acknowledgement
(R141, R232). -/
def State.atomicOpen (s : State) (ret : Bool) (d : Reg) (win la : Nat) : State :=
  if ret then s.openLand d win .pending (w64 la) false
  else
    let id := s.nextId
    s.fresh.modMe fun t => { t with atomics := t.atomics ++ [(id, t.arch.pc, w64 la, s.useg)] }

/-- An atomic at a window address (R232). -/
def State.atomicWindow (s : State) (fn size : Nat) (ret : Bool) (seg : Seg) (d : Reg) (x y : W64) (win la : Nat) : State :=
  let lpn := lpnOf la
  let off := offOf la
  if lpn = s.cur.lpn then
    if s.locBad lpn s.me.priv off size then s.raise cPOISON 0 0 (w64 la)
    else if s.lineHeld (locLine lpn off) (some s.cur) then { s with bst := .stop }
    else
      let (s, v) := s.atomicLocal lpn s.me.priv fn size off x y none
      s.atomicLand ret d win la v
  else if segHas (s.seg s.cur seg.toNat) rM then s.migrateFor la
  else
    let id := s.nextId
    (s.atomicOpen ret d win la).request id lpn (.atomic fn size ret off x y)

/-! ## In the paged region -/

/-- The translation of a paged access through the stash's tags or the row port, with its first-stage rights checked; none
when the bundle has parked, trapped or waits for a walk (R34, R38, R39, R44). -/
def State.leafFor (s : State) (la acc : Nat) : State × Option Leaf1 :=
  let p := s.myProc
  let wr := acc != 0
  let use (l : Leaf1) : State × Option Leaf1 :=
    if rights1 s.me.priv wr l.w l.u then (s, some l) else (s.parkRights la acc l.level l.ent, none)
  if !(tb 0 p.xroot) then (s.raise cXLATE 0 3 (w64 la), none)
  else match s.stashHit p.core la with
    | some (_, l) =>
      let (lv, ent) := if rights1 s.me.priv wr l.w1 l.u1 then (7, 0) else s.leafAt la
      use { gpa := l.gtag * 256 + la % 256, size := 4096, w := l.w1, u := l.u1, mt := l.mt, level := lv, ent := ent }
    | none =>
      match s.rowHit p la with
      | some l => use l
      | none => (s.waitWalk la acc, none)

/-- An atomic performed in the own stash, which holds the line in X; a sector that is absent is fetched first (R73, R97, R149). -/
def State.atomicStash (s : State) (fn size : Nat) (ret : Bool) (d : Reg) (x y : W64) (win la key : Nat) (l : StashLine) : State :=
  let gpa := l.gtag * 256 + la % 256
  let line : Line := .paged l.vmid l.gtag
  let lf : Leaf1 := { gpa := gpa, size := 4096, w := l.w1, u := l.u1, mt := l.mt, level := 7, ent := 0 }
  if l.sec (secOf gpa) = SecSt.absent then s.askFor (s.pgReq (.fill true) la lf)
  else if l.sec (secOf gpa) = SecSt.poisoned then s.raise cPOISON 0 0 (w64 la)
  else if !l.w2 && l.vmid != 0 then
    s.askFor (s.pgReq .upgrade la lf)
  else if s.lineHeld line (some s.cur) then { s with bst := .stop }
  else
    let k := secKey l.vmid gpa
    let sec := spGet 0 s.secs k
    let old := secRead sec (gpa % 128) size
    let s := match atomicOp fn size old x.toNat y.toNat with
      | some v =>
        let s := s.squashReaders line none
        { s with secs := spPut s.secs k (secWrite sec (gpa % 128) size v) }.stashMod s.myProc.core key fun l => l.setSec (secOf gpa) .dirty
      | none => s
    s.atomicLand ret d win la (w64 old)

/-- Does the home slice hold a sector with the right W recorded, so that no stage-two check is made (R47)? -/
def State.l2Writable (s : State) (vmid gpa : Nat) : Bool :=
  match s.l2Find vmid (gpa / 256) with
  | some l => l.sec (secOf gpa) != SecSt.absent && (l.w2 || vmid == 0)
  | none => false

/-- An atomic goes to the home slice. Its second-stage rights and its memory type are found first: type 2 takes XLATE
reason 2; one to a blocked page joins its queue unchecked (R42, R47, R49, R231). -/
def State.atomicHome (s : State) (fn size : Nat) (ret : Bool) (d : Reg) (x y : W64) (win la : Nat) (l : Leaf1) : State :=
  let v := s.myProc.vmid
  let send (s : State) (mt : Nat) : State :=
    let id := s.nextId
    let r := s.pgReq (.atomic fn size ret x y) la { l with mt := mt }
    (s.atomicOpen ret d win la).emit r.core id (.pg r)
  if (s.blockOf v l.gpa).isSome || (l.mt != 2 && s.l2Writable v l.gpa) then send s l.mt
  else
    let s := s.s2Load v l.gpa
    match s2Check v l.gpa l.mt true (s.s2Find v l.gpa) with
    | .error f => s.parkMe 2 f la
    | .ok (_, mt) => if mt = 2 then s.raise cXLATE 0 2 (w64 la) else send s mt

/-- An atomic at a paged address (R231, R232). -/
def State.atomicPaged (s : State) (fn size : Nat) (ret : Bool) (d : Reg) (x y : W64) (win la : Nat) : State :=
  match s.leafFor la 2 with
  | (s, none) => s
  | (s, some l) =>
    let p := s.myProc
    if p.vmid = 0 && !(rangeOf l.gpa).named && s.me.priv != 2 then s.noRange.atomicLand ret d win la 0
    else match s.stashLine p.core p.vmid (l.gpa / 256) with
    | some (key, m) =>
      let m := { m with ltag := la / 256, w1 := l.w, u1 := l.u }
      let s := s.stashMod p.core key fun _ => m
      if m.st = LineSt.x then s.atomicStash fn size ret d x y win la key m else s.atomicHome fn size ret d x y win la l
    | none => s.atomicHome fn size ret d x y win la l

/-- Atomic(fn, sz, returning) (R231). -/
def State.atomic (s : State) (fn : Nat) (ret : Bool) (r : AA) : Out :=
  .next (s.when r.g fun s =>
    let size := if r.sz then 8 else 4
    let x := s.rd r.d
    let y := s.rd r.b
    let win := r.la.toNat
    let entry (f : State → State) (s : State) : State := if ret then s.withEntry f else f s
    s.onSeek r.seg (s.seek r.seg (s.offAA r) size rA false)
      (fun la => entry fun s => s.atomicPaged fn size ret r.d x y win la)
      (fun la => entry fun s => s.atomicWindow fn size ret r.seg r.d x y win la))

/-- AFAA (R231). -/
def execAfaa (r : AA) (s : State) : Out := s.atomic 0 true r
/-- AXCHG (R231). -/
def execAxchg (r : AA) (s : State) : Out := s.atomic 1 true r
/-- ACAS (R231). -/
def execAcas (r : AA) (s : State) : Out := s.atomic 2 true r
/-- AMIN (R231). -/
def execAmin (r : AA) (s : State) : Out := s.atomic 3 true r
/-- AMAX (R231). -/
def execAmax (r : AA) (s : State) : Out := s.atomic 4 true r
/-- AMINU (R231). -/
def execAminu (r : AA) (s : State) : Out := s.atomic 5 true r
/-- AMAXU (R231). -/
def execAmaxu (r : AA) (s : State) : Out := s.atomic 6 true r
/-- AAND (R231). -/
def execAand (r : AA) (s : State) : Out := s.atomic 7 true r
/-- AOR (R231). -/
def execAor (r : AA) (s : State) : Out := s.atomic 8 true r
/-- AFAA.N (R231). -/
def execAfaaN (r : AA) (s : State) : Out := s.atomic 0 false r
/-- AXCHG.N (R231). -/
def execAxchgN (r : AA) (s : State) : Out := s.atomic 1 false r
/-- ACAS.N (R231). -/
def execAcasN (r : AA) (s : State) : Out := s.atomic 2 false r
/-- AMIN.N (R231). -/
def execAminN (r : AA) (s : State) : Out := s.atomic 3 false r
/-- AMAX.N (R231). -/
def execAmaxN (r : AA) (s : State) : Out := s.atomic 4 false r
/-- AMINU.N (R231). -/
def execAminuN (r : AA) (s : State) : Out := s.atomic 5 false r
/-- AMAXU.N (R231). -/
def execAmaxuN (r : AA) (s : State) : Out := s.atomic 6 false r
/-- AAND.N (R231). -/
def execAandN (r : AA) (s : State) : Out := s.atomic 7 false r
/-- AOR.N (R231). -/
def execAorN (r : AA) (s : State) : Out := s.atomic 8 false r

/-! ## At the home slice (R97, R98) -/

/-- The count of a core's atomics to a line, this one included (R98). -/
def Slice.predCount (x : Slice) (vmid line core : Nat) : Nat :=
  match x.preds.find? fun p => p.vmid == vmid && p.line == line with
  | some p => if p.core = core then p.count + 1 else 1
  | none => 1

/-- Records an atomic in the locality predictor, or clears the line's entry (R98). -/
def State.predPut (s : State) (vmid line core : Nat) (count : Option Nat) : State :=
  s.modSlice (sliceOf line) fun x =>
    let rest := x.preds.filter fun p => !(p.vmid == vmid && p.line == line)
    { x with preds := match count with
        | some n => capped 64 (rest ++ [{ vmid := vmid, line := line, core := core, count := n }])
        | none => rest }

/-- ATHRESH (R108). -/
def State.athresh (s : State) : Nat := fld 11 8 s.regs.l2cfg

/-- The predictor's part in an atomic: counting, and at the threshold a grant of the line in X (R98). A combined request
comes from a switch and from no core. A core that cannot take the line is given no grant (log 63). -/
def State.predAtomic (s : State) (r : PgReq) : State :=
  let line := r.gpa / 256
  if r.parts.isSome then s else
  let n := (s.slice (sliceOf line)).predCount r.vmid line r.core
  let mt := match s.l2Find r.vmid line with
    | some l => l.mt
    | none => 1
  if s.athresh != 0 && s.athresh ≤ n && stashSets (s.proc (s.core r.core).host) != 0 && mt = 0 && r.mt = 0 &&
      !s.stashDeaf r.core && s.stashRoom r.core r.vmid line r.la then
    let s := (s.predPut r.vmid line r.core none).stashInstall r.core r 0 r.w2
      (if s.secBad r.vmid r.gpa 0 then .poisoned else .clean)
    s.post (.exclusiveGrant r.core (secKey r.vmid r.gpa))
  else s.predPut r.vmid line r.core (some n)

/-- The event that ends an atomic's way: its result at the core, or the split of a combined one (R91). -/
def PgReq.backEvent (r : PgReq) (id : Nat) : Ev := if r.parts.isSome then .combineSplit id else .landingResult id

/-- The reply of an atomic leaves the slice, with its charge (R106). -/
def State.atomicReply (s : State) (id : Nat) (r : PgReq) (v : W64) : State :=
  ((s.putItem id (.pgReply r v)).modProc r.who.lpn fun p => { p with chghit := p.chghit + 1 }).post (r.backEvent id)

/-- Who must first give a line up for an atomic: another core that owns it or has it exclusively, or any such core for a combined
one (R95). -/
def L2Line.atomicRecall (l : L2Line) (r : PgReq) : Option Ev :=
  let sec := secKey r.vmid r.gpa
  match l.dir with
  | .o c => if c = r.core && r.parts.isNone then none else some (.stashRecall c sec true)
  | .x c => if c = r.core && r.parts.isNone then none else some (.stashRevoke c sec)
  | _ => none

/-- The one step of an atomic at its slice: the read, the computation and the write, which invalidates every copy and
squashes every reader (R92, R140, R142, R231). Where the sector is not installed the bytes are merged into the memory side
(R103). A poisoned word fails it (R72). -/
def State.atomicPerform (s : State) (id : Nat) (r : PgReq) (h : Nat) : State :=
  let line := r.gpa / 256
  match r.kind with
  | .atomic fn size _ x y =>
    if s.secBad r.vmid r.gpa h then s.atomicFail id cPOISON 0
    else
      let old := s.pgRead r.vmid r.gpa h size
      let s := match atomicOp fn size old x.toNat y.toNat with
        | none => s
        | some v =>
          let s := (s.dropCopies r.vmid line none).squashReaders (.paged r.vmid line) none
          if s.l2Sec r.vmid r.gpa != SecSt.absent then s.pgWrite r.vmid r.gpa h size v
          else
            let n := s.nextId
            let s := s.launchItem (.pg { r with kind := .put size (w64 v), hpa := some h, parts := none })
            { s with agenda := .mscNonallocWrite n :: s.agenda }
      (s.predAtomic r).atomicReply id r (w64 old)
  | _ => s

/-- L2_ATOMIC: it waits while a commit holds the line; memory type 2 ends it with XLATE; another core's copy is taken back, an absent
sector is asked of the memory side, and the right W is checked where it is not known (R42, R47, R95, R97, R140). -/
def execL2Atomic (id : Nat) (s : State) : Out :=
  .next (s.atSlice id fun r s =>
    let line := r.gpa / 256
    if s.lineHeld (.paged r.vmid line) (some r.who) then s.after .network 1 (.l2Atomic id)
    else if r.mt = 2 then (if r.vmid = 0 then s.pgDevice id r else s.post (.s2Translate id))
    else match s.l2Find r.vmid line, r.hpa with
      | some l, h =>
        if l.sec (secOf r.gpa) = SecSt.absent && h.isNone then s.slMiss id r
        else match l.atomicRecall r with
          | some e => s.slBusy id r e
          | none => if s.w2Ok r then s.atomicPerform id r (l.hline * 256 + r.gpa % 256) else s.post (.s2UpgradeCheck id)
      | none, some h => if s.w2Ok r then s.atomicPerform id r h else s.post (.s2UpgradeCheck id)
      | none, none => s.slMiss id r)

/-- The reply of one part of a combined atomic (R91). -/
def State.splitReply (s : State) (id : Nat) (v : W64) : State :=
  match s.item id with
  | some (.pg r) => (s.putItem id (.pgReply r v)).post (r.backEvent id)
  | _ => s

/-- COMBINE_SPLIT: the first requester gets the value, the second the value with the first's addend, and the switch's
record is free (R91). The second's access is charged with its reply (R106). -/
def execCombineSplit (id : Nat) (s : State) : Out :=
  .next (match s.item id with
    | some (.pgReply q v) =>
      match q.parts, q.kind with
      | some (i1, i2, a1), .atomic _ z _ _ _ =>
        let s := { s.dropItem id with combine := spMap s.combine fun _ l => l.filter fun i => i != id }
        let s := match s.item i2 with
          | some (.pg r) => s.modProc r.who.lpn fun p => { p with chghit := p.chghit + 1 }
          | _ => s
        (s.splitReply i1 v).splitReply i2 (w64 ((v.toNat + a1.toNat) % 2 ^ (8 * z)))
      | _, _ => s
    | _ => s)

/-- The reply of an atomic reaches its core: the value is held for its landing, or the acknowledgement is taken (R141,
R165). -/
def State.atomicBack (s : State) (id : Nat) (r : PgReq) (ret : Bool) (v : W64) : State :=
  let s := s.dropItem id
  if ret then s.landResult r.who id (.value v) else s.atomicAck r.who id

end Sys2Proof.Machine
end

