-- ==== Sys2Proof/Machine/Barrier.lean ====
section
/-!
DEFINITION. Named barriers (10 R239 to R245): the records, arrival and completion, BARCFG, and the limit BARLIM.
-/

namespace Sys2Proof.Machine

/-- Index of a barrier name (R239). -/
def barIdx (name : W64) : Nat := fld 8 0 name

/-- LPN of a barrier name (R239). -/
def barLpn (name : W64) : Nat := fld 27 9 name

/-- A barrier record of a process. -/
def Proc.bar (p : Proc) (i : Nat) : Bar := spGet Bar.init p.bars i

/-- Writes a barrier record. -/
def State.putBar (s : State) (lpn i : Nat) (b : Bar) : State := s.modProc lpn fun p => { p with bars := spPut p.bars i b }

/-- Is this a waiter of a barrier record? -/
def Waiter.ofBar (i : Nat) (x : Waiter) : Bool := x.op.isNone && x.key == i

/-- A waiter of a record goes on with a generation number (R242). -/
def State.releaseBar (s : State) (lpn : Nat) (gen : BitVec 16) (x : Waiter) : State :=
  let s := s.leaveWaits lpn x.id
  let v := gen.zeroExtend 64
  if x.remote then s.answer (s.hostOf lpn) x.id x.who (.value v)
  else if (s.slot x.who).awaits x.id then
    s.complete x.who fun t => match t.latch with
      | some l => t.wrField l.d v
      | none => t
  else s

/-! ## Fields: the rectangle and the barrier of its steps (R419, R429) -/

/-- W of a field (R420). -/
def fieldW (cfg : W64) : Nat := fld 20 15 cfg + 1

/-- H of a field (R420). -/
def fieldH (cfg : W64) : Nat := fld 27 21 cfg + 1

/-- The core of a field index (R420). -/
def fieldCore (cfg : W64) (i : Nat) : Nat := coreAt (fld 33 28 cfg + i % fieldW cfg) (fld 40 34 cfg + i / fieldW cfg)

/-- The cores of a field's rectangle, by field index. -/
def fieldCores (cfg : W64) : List Nat := (List.range (fieldW cfg * fieldH cfg)).map (fieldCore cfg)

/-- Is a barrier record the one that the FIELDBAR of its own process names, on a core with EN = 1 (R429)? -/
def State.fieldBar (s : State) (lpn i : Nat) : Bool :=
  let p := s.proc lpn
  tb 0 p.fieldcfg && barLpn p.fieldbar == lpn && barIdx p.fieldbar == i

/-- A core of a field begins a step: it reads the table's entries anew and has no counts of its neighbours (R420, R429). -/
def State.stepBegins (s : State) (lpn core : Nat) : State :=
  let cfg := (s.proc lpn).fieldcfg
  s.modProc (s.core core).host fun p => if p.fieldcfg == cfg then { p with ftabs := [], nbrs := [] } else p

/-- The owner sends a step to every core of the rectangle (R429, phase 1). -/
def State.startStep (s : State) (lpn : Nat) : State :=
  match (s.proc lpn).fsteps with
  | f :: _ => (forEach f.left s fun s c => s.stepBegins lpn c).postAll (f.left.map fun c => .fieldStepNotice c lpn f.gen)
  | [] => s

/-- Complete(rec) (R242). At the barrier of a field the waiters are released only at the end of the step (R429). -/
def State.completeBar (s : State) (lpn i : Nat) : State :=
  let b := (s.proc lpn).bar i
  let ws := (s.proc lpn).waits.filter (Waiter.ofBar i)
  if s.fieldBar lpn i then
    let s := ws.foldl (fun s x => s.leaveWaits lpn x.id) s
    let f : FieldStep := { gen := b.gen, bar := i, left := fieldCores (s.proc lpn).fieldcfg, parts := [], held := ws, todo := [] }
    let idle := (s.proc lpn).fsteps.isEmpty
    let s := (s.modProc lpn fun p => { p with fsteps := p.fsteps ++ [f] }).putBar lpn i { (s.proc lpn).bar i with gen := b.gen + 1 }
    if idle then s.startStep lpn else s
  else
    let s := ws.foldl (fun s x => s.releaseBar lpn b.gen x) s
    s.putBar lpn i { (s.proc lpn).bar i with gen := b.gen + 1 }

/-- A waiter joins those that the newest step releases. -/
def State.joinStep (s : State) (lpn : Nat) (x : Waiter) : State :=
  s.modProc lpn fun p =>
    { p with fsteps := match p.fsteps.reverse with
        | f :: l => (({ f with held := f.held ++ [x] } : FieldStep) :: l).reverse
        | [] => [] }

/-- Is an identity among the waiters that a step releases? -/
def Proc.inStep (p : Proc) (id : Nat) : Bool := p.fsteps.any fun f => f.held.any fun x => x.id == id

/-- Completes the generations that the counted arrivals fill (R242, R243). -/
def State.completeAll (s : State) (lpn i : Nat) : Nat → State
  | 0 => s
  | n + 1 =>
    let b := (s.proc lpn).bar i
    if b.count != 0 && b.count.toNat ≤ b.arr.toNat then
      ((s.putBar lpn i { b with arr := b.arr - b.count }).completeBar lpn i).completeAll lpn i n
    else s

/-- A waiter of a record takes BARTO (R242, R244). -/
def State.bartoWaiter (s : State) (lpn : Nat) (x : Waiter) : State :=
  let s := s.leaveWaits lpn x.id
  if x.remote then s.answer (s.hostOf lpn) x.id x.who (.trap cBARTO)
  else match (s.slot x.who).wait with
    | some y =>
      if (s.slot x.who).awaits x.id then s.raiseFor x.who (mkDue cBARTO 0 0 y.addr (s.slot x.who).arch.pc) else s
    | none => s

/-- What an arrival comes to (R240, R243). -/
inductive Arrival where
  /-- COUNT is 0. -/
  | barto
  /-- The list is full: nothing is counted. -/
  | full
  /-- Counted; the generation of the last unit. -/
  | done (gen : BitVec 16)
  /-- Counted; the thread waits in the record's queue. -/
  | wait
  /-- Counted, and its last unit completed a generation of a field's barrier: the thread goes on at the end of the step
  (R429, R431; log 33). -/
  | last
  deriving DecidableEq, Repr

/-- The generation of an arrival's last unit, and whether that unit completes it (R243). -/
def Bar.arrive (b : Bar) (w : Nat) : BitVec 16 × Bool :=
  let t := b.arr.toNat + w
  (b.gen + BitVec.ofNat 16 ((t - 1) / b.count.toNat), t % b.count.toNat = 0)

/-- Has an arrival that will wait an entry: the waiters that it releases leave first (R240). -/
def State.barRoom (s : State) (lpn i w : Nat) : Bool :=
  let b := (s.proc lpn).bar i
  let l := (s.proc lpn).waits
  ((if b.count.toNat ≤ b.arr.toNat + w then l.filter fun x => !x.ofBar i else l).length) < 64

/-- The step of an arrival at the owner (R243). `waits` says that the arrival waits when it is not done. -/
def State.barArrive (s : State) (lpn i w : Nat) (waits : Bool) : State × Arrival :=
  let b := (s.proc lpn).bar i
  if b.count = 0 then (s, .barto)
  else
    let (gen, done) := b.arrive w
    if waits && !done && !s.barRoom lpn i w then (s, .full)
    else
      let t := b.arr.toNat + w
      let n := t / b.count.toNat
      let s := s.putBar lpn i { b with arr := BitVec.ofNat 16 (t % b.count.toNat) }
      let s := (List.range n).foldl (fun s _ => s.completeBar lpn i) s
      (s, if waits && !done then .wait else if waits && s.fieldBar lpn i then .last else .done gen)

/-- The step of BARCFG at the owner, with the old record (R242). -/
def State.barConfig (s : State) (lpn i : Nat) (c : BitVec 16) : State × W64 :=
  let b := (s.proc lpn).bar i
  let old := w64 (b.count.toNat + b.arr.toNat * 2 ^ 16 + b.gen.toNat * 2 ^ 32)
  if c = 0 then
    let s := ((s.proc lpn).waits.filter (Waiter.ofBar i)).foldl (fun s x => s.bartoWaiter lpn x) s
    (s.putBar lpn i { b with count := 0, arr := 0 }, old)
  else
    ((s.putBar lpn i { b with count := c }).completeAll lpn i 65536, old)

/-- The event that ends a wait at BARLIM. -/
def barlimEv (w : Who) (id : Nat) : Option Ev := some (.barlimExpiry w.lpn w.slot id)

/-- BARLIM of the current thread (R229). -/
def State.barlim (s : State) : Nat := fld 31 0 s.me.regs.barlim

/-- A barrier operation looks the owner of its record up first (R239). -/
def State.onBar (s : State) (name : W64) (f : State → State) : State :=
  match s.placeLookup (s.hostOf s.cur.lpn) (barLpn name) with
  | .none => s.raise cSEGV 0 4 name
  | .ask => s.askPlace (barLpn name)
  | .host _ => f s

/-- The current thread as a waiter of a record of its own process. -/
def State.barWaiter (s : State) (id i : Nat) : Waiter :=
  { id := id, who := s.cur, op := none, key := i, val := 0, remote := false, priv := s.me.priv }

/-- BARW or BARA at the own core (R243, R244). -/
def State.barHere (s : State) (name : W64) (w : Nat) (waits : Bool) (d : Reg) : State :=
  let lpn := s.cur.lpn
  let i := barIdx name
  let waits' := waits && s.barlim != 0
  let fin := (((s.proc lpn).bar i).arrive w).2
  match s.barArrive lpn i w waits' with
  | (s, .barto) => s.raise cBARTO 0 0 name
  | (s, .full) => s.listFull .barrier s.barlim name (barlimEv s.cur)
  | (s, .done gen) =>
    if waits && !waits' && !fin then s.raise cBARTO 0 0 name
    else s.wr d (gen.zeroExtend 64)
  | (s, .wait) =>
    let s := s.hold .barrier s.barlim name d (barlimEv s.cur)
    match s.me.wait with
    | some x => s.joinWaits lpn (s.barWaiter x.id i)
    | none => s
  | (s, .last) =>
    let s := s.hold .barrier s.barlim name d (barlimEv s.cur)
    match s.me.wait with
    | some x => s.joinStep lpn (s.barWaiter x.id i)
    | none => s

/-- The weight of an arrival (R243). -/
def barWeight (v : W64) : Nat := max 1 (fld 15 0 v)

/-- Arrive(op) (R243). -/
def State.barOp (s : State) (waits : Bool) (r : AR) : Out :=
  .next (s.when r.g fun s =>
    let name := s.rd r.a
    let w := barWeight (s.rdB r.b r.x)
    s.onBar name fun s =>
      if !s.me.atomics.isEmpty then s.waitAgain .fence 0 0 fun _ => none
      else if barLpn name = s.cur.lpn then s.barHere name w waits r.d
      else if waits then
        s.holdRequest s.barlim name r.d (barlimEv s.cur) (barLpn name) (.bar .wait (barIdx name) (w64 w))
      else s.holdRequest 0 name r.d (fun _ => none) (barLpn name) (.bar .arrive (barIdx name) (w64 w)))

/-- BARW (R243). -/
def execBarw (r : AR) (s : State) : Out := s.barOp true r

/-- BARA (R243). -/
def execBara (r : AR) (s : State) : Out := s.barOp false r

/-- BARCFG (R242). -/
def execBarcfg (r : AR) (s : State) : Out :=
  .next (s.when r.g fun s =>
    let name := s.rd r.a
    let c := s.rdB r.b r.x
    s.onBar name fun s =>
      if barLpn name = s.cur.lpn then
        let (s, old) := s.barConfig s.cur.lpn (barIdx name) (BitVec.ofNat 16 c.toNat)
        s.wr r.d old
      else s.holdRequest 0 name r.d (fun _ => none) (barLpn name) (.bar .cfg (barIdx name) (w64 (fld 15 0 c))))

end Sys2Proof.Machine
end

