-- ==== Sys2Proof/Machine/Order.lean ====
section
/-!
DEFINITION. Stash control and prefetch (10 R233 to R237), the fences, CHUNK and IFLUSH (06 R155, R156, 03 R80).
-/

namespace Sys2Proof.Machine

/-! ## SPIN, SFLUSH, SINV, PREF -/

/-- SPINRES of the current slot (R235). -/
def State.setSpin (s : State) (v : Nat) : State :=
  s.modMe fun t => { t with regs := { t.regs with spinres := w64 v } }

/-- Pinned lines of a stash set. -/
def Core.pinnedIn (c : Core) (set : Nat) : Nat := (c.stash.filter fun e => e.1 / 8 == set && e.2.pin).length

/-- Pins the installed line of an address, if four ways of its set stay unpinned (R75, R234). -/
def State.pinLine (s : State) (vmid gpa : Nat) : State :=
  let core := s.myProc.core
  match s.stashLine core vmid (gpa / 256) with
  | none => s.setSpin 2
  | some (key, l) =>
    if l.mt != 0 || l.sec (secOf gpa) = SecSt.absent then s.setSpin 2
    else if l.pin then s.setSpin 0
    else if 4 ≤ (s.core core).pinnedIn (key / 8) then s.setSpin 1
    else (s.stashMod core key fun l => { l with pin := true }).setSpin 0

/-- SPIN of a page whose first stage gives type 1 or 2: the second stage is checked, and nothing is installed (R42, R48, R234). -/
def State.spinTyped (s : State) (la gpa mt : Nat) : State :=
  let v := s.myProc.vmid
  if (s.blockOf v gpa).isSome then { s with bst := .stop }
  else
    let s := s.s2Load v gpa
    match s2Check v gpa mt false (s.s2Find v gpa) with
    | .error x => s.parkMe 0 x la
    | .ok (l2, _) => if l2.b then { s with bst := .stop } else s.setSpin 2

/-- SPIN of a paged address: the type in force decides whether the sector is installed and pinned (R234). -/
def State.spinPaged (s : State) (la : Nat) : State :=
  let p := s.myProc
  let other (g : Grant) : Bool := g.la == la / 128 * 128 && g.mt != 0
  if tb 0 p.xroot && s.me.grants.any other then (s.modMe fun t => { t with grants := dropFirst other t.grants }).setSpin 2
  else match s.pagedSeek la 0 with
    | (s, .ready vmid gpa _) => s.pinLine vmid gpa
    | (s, .device l) => s.spinTyped la l.gpa 2
    | (s, .ask r) => if r.mt = 1 then s.spinTyped la r.gpa 1 else s.askFor r
    | (s, .walk) => s.waitWalk la 0
    | (s, .stop) => s
    | (s, .nowhere) => s.setSpin 2

/-- SPIN (R234). -/
def execSpin (r : AQ) (s : State) : Out :=
  .next (s.when r.g fun s =>
    s.onSeek r.seg (s.seek r.seg (s.offAQ r) 1 rR false)
      (fun la s => if stashSets s.myProc = 0 then s.setSpin 2 else s.spinPaged la)
      (fun _ s => s.setSpin 2))

/-- An owner's or exclusive line writes its dirty sectors back and becomes shared (R73, R236). -/
def State.flushLine (s : State) (core key : Nat) (l : StashLine) : State :=
  if l.st = LineSt.s then s
  else ((s.stashBack core key).stashMod core key fun l => { l with st := .s }).l2Mod l.vmid l.gtag fun m => { m with dir := .s [core] }

/-- SFLUSH (R236). -/
def execSflush (r : AQ) (s : State) : Out :=
  .next (s.when r.g fun s =>
    s.onSeek r.seg (s.seek r.seg (s.offAQ r) 1 rR false)
      (fun la s =>
        let core := s.myProc.core
        match s.stashHit core la with
        | some (key, l) => s.flushLine core key l
        | none => s)
      (fun _ s => s))

/-- SINV (R236). -/
def execSinv (r : AQ) (s : State) : Out :=
  .next (s.when r.g fun s =>
    s.onSeek r.seg (s.seek r.seg (s.offAQ r) 1 rR false)
      (fun la s =>
        let core := s.myProc.core
        match s.stashHit core la with
        | some (key, l) => (s.stashDrop core key).squashHere s.cur.lpn (.paged l.vmid l.gtag)
        -- a way that a pin keeps for the line is given up
        | none => s.modMyCore fun c => { c with stash := c.stash.filter fun e => e.2.st != LineSt.i || e.2.ltag != la / 256 })
      (fun _ s => s))

/-- PREF (R237). -/
def execPref (r : AQ) (s : State) : Out :=
  .next (s.when r.g fun s =>
    match s.seek r.seg (s.offAQ r) 1 rR false with
    | .paged la =>
      let p := s.myProc
      let w : Who := { lpn := s.cur.lpn, slot := noSlot }
      if stashSets p = 0 then s
      else
        match s.stashHit p.core la with
        | some (_, l) =>
          let gpa := l.gtag * 256 + la % 256
          if l.sec (secOf gpa) != SecSt.absent then s
          else s.prefFill w la { gpa := gpa, size := 4096, w := l.w1, u := l.u1, mt := l.mt, level := 7, ent := 0 }
        | none =>
          if (s.rowHit p la).isSome then s.prefGo w s.me.priv la
          else if !(tb 0 p.xroot) then s
          else if s.walkFull p.core then { s with bst := .stop }
          else s.askWalk w la (4 + s.me.priv) none
    | _ => s)

/-! ## Fences (R156) -/

/-- FENCE.H (R156). -/
def execFenceH (r : AQ) (s : State) : Out :=
  .next (s.when r.g fun s =>
    if s.me.atomics.isEmpty then s else s.waitAgain .fence 0 0 fun _ => none)

/-- Is an engine operation of slot 15 that was started before an identity still without its placed completion entry?
Inbound streams are not waited for, outbound ones for what chunks committed before the fence pushed (R156, R313, R364). -/
def State.enginesOut (s : State) (lpn id : Nat) (pushed : List (Nat × Nat)) : Bool :=
  let p := s.proc lpn
  let c := s.core p.core
  c.copies.any (fun x => x.id < id) ||
  c.streams.any (fun e => e.2.out && e.2.fault.isNone && pushed.any fun t => t.1 == e.2.op.id && e.2.done < t.2) ||
  p.inWait.any (fun e => e.who.slot == 15 && e.id < id) ||
  p.mx.queue.any (fun x => x.msto && x.who.slot == 15 && x.id < id)

/-- What is committed of the pushes to the outbound streams of a core: each stream's operation and the element after them (R313). -/
def State.pushedSoFar (s : State) (core : Nat) : List (Nat × Nat) :=
  ((s.core core).streams.filter fun e => e.2.bound && e.2.out).map fun e => (e.2.op.id, e.2.done + e.2.buf.length)

/-- FENCE.E: what was started, and pushed, before the fence's first issue is waited for, up to WAITLIM (R156, R313). -/
def execFenceE (r : AQ) (s : State) : Out :=
  .next (s.when r.g fun s =>
    let (first, pushed) := match s.me.wait with
      | some x => if x.kind = .copies then (x.id, s.me.fence) else (s.nextId, s.pushedSoFar s.myProc.core)
      | none => (s.nextId, s.pushedSoFar s.myProc.core)
    if !s.enginesOut s.cur.lpn first pushed then s
    else if s.waitOver .copies then s.raise cWAITTO 0 0 0x20
    else (s.modMe fun t => { t with fence := pushed }).waitAgain .copies s.waitlim 0x20 (waitlimEv s.cur))

/-- FENCE.P (R156). -/
def execFenceP (r : AQ) (s : State) : Out :=
  .next (s.when r.g fun s =>
    if s.me.atomics.isEmpty && s.me.sends.isEmpty && s.me.pushq.isEmpty then s else s.waitAgain .fence 0 0 fun _ => none)

/-- CHUNK ends the running chunk, which its class as a boundary operation does (R135, R155). -/
def execChunk (_r : AQ) (s : State) : Out := .next s

/-- IFLUSH (R80). -/
def execIflush (r : AQ) (s : State) : Out := .next (s.when r.g fun s => s.modMe fun t => { t with fetch := [] })

end Sys2Proof.Machine
end

