-- ==== Sys2Proof/Machine/Transfer.lean ====
section
/-!
DEFINITION. The transfers of slot 15 (13 R298 to R319): mailboxes, transfer descriptors, bulk copies, streams, the
engine's element accesses (06 R150), and the placing of inbox entries (11 R257).
-/

namespace Sys2Proof.Machine

/-! ## Placing an inbox entry (R257, R271) -/

/-- INBOX_ENTRY_PLACE: the oldest waiting entry takes a place if one is free. Its operation is complete: FENCE.E, a
waiting BCOPY and the launch learn of it (R151, R156, R171). -/
def execInboxEntryPlace (lpn : Nat) (s : State) : Out :=
  let p := s.proc lpn
  .next (match p.inWait with
    | [] => s
    | e :: rest =>
      if 256 ≤ p.inCount then s
      else
        let s := s.hwDwords lpn (inboxOff p.inHead p.inCount) [e.w0, e.w1]
        let s := s.modProc lpn fun p => { p with inCount := p.inCount + 1, inWait := rest }
        let s := s.modCore p.core fun c => { c with copies := c.copies.filter fun x => x.id != e.id }
        let s := if tb 16 p.inboxie then s.pend lpn (fld 20 17 p.inboxie) 8 else s
        let s := s.launchAdd e.lid p.job p.vmid 0 (-1)
        let s := s.wakeAll lpn fun k => k = .inbox || k = .copies || k = .slice
        if rest.isEmpty then s else s.post (.inboxEntryPlace lpn))

/-! ## Mailboxes (R300) -/

/-- A mailbox of a process. -/
def Proc.mb (p : Proc) (n : Nat) : Mbox := spGet Mbox.init p.mbox n

/-- Writes a mailbox. -/
def State.putMb (s : State) (lpn n : Nat) (b : Mbox) : State := s.modProc lpn fun p => { p with mbox := spPut p.mbox n b }

/-- MAILBOX_SERVICE: the head waiter of a mailbox is served if it may proceed, in one step (R300). -/
def execMailboxService (lpn : Nat) (n : BitVec 2) (s : State) : Out :=
  let b := (s.proc lpn).mb n.toNat
  .next (match b.queue with
    | [] => s
    | x :: rest =>
      match x.write with
      | some v =>
        if b.full then s
        else
          let s := s.putMb lpn n.toNat { val := v, full := true, queue := rest }
          (if (s.slot x.who).awaits x.id then s.complete x.who id else s).post (.mailboxService lpn n)
      | none =>
        if !b.full then s
        else
          let s := s.putMb lpn n.toNat { val := b.val, full := false, queue := rest }
          let s := if (s.slot x.who).awaits x.id then
              s.complete x.who fun t => match t.latch with
                | some l => t.wrField l.d b.val
                | none => t
            else s
          s.post (.mailboxService lpn n))

/-- A mailbox operation that must wait takes its place in the queue, up to WAITLIM (R300). -/
def State.waitMb (s : State) (n : Nat) (d : Reg) (write : Option W64) : State :=
  if s.waitlim = 0 then s.raise cWAITTO 0 0 (w64 n)
  else
    let s := s.hold (.mailbox n) s.waitlim (w64 n) d (waitlimEv s.cur)
    match s.me.wait with
    | some x =>
      let b := s.myProc.mb n
      s.putMb s.cur.lpn n { b with queue := b.queue ++ [{ id := x.id, who := s.cur, write := write }] }
    | none => s

/-- MBW (R300). -/
def execMbw (r : AR) (s : State) : Out :=
  let n := r.b.toNat
  .next (s.when r.g fun s =>
    let b := s.myProc.mb n
    if b.full then s.waitMb n 0 (some (s.rd r.a))
    else (s.putMb s.cur.lpn n { b with val := s.rd r.a, full := true }).post (.mailboxService s.cur.lpn (BitVec.ofNat 2 n)))

/-- MBR (R300). -/
def execMbr (r : AR) (s : State) : Out :=
  let n := r.b.toNat
  .next (s.when r.g fun s =>
    let b := s.myProc.mb n
    if !b.full then s.waitMb n r.d none
    else ((s.putMb s.cur.lpn n { b with full := false }).wr r.d b.val).post (.mailboxService s.cur.lpn (BitVec.ofNat 2 n)))

/-! ## Descriptors (R304, R305) -/

/-- OP of a descriptor. -/
def descOp (d : Desc) : Nat := fld 1 0 d[0]
/-- ND of a descriptor. -/
def descNd (d : Desc) : Nat := fld 5 4 d[0]
/-- STR of a descriptor. -/
def descStr (d : Desc) : Nat := fld 13 12 d[0]
/-- SLOT of a descriptor. -/
def descSlot (d : Desc) : Nat := fld 17 14 d[0]

/-- Count of a dimension. -/
def descN (d : Desc) (j : Nat) : Nat := d[3].toNat / 2 ^ (16 * j) % 65536

/-- The stride fields of a side, from dimension 1 on. -/
def descStrides (d : Desc) (dst : Bool) : List Nat :=
  if dst then [fld 63 32 d[5], fld 31 0 d[6], fld 63 32 d[6]] else [fld 31 0 d[4], fld 63 32 d[4], fld 31 0 d[5]]

/-- The offset of a side. -/
def descOff (d : Desc) (dst : Bool) : W64 := if dst then d[2] else d[1]

/-- The segment of a side. -/
def descSeg (d : Desc) (dst : Bool) : Nat := if dst then fld 11 9 d[0] else fld 8 6 d[0]

/-- Are the fields of a side all zero? -/
def descUnused (d : Desc) (dst : Bool) : Bool :=
  descSeg d dst == 0 && descOff d dst == 0 && (descStrides d dst).all fun x => x == 0

/-- Is a descriptor malformed for BCOPY, or for STRM (R304)? -/
def descBad (d : Desc) (strm : Bool) : Bool :=
  let op := descOp d
  let above (j : Nat) : Bool :=
    j ≤ descNd d || (descN d j == 0 && (descStrides d false).getD (j - 1) 0 == 0 && (descStrides d true).getD (j - 1) 0 == 0)
  op == 3 || (op == 0) == strm || fld 63 19 d[0] != 0 || !([1, 2, 3].all above) ||
    (match op with
      | 0 => fld 18 12 d[0] != 0
      | 1 => !(descUnused d true)
      | _ => !(descUnused d false) || tb 18 d[0])

/-- Offset of element k on a side (R305). -/
def elemOff (d : Desc) (dst : Bool) (k : Nat) : W64 :=
  let st := descStrides d dst
  let n (j : Nat) : Nat := max 1 (descN d j)
  let i0 := k % n 0
  let i1 := k / n 0 % n 1
  let i2 := k / (n 0 * n 1) % n 2
  let i3 := k / (n 0 * n 1 * n 2)
  descOff d dst + BitVec.ofInt 64 ((i0 * descSize d : Nat) + i1 * sint 32 (st.getD 0 0) + i2 * sint 32 (st.getD 1 0) +
    i3 * sint 32 (st.getD 2 0))

/-! ## Element accesses of an engine (R150, R306) -/

/-- What an element access comes to. -/
inductive EngRes where
  | value (v : W64)
  | wrote
  /-- STATUS and REASON of the completion entry, and the linear address. -/
  | stop (status reason : Nat) (la : W64)
  | park (f : XFault) (la : Nat)
  /-- A request to another process has left under the operation's identity. -/
  | sent
  /-- To be tried again at once, or after a cycle. -/
  | again
  | later
  deriving DecidableEq, Repr

/-- A segment register as an operation carries it (R24). -/
def Copy.seg (c : Copy) (n : Nat) : BitVec 128 := if n = 0 then sg0 c.who.lpn else c.sg.toList.getD n 0

/-- The core tag that an operation's requests carry (R31). -/
def Copy.ctag (c : Copy) : BitVec 24 := if c.priv = 2 then 0 else BitVec.ofNat 24 (c.job % 65536 + c.vmid % 256 * 65536)

/-- A unit's access of VMID 0 to a range that no second-stage leaf may name is counted in FAULTLOG of its core (R112). -/
def State.noRangeAt (s : State) (core : Nat) : State :=
  s.modCore core fun c => { c with faultlog := setFld 39 32 (min 255 (fld 39 32 c.faultlog + 1)) c.faultlog }

/-- The charges of an access that a unit makes at a home slice at once, with the fill of a sector that the slice then holds (R106). -/
def State.chargeNow (s : State) (w : Who) (vmid gpa : Nat) (fill : Bool) : State :=
  let s := s.modProc w.lpn fun p => { p with chghit := p.chghit + 1 }
  if !fill || s.l2Sec vmid gpa != SecSt.absent then s.entryRead vmid w gpa
  else (s.modProc w.lpn fun p => { p with chgfill := p.chgfill + 1 }).entryRead vmid w gpa

/-- A unit's access to the paged region that is made at once, by the field unit to its table and by a matrix store to a row that has been
checked: translated, and one step of the line's domain (R38, R39, R42, R150, R361, R420). -/
def State.enginePaged (s : State) (lpn priv : Nat) (wr : Bool) (la size : Nat) (v : W64) : State × EngRes :=
  let p := s.proc lpn
  let w : Who := { lpn := lpn, slot := 0 }
  match s.xlate p priv wr la with
  | .off => (s, .stop 3 3 (w64 la))
  | .wait => (s, .later)
  | .fault f => (s, .park f la)
  | .ok l1 l2 mt =>
    let line := l1.gpa / 256
    let s := (s.leafNow p w la).1
    if mt = 2 then (s, .stop 5 0 (w64 la))
    else if p.vmid = 0 && !(rangeOf l2.hpa).named && priv != 2 then (s.noRangeAt p.core, if wr then .wrote else .value 0)
    else if l2.b || (s.blockOf p.vmid l1.gpa).isSome || (s.repairs.any fun x => x.vmid == p.vmid && x.gpa / 128 == l1.gpa / 128) then
      (s, .later)
    else if s.secBad p.vmid l1.gpa l2.hpa then (s, .stop 4 0 (w64 la))
    else if wr then
      if s.lineHeld (.paged p.vmid line) none then (s, .later)
      else ((s.chargeNow w p.vmid l1.gpa (!s.nonAlloc p.vmid mt)).homeWrite p.vmid l1.gpa l2.hpa size v.toNat none, .wrote)
    else
      let s := (s.recallNow p.vmid line p.core).chargeNow w p.vmid l1.gpa true
      (s, .value (w64 (s.pgRead p.vmid l1.gpa l2.hpa size)))

/-- An engine's element in the paged region: the first stage is translated at the core, with its rights, and the element's request goes
to the home slice under the operation's identity (R38, R39, R42, R49, R150). -/
def State.engineAsk (s : State) (c : Copy) (wr : Bool) (la size : Nat) (v : W64) : State × EngRes :=
  let p := s.proc c.who.lpn
  let (s, x) := s.leafNow p c.who la
  match x with
  | .off => (s, .stop 3 3 (w64 la))
  | .wait => (s, .later)
  | .bad f => (s, .park f la)
  | .ok l =>
    if !rights1 c.priv wr l.w l.u then (s, .park { kind := 1, level := l.level, sub := 0, gpa := l.ent } la)
    else if p.vmid = 0 && !(rangeOf l.gpa).named && c.priv != 2 then (s.noRangeAt p.core, if wr then .wrote else .value 0)
    else
      let i : Item := .pg (s.pgReqOf c.who (.eng wr size v) la l)
      ((s.putItem c.id i).depart p.core c.id i, .sent)

/-- An engine's element access to the own local memory (R63, R66, R150, R480). -/
def State.engineLocal (s : State) (lpn priv : Nat) (wr : Bool) (la size : Nat) (v : W64) : State × EngRes :=
  let off := offOf la
  if (!wr || size != 8) && s.locBad lpn priv off size then (s, .stop 4 0 (w64 la))
  else if wr then
    if s.lineHeld (locLine lpn off) none then (s, .later)
    else ((s.squashReaders (locLine lpn off) none).locWrite lpn priv off size v.toNat, .wrote)
  else (s, .value (w64 (s.locRead lpn priv off size)))

/-- EngineAccess (R306): the access of element k on one side, under the operation's identity. -/
def State.engAccess (s : State) (c : Copy) (dst : Bool) (k : Nat) (v : W64) : State × EngRes :=
  let lpn := c.who.lpn
  let core := s.hostOf lpn
  let size := descSize c.desc
  let n := descSeg c.desc dst
  match s.segCheck core (c.seg n) n (elemOff c.desc dst k).toNat size (if dst then rW else rR) false size with
  | .bad code _ reason la => (s, .stop (if code = cALIGN then 2 else 1) reason la)
  | .ask l => (s.post (.placementLookup core l), .again)
  | .paged la => s.engineAsk c dst la size v
  | .window la =>
    if lpnOf la = lpn then s.engineLocal lpn c.priv dst la size v
    else
      let op : WinOp := if dst then .engWrite (offOf la) size v else .engRead (offOf la) size
      let i : Item := .win c.who c.ctag (lpnOf la) op
      ((s.putItem c.id i).depart core c.id i, .sent)

/-! ## Bulk copies (R306 to R308) -/

/-- The copy operation with an identity, on the core of its process. -/
def State.copyOf (s : State) (id : Nat) : Option Copy :=
  s.cores.findSome? fun c => c.2.copies.find? fun x => x.id == id

/-- Changes a copy operation. -/
def State.modCopy (s : State) (id : Nat) (f : Copy → Copy) : State :=
  { s with cores := spMap s.cores fun _ c => { c with copies := mapIf (fun x => x.id == id) f c.copies } }

/-- Stops an operation at its element (R308). -/
def State.stopCopy (s : State) (id status side reason : Nat) : State :=
  (s.modCopy id fun c => { c with stop := some (status, side, reason), got := none, park := none }).post (.engineCompletion id)

/-- Stops an operation at its next element: at once, or when the element that is on its way has been performed (R151, R308). -/
def State.askStop (s : State) (id status : Nat) : State :=
  if s.opSent id then s.modCopy id fun c => { c with asked := some (c.asked.getD status) } else s.stopCopy id status 0 0

/-- Do an operation's elements stop here: a checkpoint's stop phase or an alarm (R129, R335)? -/
def State.engineHalted (s : State) (lpn : Nat) : Bool := s.ckPhase != .idle || (s.core (s.hostOf lpn)).frzAlarm

/-- What follows an element access of a copy. -/
def State.copyNext (s : State) (c : Copy) (dst : Bool) : EngRes → State
  | .value v => (s.modCopy c.id fun c => { c with got := some v }).post (.engineElementWrite c.id)
  | .wrote => (s.modCopy c.id fun c => { c with got := none, next := c.next + 1 }).post (.engineElementRead c.id)
  | .stop status reason _ => s.stopCopy c.id status (if dst then 1 else 0) (if status = 1 || status = 3 then reason else 0)
  | .park f la =>
    let seq := s.imago.seq
    (s.openFaultAs c.who (some c.id) 15 3 (if c.priv = 0 then 1 else 0) f la).modCopy c.id fun c => { c with park := some seq }
  | .sent => s
  | .again => s.post (if dst then .engineElementWrite c.id else .engineElementRead c.id)
  | .later => s.after (.proc c.who.lpn) 1 (if dst then .engineElementWrite c.id else .engineElementRead c.id)

/-- Starts the read of a copy's next element (R150, R306, R308). -/
def State.elementRead (s : State) (id : Nat) : State :=
  match s.copyOf id with
  | some c =>
    if c.stop.isSome || c.park.isSome || c.got.isSome then s
    else if descCount c.desc ≤ c.next then s.stopCopy id 0 0 0
    else if c.asked.isSome || s.engineHalted c.who.lpn then s.stopCopy id (c.asked.getD 8) 0 0
    else
      let (s, r) := s.engAccess c false c.next 0
      s.copyNext c false r
  | none => s

/-- Is an item an element's request at its home slice? -/
def State.atHome (s : State) (id : Nat) : Bool :=
  match s.item id with
  | some (.pg _) => true
  | _ => false

/-- ENGINE_ELEMENT_READ: the next element of a copy is read at one step of its domain; its request, or the host's, is served at the
home slice (R150, R306, R461). -/
def execEngineElementRead (id : Nat) (s : State) : Out :=
  .next (if s.atHome id then s.engServe id else s.elementRead id)

/-- ENGINE_COMPLETION: the completion entry of a copy goes to the inbox; PROG is the first element not performed (R308,
R309). -/
def execEngineCompletion (id : Nat) (s : State) : Out :=
  .next (match s.copyOf id with
    | some c =>
      match c.stop with
      | some (status, side, reason) =>
        if (s.proc c.who.lpn).inWait.any fun e => e.id == id then s
        else s.completeOp c 0 status 0 side reason (if status = 0 then max (descStart c.desc) (descCount c.desc) else c.next)
      | none => s
    | none => s)

/-- The bytes of a transfer descriptor in the own local memory (R63, R304). -/
def State.descRead (s : State) (off : Nat) : Desc :=
  Vector.ofFn fun i : Fin 8 => w64 (s.locRead s.cur.lpn s.me.priv (off + 8 * i.val) 8)

/-- The tag of a transfer (R306). -/
def State.tagArg (s : State) (r : AR) : BitVec 16 := BitVec.ofNat 16 (s.rdB r.b r.x).toNat

/-- An operation of the running thread (R24, R306). -/
def State.newCopy (s : State) (tag : BitVec 16) (d : Desc) : Copy :=
  { id := s.nextId, tag := tag, desc := d, sg := s.me.sg, priv := s.me.priv, vmid := s.myProc.vmid, job := s.myProc.job, who := s.cur,
    lid := s.me.lid, next := descStart d, got := none, stop := none, asked := none, park := none }

/-- What BCOPY and STRM do before they look at the descriptor's contents: slot 15 only, the wait while a swap is accepted, the
descriptor's read, which is made once, and the wait while 8 copies are outstanding (R299, R304, R306, R311, R448). -/
def State.onDesc (s : State) (r : AR) (f : Desc → State → State) : State :=
  let ready (d : Desc) (s : State) : State :=
    if s.myCore.copies.length < 8 then f d s
    else if s.waitOver .copies || s.waitlim = 0 then s.raise cWAITTO 0 0 (s.rd r.a)
    else (s.modMe fun t => { t with sdesc := some d }).waitAgain .copies s.waitlim (s.rd r.a) (waitlimEv s.cur)
  if s.cur.slot != 15 then s.illop
  else if s.swapping then s.waitAgain .swap 0 0 fun _ => none
  else match s.me.sdesc with
    | some d => ready d s
    | none =>
      s.onSeek 0 (s.seek 0 (s.rd r.a) 64 rR false) (fun _ s => s) fun la s =>
        if s.locBad s.cur.lpn s.me.priv (offOf la) 64 then s.raise cPOISON 0 0 (w64 la) else ready (s.descRead (offOf la)) s

/-- Counts an engine operation of the running thread's launch (R171). -/
def State.engineStarts (s : State) : State := s.launchAdd s.me.lid s.myProc.job s.myProc.vmid 0 1

/-- BCOPY (R306). -/
def execBcopy (r : AR) (s : State) : Out :=
  .next (s.when r.g fun s =>
    s.onDesc r fun d s =>
      let c := s.newCopy (s.tagArg r) d
      let s := s.fresh.engineStarts.modMyCore fun x => { x with copies := x.copies ++ [c] }
      if descBad d false then s.stopCopy c.id 9 0 0 else s.post (.engineElementRead c.id))

/-! ## Streams (R311 to R317) -/

/-- STRM (R311). -/
def execStrm (r : AR) (s : State) : Out :=
  .next (s.when r.g fun s =>
    s.onDesc r fun d s =>
      let c := s.newCopy (s.tagArg r) d
      let core := s.myProc.core
      let kind := if descOp d = 2 then 2 else 1
      let n := descStr d
      let s := s.fresh.engineStarts
      if descBad d true then s.completeOp c kind 9 n 0 0 (descStart d)
      else if (s.stream core n).isSome then s.completeOp c kind 12 n 0 0 (descStart d)
      else if descCount d ≤ descStart d then s.completeOp c kind 0 n 0 0 (max (descStart d) (descCount d))
      else
        let here := ((s.myProc.slot (descSlot d)).st != .absent)
        let x : Stream := { bound := true, out := kind == 2, slot := descSlot d, op := c, buf := [], done := descStart d,
                            fault := none, seen := here, ending := none }
        let s := s.modCore core fun k => { k with streams := spPut k.streams n x }
        if x.out then s else s.post (.streamReadAhead core (BitVec.ofNat 2 n)))

/-- The view accesses of a slot's uncommitted chunks to a register. -/
def Slot.tentPops (t : Slot) (n : Nat) : Nat :=
  let cnt (c : Chunk) : Nat := (c.pops.filter fun x => x == n).length
  (match t.chunk with
    | some c => cnt c
    | none => 0) +
  (match t.commit with
    | some c => cnt c.chunk
    | none => 0)

/-- Pushes of a slot that hold a place in a stream's buffer: those of uncommitted chunks and those that will land. -/
def Slot.tentPushes (t : Slot) (n : Nat) : Nat :=
  let cnt (c : Chunk) : Nat := (c.pushes.filter fun x => x.view == n).length
  (match t.chunk with
    | some c => cnt c
    | none => 0) +
  (match t.commit with
    | some c => cnt c.chunk
    | none => 0) + (t.arch.landing.filter fun l => l.dst = .push n).length

/-- The slot to which a stream is bound. -/
def State.streamSlot (s : State) (core : Nat) (x : Stream) : Who := { lpn := (s.core core).host, slot := x.slot }

/-- Records a fault point (R314); what waits on the stream goes on. -/
def State.faultPoint (s : State) (core n k status reason : Nat) (la : W64) : State :=
  (s.modStream core n fun x => { x with fault := some (k, status, reason, la), buf := if x.out then [] else x.buf,
                                        op := { x.op with park := none } }).wakeAll (s.core core).host fun w =>
    w = .pop n || w = .push n || w = .stream || w = .copies

/-- The stream with an operation's identity: its core and number. -/
def State.streamOf (s : State) (id : Nat) : Option (Nat × Nat × Stream) :=
  s.cores.findSome? fun c => (c.2.streams.find? fun e => e.2.bound && e.2.op.id == id).map fun e => (c.1, e.1, e.2)

/-- Parks an element of a stream (R308, R314). -/
def State.parkStream (s : State) (core n : Nat) (x : Stream) (f : XFault) (la : Nat) : State :=
  let seq := s.imago.seq
  (s.openFaultAs x.op.who (some x.op.id) 15 3 (if x.op.priv = 0 then 1 else 0) f la).modStream core n fun x => { x with op := { x.op with park := some seq } }

/-- An inbound element has arrived (R312, R313). -/
def State.streamGot (s : State) (core n : Nat) (v : W64) : State :=
  ((s.modStream core n fun x => { x with buf := x.buf ++ [v] }).wakeAll (s.core core).host fun w => w = .pop n).post
    (.streamReadAhead core (BitVec.ofNat 2 n))

/-- What follows the read of an inbound stream's element k. -/
def State.streamNext (s : State) (core n k : Nat) (x : Stream) : EngRes → State
  | .value v => s.streamGot core n v
  | .stop status reason la => s.faultPoint core n k status (if status = 1 || status = 3 then reason else 0) la
  | .park f la => s.parkStream core n x f la
  | .again => s.post (.streamReadAhead core (BitVec.ofNat 2 n))
  | .later => s.after (.core core) 1 (.streamReadAhead core (BitVec.ofNat 2 n))
  | _ => s

/-- STREAM_READ_AHEAD: the next element of an inbound stream is read, up to 32 beyond the last popped one (R313). -/
def execStreamReadAhead (core : Nat) (n : BitVec 2) (s : State) : Out :=
  .next (match s.stream core n.toNat with
    | some x =>
      let k := x.done + x.buf.length
      let tent := (s.slot (s.streamSlot core x)).tentPops n.toNat
      if x.out || x.fault.isSome || x.op.park.isSome || s.opSent x.op.id || descCount x.op.desc ≤ k || 32 + tent ≤ x.buf.length then s
      else if s.engineHalted x.op.who.lpn then s.endStream core n.toNat 8 0 0 x.done
      else
        let (s, r) := s.engAccess x.op false k 0
        s.streamNext core n.toNat k x r
    | none => s)

/-- An outbound element has been written (R313). -/
def State.streamPut (s : State) (core n : Nat) : State :=
  match s.stream core n with
  | none => s
  | some x =>
    let s := (s.modStream core n fun x => { x with buf := x.buf.drop 1, done := x.done + 1 }).wakeAll (s.core core).host fun w =>
      w = .push n || w = .stream || w = .copies
    match x.ending with
    | some st => s.endStream core n st 0 0 (x.done + 1)
    | none =>
      let s := if (x.buf.drop 1).isEmpty then s else s.post (.engineElementWrite x.op.id)
      s.streamDone core n

/-- What follows the write of an outbound stream's element. -/
def State.streamWrote (s : State) (core n : Nat) (x : Stream) : EngRes → State
  | .wrote => s.streamPut core n
  | .stop status reason la =>
    match x.ending with
    | some st => s.endStream core n st 0 0 x.done
    | none => s.faultPoint core n x.done status (if status = 1 || status = 3 then reason else 0) la
  | .park f la =>
    match x.ending with
    | some st => s.endStream core n st 0 0 x.done
    | none => s.parkStream core n x f la
  | .again => s.post (.engineElementWrite x.op.id)
  | .later => s.after (.core core) 1 (.engineElementWrite x.op.id)
  | _ => s

/-- Starts the write of an element of a copy or of an outbound stream (R150, R306, R313). -/
def State.elementWrite (s : State) (id : Nat) : State :=
  match s.copyOf id with
  | some c =>
    match c.got with
    | some v =>
      if c.stop.isSome || c.park.isSome then s
      else if c.asked.isSome || s.engineHalted c.who.lpn then s.stopCopy id (c.asked.getD 8) 0 0
      else
        let (s, r) := s.engAccess c true c.next v
        s.copyNext c true r
    | none => s
  | none =>
    match s.streamOf id with
    | some (core, n, x) =>
      match x.buf with
      | v :: _ =>
        if !x.out || x.fault.isSome || x.op.park.isSome || s.opSent id then s
        else if s.engineHalted x.op.who.lpn then s.endStream core n 8 0 0 x.done
        else
          let (s, r) := s.engAccess x.op true x.done v
          s.streamWrote core n x r
      | [] => s
    | none => s

/-- ENGINE_ELEMENT_WRITE: an element of a copy or of an outbound stream is written at one step of its domain; its request, a matrix
store's or the host's, is served at the home slice (R150, R361, R461). -/
def execEngineElementWrite (id : Nat) (s : State) : Out :=
  .next (if s.atHome id then s.engServe id else s.elementWrite id)

/-- What an answer says of an element (R32, R42, R57, R306, R308). -/
def Res.element (la : W64) : Res → EngRes
  | .value v => .value v
  | .done => .wrote
  | .refused => .stop 6 0 la
  | .fault kind level sub gpa => .park { kind := kind, level := level, sub := sub, gpa := gpa } la.toNat
  | .device => .stop 5 0 la
  | .anew => .again
  | _ => .stop 4 0 la

/-- The linear address of an operation's element k on a side. -/
def Copy.elemAt (c : Copy) (dst : Bool) (k : Nat) : W64 := w64 (segBase (c.seg (descSeg c.desc dst))) + elemOff c.desc dst k

/-- The answer of another process, or of a home slice, to an element's request (R32, R306). -/
def State.engineReply (s : State) (id : Nat) (r : Res) : State :=
  match s.copyOf id with
  | some c =>
    let dst := c.got.isSome
    s.copyNext c dst (r.element (c.elemAt dst c.next))
  | none =>
    match s.streamOf id with
    | some (core, n, x) =>
      let k := if x.out then x.done else x.done + x.buf.length
      let e := r.element (x.op.elemAt x.out k)
      if x.out then s.streamWrote core n x e else s.streamNext core n k x e
    | none => s

/-- Does a chunk pop or push a stream register? -/
def Chunk.usesStream (n : Nat) (c : Chunk) : Bool := c.pops.contains n || c.pushes.any fun p => p.view == n

/-- Does an uncommitted chunk of a slot pop or push a stream register? -/
def Slot.usesStream (t : Slot) (n : Nat) : Bool :=
  t.chunk.any (Chunk.usesStream n) || t.commit.any fun c => c.chunk.usesStream n

/-- STRMX: the bound slot's chunks that use the register are squashed; one that is admitted everywhere, or a solo attempt, is waited
for (R142, R143, R315). -/
def execStrmx (r : AR) (s : State) : Out :=
  let n := r.b.toNat
  .next (s.when r.g fun s =>
    let core := s.myProc.core
    if s.cur.slot != 15 then s.illop
    else match s.stream core n with
      | none => s.wr r.d 0
      | some x =>
        let w := s.streamSlot core x
        let s := if w = s.cur then s else s.squashIf w (Chunk.usesStream n)
        if w != s.cur && (s.slot w).usesStream n then { s with bst := .stop }
        else if x.out && !x.buf.isEmpty then s.waitAgain .stream 0 0 fun _ => none
        else (s.endStream core n 10 0 0 x.done).wr r.d (w64 x.done))

/-- Field group of a stream register in STRSTAT (R317). -/
def State.strGroup (s : State) (core n : Nat) : Nat :=
  match s.stream core n with
  | some x =>
    let t := s.slot (s.streamSlot core x)
    let buffered := if x.out then x.buf.length + t.tentPushes n else x.buf.length - t.tentPops n
    (1 + (if x.out then 2 else 0) + x.slot % 16 * 4 + min 63 buffered * 64) * 2 ^ (16 * n)
  | none => 0

/-- STRSTAT (R317). -/
def State.strstat (s : State) (core : Nat) : W64 :=
  w64 (s.strGroup core 0 + s.strGroup core 1 + s.strGroup core 2 + s.strGroup core 3)

/-! ## View accesses to streams (R312, R314) -/

/-- What a view access of the running bundle comes to. -/
inductive View where
  | value (v : W64)
  | ok
  /-- The bundle waits, up to WAITLIM. -/
  | wait (k : WaitKind) (addr : W64)
  /-- WAITTO at once. -/
  | waitto (addr : W64)
  /-- The fault point: the stream's number, its element, status, reason and linear address. -/
  | fault (n k status reason : Nat) (la : W64)
  deriving DecidableEq, Repr

/-- A pop of a stream register after `j` earlier pops of it by the bundle (R312). -/
def State.viewPop (s : State) (w : Who) (n j : Nat) : View :=
  let core := s.hostOf w.lpn
  match s.stream core n with
  | none => .waitto (w64 (0x10 + n))
  | some x =>
    if x.out || x.slot != w.slot then .waitto (w64 (0x10 + n))
    else
      let i := (s.slot w).tentPops n + j
      let k := x.done + i
      let size := descSize x.op.desc
      match x.fault with
      | some (f, st, rs, la) =>
        if f ≤ k then .fault n f st rs la
        else match x.buf[i]? with
          | some v => .value (loadExt (tb 18 x.op.desc[0]) size v.toNat)
          | none => .wait (.pop n) (w64 (0x10 + n))
      | none =>
        if descCount x.op.desc ≤ k then .waitto (w64 (0x10 + n))
        else match x.buf[i]? with
          | some v => .value (loadExt (tb 18 x.op.desc[0]) size v.toNat)
          | none => .wait (.pop n) (w64 (0x10 + n))

/-- A push to a stream register after `j` earlier pushes of it by the bundle (R312). -/
def State.viewPush (s : State) (w : Who) (n j : Nat) : View :=
  let core := s.hostOf w.lpn
  match s.stream core n with
  | none => .waitto (w64 (0x10 + n))
  | some x =>
    if !x.out || x.slot != w.slot || x.ending.isSome then .waitto (w64 (0x10 + n))
    else
      let i := x.buf.length + (s.slot w).tentPushes n + j
      let k := x.done + i
      match x.fault with
      | some (f, st, rs, la) => if f ≤ k then .fault n f st rs la else .ok
      | none =>
        if descCount x.op.desc ≤ k then .waitto (w64 (0x10 + n))
        else if i < 32 then .ok
        else .wait (.push n) (w64 (0x10 + n))

/-- The trap of a fault point: code, segment and reason (R314). -/
def faultTrap (seg status reason : Nat) : Nat × Nat × Nat :=
  match status with
  | 1 => (cSEGV, seg, reason)
  | 2 => (cALIGN, 0, 0)
  | 3 => (cXLATE, 0, reason)
  | 4 => (cPOISON, 0, 0)
  | 5 => (cXLATE, 0, 2)
  | _ => (cSEGV, seg, 5)

/-- The bound slot takes the trap of its stream's fault point once every chunk before the bundle has committed, and the stream
unbinds (R314, R322, R324). -/
def State.viewFault (s : State) (n k status reason : Nat) (la : W64) : State :=
  s.whenSettled fun s =>
    match s.stream s.myProc.core n with
    | none => s
    | some x =>
      let (code, seg, rs) := faultTrap (descSeg x.op.desc x.out) status reason
      let d : Due := { mkDue code seg rs la s.me.arch.pc with prog := w64 k, p := true }
      (s.endStream s.myProc.core n status (if x.out then 1 else 0) reason k).raiseDue d

end Sys2Proof.Machine
end

