-- ==== Sys2Proof/Machine/Task.lean ====
section
/-!
DEFINITION. Tasks (18 R383 to R392): the ready queue and its takes, the Cocoon (18 R395 to R397), SPAWN, TPOST, TNEXT,
RETJ with the continuation buffer, and SLEEP.
-/

namespace Sys2Proof.Machine

/-! ## Task records (R383) -/

/-- Is a record malformed (R383)? -/
def taskBad (r : TaskRec) : Bool :=
  fld 63 59 r[0] != 0 || fld 2 0 r[0] != 0 || tb 22 r[0] || fld 6 3 r[7] != 0

/-- Level of a record. -/
def taskLevel (r : TaskRec) : Nat := fld 21 20 r[0]

/-- LID of a record. -/
def taskLid (r : TaskRec) : Nat := fld 39 24 r[0]

/-- DST of a record. -/
def taskDst (r : TaskRec) : Nat := fld 58 40 r[0]

/-- A record with the fields that the hardware writes (R388, R390). -/
def taskStamp (r : TaskRec) (lid dst : Nat) (h : Bool) : TaskRec :=
  r.set 0 (setFld 58 40 dst (setFld 39 24 lid (setBit 23 h r[0])))

/-- The privilege at which the threads of a launch run (R371, R386). -/
def State.launchPriv (s : State) (lid job vmid : Nat) : Nat :=
  match s.launches.find? fun l => l.named lid job vmid with
  | some l => if tb 23 (l.rcd.headD 0) then 1 else 0
  | none => 0

/-! ## Starting a thread (R374, R386) -/

/-- Registers of a starting thread: the given ones, the others 0, every F = 1 (R374, R386). -/
def startRegs (l : List W64) : Vector W64 32 := Vector.ofFn fun i : Fin 32 => if i.val = 0 then 0 else l.getD (i.val - 1) 0

/-- Starts a thread in an absent slot from absent: entry, first registers, fmt, scp, join pointer, priority, LID and
privilege (R26, R374, R386). What the slot holds for earlier messages stays (R260). -/
def State.startThread (s : State) (w : Who) (pc : Nat) (gs : List W64) (fmt scp join : W64) (pri lid priv : Nat) : State :=
  let p := s.proc w.lpn
  let s := s.modSlot w fun t =>
    { Slot.init with
      st := .starting
      arch := { Arch.init with regs := startRegs gs, pc := BitVec.ofNat 20 pc, bno := t.arch.bno }
      regs := { SlotRegs.init with slotctl := w64 priv, launch := w64 lid, fmt := fmt, scp := scp, trapvec := p.tvdef }
      sg := p.segt
      join := join
      pri := BitVec.ofNat 2 pri
      heldMsgs := t.heldMsgs }
  s.slotStarts p.core w.slot

/-! ## The Cocoon (R395 to R397) -/

/-- Dword 0 of a Cocoon. -/
def cocoonWord (t : Slot) : W64 :=
  w64 (t.arch.pc.toNat + t.arch.pw.toNat / 2 % 128 * 2 ^ 20 + t.arch.full.toNat / 2 % 2 ^ 31 * 2 ^ 28 +
    (if t.park.isSome then 2 ^ 59 else 0))

/-- The two dwords of a segment register. -/
def segWords (g : BitVec 128) : List W64 := [w64 g.toNat, w64 (g.toNat / 2 ^ 64)]

/-- The dwords of a Cocoon, from its first on (R395). -/
def State.cocoonDwords (s : State) (w : Who) : List W64 :=
  let t := s.slot w
  [cocoonWord t] ++ (t.arch.regs.toList.drop 1) ++ (allSlots.take 8).flatMap (fun n => segWords (s.seg w n)) ++
    [w64 (fld 31 0 t.arch.lc0 + fld 31 0 t.arch.lc1 * 2 ^ 32), t.arch.ls0, t.arch.ls1, t.regs.uistat] ++ t.hbank.toList ++
    [t.regs.taddr, t.regs.tprog, t.regs.tscr0, t.regs.tscr1]

/-- The spill engine writes a Cocoon to local memory (R395). -/
def State.cocoonSave (s : State) (w : Who) : State := s.hwDwords w.lpn (cocoonAt w.slot) (s.cocoonDwords w)

/-- PARK of a Cocoon. -/
def State.cocoonPark (s : State) (w : Who) : Nat := fld 60 59 (s.hwRead w.lpn (cocoonAt w.slot))

/-- Reads a Cocoon back into its slot: the registers of R395; the other items stay in the control store (R396, R397). -/
def State.cocoonRestore (s : State) (w : Who) : State :=
  let d (o : Nat) : W64 := s.hwRead w.lpn (cocoonAt w.slot + o)
  let d0 := d 0
  let lc := d 0x180
  s.modSlot w fun t =>
    { t with
      st := .starting
      reserved := false
      arch := { t.arch with
        regs := Vector.ofFn fun i : Fin 32 => if i.val = 0 then 0 else d (8 * i.val)
        full := BitVec.ofNat 32 (fld 58 28 d0 * 2 + 1)
        pw := BitVec.ofNat 8 (fld 26 20 d0 * 2 + 1)
        pc := BitVec.ofNat 20 (fld 19 3 d0 * 8)
        lc0 := w64 (fld 31 0 lc)
        lc1 := w64 (fld 63 32 lc)
        ls0 := d 0x188
        ls1 := d 0x190
        landing := [] }
      sg := Vector.ofFn fun i : Fin 8 =>
        if i.val = 0 then 0 else (d (0x108 + 16 * i.val)) ++ (d (0x100 + 16 * i.val))
      regs := { t.regs with uistat := d 0x198, taddr := d 0x1E0, tprog := d 0x1E8, tscr0 := d 0x1F0, tscr1 := d 0x1F8,
                            quantum := setFld 63 32 0 t.regs.quantum, spinres := 0 }
      hbank := Vector.ofFn fun i : Fin 8 => d (0x1A0 + 8 * i.val)
      park := if fld 60 59 d0 = 1 then t.park else none
      due := if fld 60 59 d0 = 3 || t.park.isNone then t.due else [] }

/-! ## The ready queue (R384, R385) -/

/-- Ordinary records at a level. -/
def Proc.levelCount (p : Proc) (level : Nat) : Nat := (p.ready.filter fun r => r.level == level && r.resume.isNone).length

/-- Appends an ordinary record to its level, unless it holds 8. -/
def State.appendTask (s : State) (lpn : Nat) (r : TaskRec) : State × Bool :=
  if 8 ≤ (s.proc lpn).levelCount (taskLevel r) then (s, false)
  else
    (s.modProc lpn fun p =>
      { p with ready := p.ready ++ [{ rcd := r, level := taskLevel r, resume := none, age := 0, aged := none }] }, true)

/-- The earlier of two records for a take: an aged one before the others, then the lower level (R385). -/
def Ready.before (a b : Ready) : Bool :=
  match a.aged, b.aged with
  | some x, some y => x ≤ y
  | some _, none => true
  | none, some _ => false
  | none, none => a.level ≤ b.level

/-- The record that a take chooses: the earliest aged one, else the head of the lowest level (R385). -/
def chooseReady : List Ready → Option Ready
  | [] => none
  | r :: l =>
    match chooseReady l with
    | none => some r
    | some x => if r.before x then some r else some x

/-- The lowest free slot that SMASK allows (R384, R385). -/
def Proc.taskSlot (p : Proc) : Option Nat := (List.range 15).find? fun n => tb (16 + n) p.taskcfg && p.freeSlot n

/-- Counts a take in the records that stay (R385). -/
def ageReady (takes limit : Nat) (r : Ready) : Ready :=
  let n := r.age + 1
  { r with age := n, aged := if r.aged.isNone && limit != 0 && limit ≤ n then some takes else r.aged }

/-- A take starts its record: it leaves the queue, and every other record ages (R385). -/
def State.tookReady (s : State) (lpn : Nat) (r : Ready) : State :=
  s.modProc lpn fun p =>
    { p with ready := (dropFirst (fun x => x == r) p.ready).map (ageReady p.takes (fld 15 8 p.taskcfg)), takes := p.takes + 1 }

/-- One take from the ready queue of a process, with the slot started (R385, R386, R397). -/
def State.take (s : State) (lpn : Nat) : State × Option Nat :=
  let p := s.proc lpn
  match chooseReady p.ready with
  | none => (s, none)
  | some r =>
    match r.resume with
    | some n => (((s.tookReady lpn r).cocoonRestore { lpn := lpn, slot := n }).slotStarts p.core n, some n)
    | none =>
      match p.taskSlot with
      | none => (s, none)
      | some n =>
        let lid := taskLid r.rcd
        let s := s.tookReady lpn r
        (s.startThread { lpn := lpn, slot := n } (fld 19 0 r.rcd[0]) [r.rcd[1], r.rcd[2], r.rcd[3], r.rcd[4]] r.rcd[5] r.rcd[6]
          r.rcd[7] r.level lid (s.launchPriv lid p.job p.vmid), some n)

/-- TNEXT (R389). -/
def execTnext (r : AR) (s : State) : Out :=
  .next (s.when r.g fun s =>
    match s.take s.cur.lpn with
    | (s, some n) => s.wr r.d (w64 n)
    | (s, none) => s.wr r.d (BitVec.allOnes 64))

/-! ## SPAWN and TPOST (R388) -/

/-- Counts a record that was placed for a launch (R171). -/
def State.taskCounted (s : State) (lpn : Nat) (r : TaskRec) : State :=
  let p := s.proc lpn
  s.launchAdd (taskLid r) p.job p.vmid 1 0

/-- The step at the target: the record is appended and counted, or its level is full (R388). -/
def State.postTask (s : State) (lpn : Nat) (r : TaskRec) : State × Bool :=
  match s.appendTask lpn r with
  | (s, true) => (s.taskCounted lpn r, true)
  | (s, false) => (s, false)

/-- Writes a predicate of a slot. -/
def Slot.setPred (t : Slot) (p : Nat) (b : Bool) : Slot :=
  if p % 8 = 0 then t
  else { t with arch := { t.arch with pw := if b then t.arch.pw ||| (1#8 <<< (p % 8)) else t.arch.pw &&& ~~~(1#8 <<< (p % 8)) } }

/-- A local TPOST that finds its level full is tried again after 64 cycles, up to WAITLIM (R388). -/
def State.tpostWait (s : State) (dst : W64) : State :=
  if s.waitOver .tpost || s.waitlim = 0 then s.raise cWAITTO 0 0 dst
  else (s.waitAgain .tpost s.waitlim dst (waitlimEv s.cur)).after (.proc s.cur.lpn) 64 (.tpostRetry s.cur.lpn s.cur.slot)

/-- TPOST_RETRY: a TPOST whose level was full is tried again (R388). -/
def execTpostRetry (lpn slot : Nat) (s : State) : Out :=
  let w : Who := { lpn := lpn, slot := slot }
  .next (match (s.slot w).wait with
    | some x => if x.kind = .tpost && (s.slot w).latch.isNone then s.wake w else s
    | none => s)

/-- Post(op) (R388). -/
def State.postOp (s : State) (spawn : Bool) (r : AR) : Out :=
  .next (s.when r.g fun s =>
    let off := s.rd r.a
    s.onSeek 0 (s.seek 0 off 64 rR false) (fun _ s => s) fun la s =>
      let dst := (s.rdB r.b r.x).toNat % 2 ^ 19
      match s.placeLookup (s.hostOf s.cur.lpn) dst with
      | .none => s.raise cSEGV 0 4 (w64 dst)
      | .ask => s.askPlace dst
      | .host _ =>
        if !s.me.atomics.isEmpty then s.waitAgain .fence 0 0 fun _ => none
        else if s.locBad s.cur.lpn s.me.priv (offOf la) 64 then s.raise cPOISON 0 0 (w64 la)
        else
          let rcd : TaskRec := s.descRead (offOf la)
          if taskBad rcd then s.raise cILLOP 0 0 off
          else
            let rcd := taskStamp rcd s.me.lid dst false
            if dst = s.cur.lpn then
              match s.postTask dst rcd with
              | (s, true) => if spawn then s.wrPred (BitVec.ofNat 3 r.d.toNat) true else s
              | (s, false) => if spawn then s.wrPred (BitVec.ofNat 3 r.d.toNat) false else s.tpostWait (w64 dst)
            else if spawn then s.holdAs .spawn 0 (w64 dst) r.d (fun _ => none) dst (.post rcd true)
            else if s.waitOver .tpost then s.raise cWAITTO 0 0 (w64 dst)
            else s.holdAs .tpost s.waitlim (w64 dst) 0 (waitlimEv s.cur) dst (.post rcd false))

/-- SPAWN (R388). -/
def execSpawn (r : AR) (s : State) : Out := s.postOp true r

/-- TPOST (R388). -/
def execTpost (r : AR) (s : State) : Out := s.postOp false r

/-- The answer to a remote SPAWN or TPOST: SPAWN's predicate, or for a full level the next try of a TPOST (R388). -/
def State.postReply (s : State) (w : Who) (spawn ok : Bool) : State :=
  match (s.slot w).latch, (s.slot w).wait with
  | some l, some x =>
    if spawn then s.complete w fun t => t.setPred l.d.toNat ok
    else if ok then s.complete w id
    else if x.limit ≤ (s.proc w.lpn).time - x.since then s.raiseFor w (mkDue cWAITTO 0 0 x.addr (s.slot w).arch.pc)
    else (s.modSlot w fun t => { t with latch := none }).after (.proc w.lpn) 64 (.tpostRetry w.lpn w.slot)
  | _, _ => s

/-! ## RETJ (R390) -/

/-- Counts in TASKCFG.JOINERR (R384). -/
def State.joinErr (s : State) (lpn : Nat) : State :=
  s.modProc lpn fun p => { p with taskcfg := setFld 63 56 (min 255 (fld 63 56 p.taskcfg + 1)) p.taskcfg }

/-- The end of a RETJ: what the join word's old value asks for, and the slot becomes absent (R390). -/
def State.retire (s : State) (w : Who) (old : W64) (c : List W64) : State :=
  let lid := (s.slot w).lid
  let s :=
    if old = 0 then s.joinErr w.lpn
    else if old = 1 then
      let rcd : TaskRec := Vector.ofFn fun i : Fin 8 => c.getD i.val 0
      if c.isEmpty || taskBad rcd then s.joinErr w.lpn
      else
        let h := tb 23 rcd[0]
        let rcd := taskStamp rcd lid (if h then w.lpn else taskDst rcd) h
        ((s.modProc w.lpn fun p => { p with contbuf := p.contbuf ++ [rcd] }).taskCounted w.lpn rcd).post (.continuationRetry w.lpn)
    else s
  s.vacate w true

/-- The running thread ends with its bundle: word B is still performed (R178). -/
def State.endMe (s : State) (e : Ending) : State := s.modMe fun t => { t with ending := some e }

/-- The eight dwords at a paged address, if every one translates; else what stands in the way. -/
def State.pagedDwords (s : State) (la : Nat) : Nat → (List W64) ⊕ XRes
  | 0 => .inl []
  | n + 1 =>
    match s.xlate s.myProc s.me.priv false la with
    | .ok l1 l2 _ =>
      match s.pagedDwords (la + 8) n with
      | .inl t => .inl (w64 (s.pgRead s.myProc.vmid l1.gpa l2.hpa 8) :: t)
      | .inr x => .inr x
    | x => .inr x

/-- The join step at a paged join word, one step of its domain (R49, R390). -/
def State.joinPaged (s : State) (la : Nat) : State :=
  match s.leafFor la 2 with
  | (s, none) => s
  | (s, some l) =>
    let v := s.myProc.vmid
    let line := l.gpa / 256
    if (s.blockOf v l.gpa).isSome then { s with bst := .stop }
    else
      let s := s.s2Load v l.gpa
      match s2Check v l.gpa l.mt true (s.s2Find v l.gpa) with
      | .error f => s.parkMe 2 f la
      | .ok (l2, mt) =>
        if mt = 2 then s.raise cXLATE 0 2 (w64 la)
        else if l2.b || s.lineHeld (.paged v line) (some s.cur) then { s with bst := .stop }
        else if s.secBad v l.gpa l2.hpa then s.raise cPOISON 0 0 (w64 la)
        else
          let s := s.recallNow v line s.myProc.core
          let old := w64 (s.pgRead v l.gpa l2.hpa 8)
          match (if old = 1 then s.pagedDwords (la + 64) 8 else .inl []) with
          | .inr (.fault f) => s.parkMe 0 f (la + 64)
          | .inr .off => s.raise cXLATE 0 3 (w64 (la + 64))
          | .inr _ => { s with bst := .stop }
          | .inl c =>
            let s := s.modProc s.cur.lpn fun p => { p with chghit := p.chghit + 1 }
            let s := if old = 0 then s else s.homeWrite v l.gpa l2.hpa 8 (old - 1).toNat none
            s.endMe (.retired old c)

/-- The join step on a local word: the old value, and the continuation when it was 1 (R63, R390). -/
def State.joinLocal (s : State) (lpn priv off : Nat) : State × W64 × List W64 :=
  if priv != 2 && hwArea (s.proc lpn).lmmap off then (s, 0, [])
  else
    let old := w64 (s.locRead lpn priv off 8)
    let c := if old = 1 then (List.range 8).map fun i => w64 (s.locRead lpn priv (off + 64 + 8 * i) 8) else []
    if old = 0 then (s, old, c)
    else ((s.squashReaders (locLine lpn off) none).locWrite lpn priv off 8 (old - 1).toNat, old, c)

/-- The join step at a window address (R28, R390). -/
def State.joinWindow (s : State) (seg : Seg) (la : Nat) : State :=
  let lpn := lpnOf la
  let off := offOf la
  if lpn = s.cur.lpn then
    if s.locBad lpn s.me.priv off 8 then s.raise cPOISON 0 0 (w64 la)
    else if s.lineHeld (locLine lpn off) (some s.cur) then { s with bst := .stop }
    else
      let (s, old, c) := s.joinLocal lpn s.me.priv off
      s.endMe (.retired old c)
  else if segHas (s.seg s.cur seg.toNat) rM then s.migrateFor la
  else s.holdRequest 0 (w64 la) 0 (fun _ => none) lpn (.join off)

/-- RETJ (R390). -/
def execRetj (r : AR) (s : State) : Out :=
  .next (s.when r.g fun s =>
    let j := s.me.join
    if !s.me.atomics.isEmpty then s.waitAgain .fence 0 0 fun _ => none
    else if j = 0 then s.endMe .halt
    else
      let seg : Seg := BitVec.ofNat 3 (fld 2 0 j)
      let off := w64 (fld 63 7 j * 128)
      if 16 ≤ s.myProc.contbuf.length then
        let a := w64 (segBase (s.seg s.cur seg.toNat)) + off
        if s.waitOver .retj || s.waitlim = 0 then s.raise cWAITTO 0 0 a
        else s.waitAgain .retj s.waitlim a (waitlimEv s.cur)
      else s.onSeek seg (s.seek seg off 8 (rA + rR) false) (fun la s => s.joinPaged la) (fun la s => s.joinWindow seg la))

/-- A continuation that cannot be placed is discarded: the launch's counter falls, JOINERR counts it and Imago is notified
(R390). -/
def State.dropCont (s : State) (lpn : Nat) (r : TaskRec) : State :=
  let p := s.proc lpn
  ((s.launchAdd (taskLid r) p.job p.vmid (-1) 0).joinErr lpn).record (.notice 390 (taskDst r))

/-- Sends one continuation of the buffer: appended, kept for the next try, or discarded (R390). -/
def State.sendCont (s : State) (lpn : Nat) (r : TaskRec) : State :=
  let dst := taskDst r
  let keep (s : State) : State := s.modProc lpn fun p => { p with contbuf := p.contbuf ++ [r] }
  let p := s.proc lpn
  if dst != lpn && !(spHas s.place dst) then s.dropCont lpn r
  else if dst != lpn && !jobCheck (BitVec.ofNat 24 p.coretag.toNat) (s.proc dst) then s.dropCont lpn r
  else if (s.core (s.hostOf dst)).frozen then keep s
  else match s.appendTask dst r with
    | (s, true) => s
    | (s, false) => keep s

/-- CONTINUATION_RETRY: the buffer sends each of its continuations as a SPAWN does, and tries again every 256 cycles
while a level is full (R390). -/
def execContinuationRetry (lpn : Nat) (s : State) : Out :=
  let l := (s.proc lpn).contbuf
  .next (
    let s := l.foldl (fun s r => s.sendCont lpn r) (s.modProc lpn fun p => { p with contbuf := [] })
    let n := (s.proc lpn).contbuf.length
    let s := if n < l.length then s.wakeAll lpn fun k => k = .retj else s
    if n = 0 then s else s.after (.proc lpn) 256 (.continuationRetry lpn))

/-! ## SLEEP (R392) -/

/-- The pending bits that end a SLEEP: unmasked ones that are not delivered. -/
def Slot.sleepBits (t : Slot) : Nat := if tb 0 t.regs.uivec && !t.inUser then 0 else t.unmasked

/-- SLEEP (R392). -/
def execSleep (r : AR) (s : State) : Out :=
  .next (s.when r.g fun s =>
    let t := s.me
    let n := fld 31 0 (s.rdB r.b r.x)
    let limit := t.sleepLeft.getD n
    let left := s.remaining .sleep limit
    let bits := t.sleepBits
    if bits != 0 then
      let s := s.modMe fun t =>
        { t with sleepLeft := none, regs := { t.regs with uistat := t.regs.uistat &&& ~~~(w64 (bits * 2 ^ 16)) } }
      s.wr r.d (w64 (left % 2 ^ 32 + bits * 2 ^ 32))
    else if left = 0 then (s.modMe fun t => { t with sleepLeft := none }).wr r.d 0
    else
      (s.modMe fun t => { t with sleepLeft := none }).waitAgain .sleep limit 0 fun id =>
        some (.sleepExpiry s.cur.lpn s.cur.slot id))

/-- SLEEP_EXPIRY: the count is over, and the SLEEP completes at its thread's next issue (R392). -/
def execSleepExpiry (lpn slot id : Nat) (s : State) : Out :=
  let w : Who := { lpn := lpn, slot := slot }
  .next (match (s.slot w).wait with
    | some x => if x.kind = .sleep && x.id = id then s.wake w else s
    | none => s)

end Sys2Proof.Machine
end

