-- ==== Sys2Proof/Machine/Remote.lean ====
section
/-!
DEFINITION. Requests to another process and their answers (03 R78, 01 R31, R32): the target's step, the reply at the
requester, refusals, busy replies, withdrawals, and the limits WAITLIM and BARLIM (10 R228, R244).
-/

namespace Sys2Proof.Machine

/-! ## At the target (R78) -/

/-- The privilege that a request's core tag says (R63). -/
def tagPriv (tag : BitVec 24) : Nat := if tag = 0 then 2 else 0

/-- A step that must wait for a held commit tries its request again (R140). -/
def State.requestLater (s : State) (dst id : Nat) : State := s.after (.proc dst) 1 (.remoteRequest id)

/-- A load at the target: a watch entry for the reader, its own stores over the value; a full watch table gives no value
(R136, R145). -/
def State.servedLoad (s : State) (id : Nat) (who : Who) (priv dst off size : Nat) (sx : Bool) (mask own : W64) (single : Bool) :
    State :=
  let core := s.hostOf dst
  let l := (locLine dst off, who)
  let c := s.core core
  if s.locBad dst priv off size then s.answer core id who (.trap cPOISON)
  else if !single && 64 ≤ c.watch.length && !(c.watch.contains l) then s.answer core id who .full
  else
    let v := if priv != 2 && hwArea (s.proc dst).lmmap off then 0 else (w64 (s.locRead dst priv off size) &&& ~~~mask) ||| own
    let s := if single then s else s.modCore core fun c => { c with watch := addNew l c.watch }
    s.answer core id who (.value (loadExt sx size v.toNat))

/-- A full/empty operation at the target (R66 to R68). -/
def State.servedSync (s : State) (id : Nat) (who : Who) (tag : BitVec 24) (dst : Nat) (op : SyncOp) (off : Nat) (v : W64) :
    State :=
  let core := s.hostOf dst
  let priv := tagPriv tag
  if op.reads && s.locBad dst priv off 8 then s.answer core id who (.trap cPOISON)
  else if s.syncMay dst priv off op then
    if op.stores && s.lineHeld (locLine dst off) none then s.requestLater dst id
    else
      let (s, x) := s.syncStep dst priv off op v none
      (s.serveWord dst off op).answer core id who (if op.reads then .value x else .done)
  else if fld 31 0 (s.slot who).regs.waitlim = 0 then s.answer core id who (.trap cWAITTO)
  else if (s.proc dst).waitRoom then
    (s.dropItem id).joinWaits dst { id := id, who := who, op := some op, key := off, val := v, remote := true, priv := priv }
  else s.answer core id who (.busy tag dst (.sync op off v))

/-- An arrival at a barrier of the target (R240, R243). -/
def State.servedArrive (s : State) (id : Nat) (who : Who) (tag : BitVec 24) (dst i : Nat) (w : W64) (waits : Bool) : State :=
  let core := s.hostOf dst
  let limited := waits && fld 31 0 (s.slot who).regs.barlim = 0
  let fin := (((s.proc dst).bar i).arrive w.toNat).2
  match s.barArrive dst i w.toNat (waits && !limited) with
  | (s, .barto) => s.answer core id who (.trap cBARTO)
  | (s, .full) => s.answer core id who (.busy tag dst (.bar .wait i w))
  | (s, .done gen) =>
    if limited && !fin then s.answer core id who (.trap cBARTO) else s.answer core id who (.value (gen.zeroExtend 64))
  | (s, .wait) =>
    (s.dropItem id).joinWaits dst { id := id, who := who, op := none, key := i, val := w, remote := true, priv := tagPriv tag }
  | (s, .last) =>
    (s.dropItem id).joinStep dst { id := id, who := who, op := none, key := i, val := w, remote := true, priv := tagPriv tag }

/-- A request that passed the job check is performed against the target's local memory (R78). -/
def State.serve (s : State) (id : Nat) (who : Who) (tag : BitVec 24) (dst : Nat) : WinOp → State
  | .load off size sx mask own single => s.servedLoad id who (tagPriv tag) dst off size sx mask own single
  | .sync op off v => s.servedSync id who tag dst op off v
  | .atomic fn size ret off x y =>
    let core := s.hostOf dst
    if s.locBad dst (tagPriv tag) off size then s.answer core id who (.trap cPOISON)
    else if s.lineHeld (locLine dst off) none then s.requestLater dst id
    else
      let (s, v) := s.atomicLocal dst (tagPriv tag) fn size off x y none
      s.answer core id who (if ret then .value v else .done)
  | .bar .cfg i v =>
    let (s, old) := s.barConfig dst i (BitVec.ofNat 16 v.toNat)
    s.answer (s.hostOf dst) id who (.value old)
  | .bar .wait i w => s.servedArrive id who tag dst i w true
  | .bar .arrive i w => s.servedArrive id who tag dst i w false
  | .post rcd _ =>
    match s.postTask dst rcd with
    | (s, true) => s.answer (s.hostOf dst) id who .done
    | (s, false) => s.answer (s.hostOf dst) id who .full
  | .join off =>
    let core := s.hostOf dst
    if s.locBad dst (tagPriv tag) off 8 then s.answer core id who (.trap cPOISON)
    else if s.lineHeld (locLine dst off) none then s.requestLater dst id
    else
      let (s, old, c) := s.joinLocal dst (tagPriv tag) off
      s.answer core id who (.cont old c)
  | .engRead off size =>
    let core := s.hostOf dst
    if s.locBad dst (tagPriv tag) off size then s.answer core id who (.trap cPOISON)
    else s.answer core id who (.value (w64 (s.locRead dst (tagPriv tag) off size)))
  | .engWrite off size v =>
    let core := s.hostOf dst
    if size != 8 && s.locBad dst (tagPriv tag) off size then s.answer core id who (.trap cPOISON)
    else if s.lineHeld (locLine dst off) none then s.requestLater dst id
    else ((s.squashReaders (locLine dst off) none).locWrite dst (tagPriv tag) off size v.toNat).answer core id who .done
  | .withdraw _ => s

/-- REMOTE_REQUEST: the job check, then the operation; a refusal has no other effect (R31, R32, R78). -/
def execRemoteRequest (id : Nat) (s : State) : Out :=
  .next (match s.item id with
    | some (.win who tag dst op) =>
      if !jobCheck tag (s.proc dst) then s.answer (s.hostOf dst) id who .refused else s.serve id who tag dst op
    | _ => s)

/-- WAIT_WITHDRAWAL: the operation leaves its queue without effect and its thread takes the trap of its limit; one that
was served before has won (R228, R244). -/
def execWaitWithdrawal (id : Nat) (s : State) : Out :=
  .next (match s.item id with
    | some (.win who _ dst (.withdraw t)) =>
      match (s.proc dst).waits.find? fun x => x.id == t with
      | some x =>
        ((s.dropItem id).leaveWaits dst t).answer (s.hostOf dst) t who (.trap (if x.op.isSome then cWAITTO else cBARTO))
      | none =>
        match s.item t with
        | some (.win _ _ _ _) => s.after .network 1 (.waitWithdrawal id)
        | _ => s.dropItem id
    | _ => s)

/-! ## At the requester -/

/-- A load found the watch table full: its chunk ends before that load (R145). -/
def State.watchFull (s : State) (w : Who) (e : Landing) : State := s.rerun w e.bno .single

/-- Has the limit of an operation run out, so that its withdrawal is on its way (R228, R244)? -/
def State.withdrawn (s : State) (id : Nat) : Bool :=
  s.net.any fun e => match e.2 with
    | .win _ _ _ (.withdraw t) => t == id
    | _ => false

/-- A request that came back busy waits 64 cycles at its core (R68); one that is being withdrawn ends instead (R228, R244). -/
def State.parkRequest (s : State) (id : Nat) (w : Who) (tag : BitVec 24) (dst : Nat) (op : WinOp) (expired : State → State) : State :=
  if s.withdrawn id then expired s
  else (s.putItem id (.parked w tag dst op ((s.proc w.lpn).time + 64))).after (.proc w.lpn) 64 (.busyReissue w.lpn w.slot)

/-- BUSY_REISSUE: the oldest request of a slot that came back busy and has waited its 64 cycles is sent again (R68, R240). -/
def execBusyReissue (lpn slot : Nat) (s : State) : Out :=
  let w : Who := { lpn := lpn, slot := slot }
  let mine (e : Nat × Item) : Bool := match e.2 with
    | .parked x _ _ _ due => x = w && due ≤ (s.proc lpn).time
    | _ => false
  .next (match s.net.find? mine with
    | some (id, .parked _ tag dst op _) =>
      let i : Item := .win w tag dst op
      (s.putItem id i).depart (s.hostOf lpn) id i
    | _ => s)

/-- The answer for a landing entry (R32, R165). -/
def State.landReply (s : State) (id : Nat) (w : Who) (e : Landing) : Res → State
  | .value v => s.landResult w id (.value v)
  | .trap c => s.landResult w id (.trap c 0 0 e.addr)
  | .refused => (s.unread w e (locLine (lpnOf e.addr.toNat) (offOf e.addr.toNat))).landResult w id (.trap cSEGV e.seg 5 e.addr)
  | .busy tag dst op => s.parkRequest id w tag dst op fun s => s.landResult w id (.trap cWAITTO 0 0 e.addr)
  | .full => s.watchFull w e
  | _ => s

/-- The answer for a non-returning atomic (R32, R141). -/
def State.ackReply (s : State) (id : Nat) (w : Who) (pc : BitVec 20) (la : W64) (seg : Nat) : Res → State
  | .refused => (s.atomicAck w id).deferRefusal w pc la seg
  | .trap c => (s.atomicAck w id).modSlot w fun t => { t with due := t.due ++ [{ mkDue c 0 0 la pc with keep := true }] }
  | _ => s.atomicAck w id

/-- The trap with which the limit of a request ends it: BARTO for a barrier, else WAITTO (R228, R244). -/
def WinOp.limitCode : WinOp → Nat
  | .bar _ _ _ => cBARTO
  | _ => cWAITTO

/-- The answer for an operation that its thread holds in place (R226, R239, R388, R390). -/
def State.holdReply (s : State) (id : Nat) (w : Who) (x : Wait) (l : Latch) (r : Res) : State :=
  match r with
  | .busy tag dst op => s.parkRequest id w tag dst op fun s => s.raiseFor w (mkDue op.limitCode 0 0 x.addr l.pc)
  | .refused => s.raiseFor w (mkDue cSEGV l.seg 5 x.addr l.pc)
  | .trap c => s.raiseFor w (mkDue c 0 0 x.addr l.pc)
  | .value v => s.complete w fun t => t.wrField l.d v
  | .done => if x.kind = .spawn then s.postReply w true true else if x.kind = .tpost then s.postReply w false true else s.complete w (fun t => t)
  | .full => s.postReply w (x.kind = .spawn) false
  | .cont old c =>
    -- the continuation of a cancelled launch is discarded (R174)
    if (s.slot w).doomed then s.complete w (fun t => t) else s.complete w fun t => { t with ending := some (.retired old c) }
  -- what only an element is answered
  | .fault _ _ _ _ => s
  | .device => s
  | .anew => s

/-- Is an identity one of the requests that a matrix store has outstanding? -/
def State.probes (s : State) (id : Nat) (w : Who) : Bool :=
  (s.proc w.lpn).mx.queue.any fun q => q.who == w && q.msto && q.wants.contains id

/-- The answer for a sector that a matrix store is to write: a translation fault parks its thread; in every other case the row is looked
at again once no answer is out (R350, R361). -/
def State.probeReply (s : State) (id : Nat) (w : Who) (r : Res) : State :=
  let mine (q : SliceOp) : Bool := q.who == w && q.wants.contains id
  let set (s : State) (f : SliceOp → SliceOp) : State :=
    s.modProc w.lpn fun p => { p with mx := { p.mx with queue := mapIf mine f p.mx.queue } }
  let la := (((s.proc w.lpn).mx.queue.find? mine).bind fun q => (q.asked.find? fun a => a.1 == id).map fun a => a.2).getD 0
  match r with
  | .fault kind level sub gpa =>
    (set s fun q => { q with wants := [], asked := [], ready := [] }).parkThread w 1
      { kind := kind, level := level, sub := sub, gpa := gpa } la
  | r =>
    let ok := r != .anew
    let s := set s fun q =>
      { q with wants := q.wants.filter fun i => i != id, ready := if ok then addNew (la / 128) q.ready else q.ready }
    if (s.proc w.lpn).mx.queue.any fun q => q.who == w && q.wants.isEmpty then s.wake w else s

/-- An answer reaches the requester. -/
def State.replyArrives (s : State) (id : Nat) (w : Who) (r : Res) : State :=
  let s := s.dropItem id
  let t := s.slot w
  if (s.copyOf id).isSome || (s.streamOf id).isSome then s.engineReply id r
  else if s.probes id w then s.probeReply id w r
  else match t.landingOf id with
    | some e => s.landReply id w e r
    | none =>
      match t.atomics.find? fun a => a.1 == id with
      | some a => s.ackReply id w a.2.1 a.2.2.1 a.2.2.2 r
      | none =>
        match t.wait, t.latch with
        | some x, some l => if t.awaits id then s.holdReply id w x l r else s
        | _, _ => s

/-- REMOTE_REPLY (R78, R226). -/
def execRemoteReply (id : Nat) (s : State) : Out :=
  .next (match s.item id with
    | some (.reply w r) => if r = .refused then s else s.replyArrives id w r
    | _ => s)

/-- REFUSAL_ARRIVAL (R32). -/
def execRefusalArrival (id : Nat) (s : State) : Out :=
  .next (match s.item id with
    | some (.reply w r) => if r = .refused then s.replyArrives id w r else s
    | _ => s)

/-! ## Limits (R228, R244) -/

/-- The limit of a remote operation has run out: a request that waits at its core is withdrawn at once, another by a
withdrawal request. -/
def State.withdraw (s : State) (id : Nat) (w : Who) (dst : Nat) (atOnce : State → State) : State :=
  match s.item id with
  | some (.parked _ _ _ _ _) => atOnce (s.dropItem id)
  | _ => s.sendNow (s.hostOf w.lpn) (.win w (s.tagOf w) dst (.withdraw id))

/-- Ends a wait at its limit, but for a service of it that is due in the same step, which comes first (R69, R300). -/
def State.limitAfter (s : State) (w : Who) (id : Nat) (service : Ev) (trap : State → State) : State :=
  if s.agenda.contains service then s.post (.waitlimExpiry w.lpn w.slot id) else trap s

/-- WAITLIM ends the wait of a landing entry: LDSYNC or LDFF (R69, R228). -/
def State.landLimit (s : State) (id : Nat) (w : Who) (e : Landing) : State :=
  let trap (s : State) : State := s.landResult w id (.trap cWAITTO 0 0 e.addr)
  if e.res != .pending || !e.sync then s
  else match (s.proc w.lpn).waits.find? fun x => x.id == id && !x.remote with
  | some x => s.limitAfter w id (.fullEmptyService w.lpn x.key) fun s => trap (s.leaveWaits w.lpn id)
  | none => s.withdraw id w (lpnOf e.addr.toNat) trap

/-- WAITLIM ends a wait that its thread holds in place (R69, R228, R300, R388). -/
def State.holdLimit (s : State) (id : Nat) (w : Who) (x : Wait) (l : Latch) : State :=
  let trap (s : State) : State := s.raiseFor w (mkDue cWAITTO 0 0 x.addr l.pc)
  match x.kind with
  | .word =>
    let key := match (s.proc w.lpn).waits.find? fun y => y.id == id with
      | some y => y.key
      | none => 0
    s.limitAfter w id (.fullEmptyService w.lpn key) fun s => trap (s.leaveWaits w.lpn id)
  | .mailbox n =>
    s.limitAfter w id (.mailboxService w.lpn (BitVec.ofNat 2 n)) fun s =>
      let b := (s.proc w.lpn).mb n
      trap (s.putMb w.lpn n { b with queue := b.queue.filter fun y => y.id != id })
  | .reply => s.withdraw id w (lpnOf x.addr.toNat) trap
  | _ => s

/-- WAITLIM_EXPIRY: the identity names a wait or a landing entry of the slot; a wait that its bundle would take up again
ends with WAITTO, and an operation that found the list full looks once more (R228, R229). -/
def execWaitlimExpiry (lpn slot id : Nat) (s : State) : Out :=
  let w : Who := { lpn := lpn, slot := slot }
  let t := s.slot w
  .next (match t.landingOf id with
    | some e => s.landLimit id w e
    | none =>
      match t.wait with
      | some x =>
        if x.id != id || t.st != .waiting && !t.awaits id then s
        else match t.latch with
          | some l => s.holdLimit id w x l
          | none =>
            if x.kind = .word then s.wake w
            else s.raiseFor w (mkDue cWAITTO 0 0 x.addr t.arch.pc)
      | none => s)

/-- BARLIM_EXPIRY (R244). -/
def execBarlimExpiry (lpn slot id : Nat) (s : State) : Out :=
  let w : Who := { lpn := lpn, slot := slot }
  let t := s.slot w
  .next (match t.wait with
    | some x =>
      if x.id != id || t.st != .waiting && !t.awaits id then s
      else
        let trap (s : State) : State := s.raiseFor w (mkDue cBARTO 0 0 x.addr t.arch.pc)
        if t.latch.isNone then trap s
        else if (s.proc lpn).inStep id then s
        else if x.kind = .barrier then trap (s.leaveWaits lpn id)
        else s.withdraw id w (barLpn x.addr) trap
    | none => s)

end Sys2Proof.Machine
end

