-- ==== Sys2Proof/Machine/Matrix.lean ====
section
/-!
DEFINITION. The matrix slice (16 R344 to R366): the queue of slice instructions, the configuration, operand reads of the
tile fetch unit, groups and the pairing accumulator, gangs, the residue pass and the store of rows.
-/

namespace Sys2Proof.Machine

/-! ## The slice's queue (R345) -/

/-- The slice instruction of a thread, waiting or in progress. -/
def State.opOf (s : State) (w : Who) : Option SliceOp := (s.proc w.lpn).mx.queue.find? fun q => q.who == w

/-- Has a thread a slice instruction in progress or waiting? -/
def State.inSlice (s : State) (w : Who) : Bool := (s.opOf w).isSome

/-- A slice instruction that has just issued: a resume issue begins at TPROG (R325). -/
def State.newOp (s : State) : SliceOp :=
  let r0 := if s.me.resume then s.me.regs.tprog.toNat else 0
  { id := s.nextId, who := s.cur, bundle := s.bword, msto := false, tag := 0, since := s.myProc.time, row0 := r0, row := r0, desc := none, vals := [],
    arow := [], tiles := [], wants := [], asked := [], ready := [], gang := false, fin := none, halt := false, inv := none }

/-- The slice instruction of the current thread. -/
def State.myOp (s : State) : SliceOp := (s.opOf s.cur).getD s.newOp

/-- Changes the matrix slice of a process. -/
def State.modMx (s : State) (lpn : Nat) (f : Matrix → Matrix) : State := s.modProc lpn fun p => { p with mx := f p.mx }

/-- Changes the slice instruction of a thread. -/
def State.modOp (s : State) (w : Who) (f : SliceOp → SliceOp) : State :=
  s.modMx w.lpn fun m => { m with queue := mapIf (fun q => q.who == w) f m.queue }

/-- The current thread waits until its turn or for what its instruction waits for. -/
def State.sliceWait (s : State) : State := s.waitAgain .slice 0 0 fun _ => none

/-- A slice instruction is performed once every one issued before it has finished (R345). -/
def State.sliceTurn (s : State) (f : State → State) : State :=
  match s.myProc.mx.queue with
  | [] => f (s.fresh.modMx s.cur.lpn fun m => { m with queue := [s.newOp] })
  | h :: _ =>
    if h.who = s.cur then f s
    else (if s.inSlice s.cur then s else s.fresh.modMx s.cur.lpn fun m => { m with queue := m.queue ++ [s.newOp] }).sliceWait

/-- Releases the pins of sectors that are no longer needed (R99). -/
def State.unpin (s : State) (lpn : Nat) (l : List TileSec) : State :=
  s.postAll ((l.filter fun t => t.pinned).map fun t => .tilePinRelease (s.hostOf lpn) (t.gpa / 256))

/-- The next slice instruction's thread goes on. -/
def State.sliceNext (s : State) (lpn : Nat) : State :=
  match (s.proc lpn).mx.queue with
  | h :: _ => s.wake h.who
  | [] => s

/-- A slice instruction is over: it leaves the queue, its pins are released, and the next one's turn comes. -/
def State.sliceDone (s : State) (w : Who) : State :=
  match s.opOf w with
  | none => s
  | some q =>
    let first := match (s.proc w.lpn).mx.queue with
      | h :: _ => h.who == w
      | [] => false
    let s := (s.unpin w.lpn q.tiles).modMx w.lpn fun m =>
      { m with queue := m.queue.filter fun x => x.who != w,
               join := match m.join with
                 | some j => if j.who = w then none else some j
                 | none => none }
    if first then s.sliceNext w.lpn else s

/-- A trap of the slice instruction that is performed. -/
def State.sliceRaise (s : State) (d : Due) : State := (s.sliceDone s.cur).raiseDue d

/-- An ILLOP of the slice instruction that is performed, with an address. -/
def State.sliceIllop (s : State) (addr : W64) : State := s.sliceRaise (mkDue cILLOP 0 0 addr s.me.arch.pc)

/-- LIVE of the matrix status (R362). -/
def Matrix.live (m : Matrix) : Bool := tb 6 m.status

/-! ## Configuration (R346, R347) -/

/-- A configuration word read by its fields. -/
structure MCfg where
  af : Fmt
  bf : Fmt
  floor : Int
  gm : Nat
  sa : Bool
  sb : Bool
  /-- Kb of the class. -/
  kb : Nat
  deriving DecidableEq, Repr

/-- The class of a format code: 0 8-bit, 1 narrow, 2 wide (R347). -/
def mxClass (n : Nat) : Nat := if n ≤ 2 then 2 else if n ≤ 5 then 0 else 1

/-- The lowest lane exponent of a format (R283, R347). -/
def Fmt.emin : Fmt → Int
  | .b32 => 0
  | .b16 => -24
  | .bf => -136
  | .e4m3 => -9
  | .e5m2 => -16
  | .t8 => -15
  | .t6 => -11
  | .e2m1 => -1

/-- Reads a configuration word; `none` when it breaks a rule of R346. -/
def mcfg (v : W64) : Option MCfg :=
  let a := fld 3 0 v
  let b := fld 7 4 v
  let fd := tb 17 v
  let wide := mxClass a = 2
  if a = 0 || b = 0 || 8 ≤ a || 8 ≤ b || mxClass a != mxClass b || (fd && fld 16 8 v != 0) || fld 19 18 v = 3 ||
      (wide && (tb 20 v || tb 21 v)) || fld 63 22 v != 0 then none
  else
    let f (n : Nat) : Fmt := Fmt.ofCode n
    some { af := f a, bf := f b, floor := if fd then max (-256) ((f a).emin + (f b).emin) else sint 9 (fld 16 8 v), gm := fld 19 18 v,
           sa := tb 20 v, sb := tb 21 v, kb := if wide then 32 else if mxClass a = 0 then 64 else 128 }

/-- MCFG (R346). -/
def execMcfg (r : AR) (s : State) : Out :=
  .next (s.when r.g fun s => s.sliceTurn fun s =>
    let m := s.myProc.mx
    let v := if r.a = 0 then w64 (s.me.regs.fmt.toNat % 2 ^ 22) else s.rd r.a
    if m.live || (mcfg v).isNone then s.sliceIllop s.bword
    else
      let key : BitVec 16 := BitVec.ofNat 16 (s.rdB r.b r.x).toNat
      ((s.wr r.d m.cfg).modMx s.cur.lpn fun m => { m with cfg := v, key := key }).sliceDone s.cur)

/-- MZERO (R348); it waits while a swap is accepted (R448). -/
def execMzero (r : AR) (s : State) : Out :=
  .next (s.when r.g fun s =>
    if s.swapping then s.waitAgain .swap 0 0 fun _ => none else s.sliceTurn fun s =>
    (s.modMx s.cur.lpn fun m => { m with acc := [], status := setBit 6 true (setFld 10 8 0 m.status) }).sliceDone s.cur)

/-- MSTAT (R362). -/
def execMstat (r : AR) (s : State) : Out :=
  .next (s.when r.g fun s =>
    let m := s.myProc.mx
    let v := setBit 7 (!m.queue.isEmpty) m.status
    (s.wr r.d v).modMx s.cur.lpn fun m => { m with status := m.status &&& ~~~(s.rd r.a &&& 0x3F) })

/-! ## Operand reads (R350, R363) -/

/-- One access of the tile fetch unit. -/
structure Rd where
  seg : Nat
  off : W64
  size : Nat
  deriving DecidableEq, Repr

/-- What an access comes to. -/
inductive TileRes where
  /-- The bytes, little-endian. -/
  | value (v : Nat)
  /-- The thread waits or has parked. -/
  | stop
  /-- It failed: code, segment, reason, linear address. -/
  | trap (code seg reason : Nat) (la : W64)
  deriving DecidableEq, Repr

/-- The linear address of an access, if its checks pass. -/
def State.rdAt (s : State) (r : Rd) : Nat := segBase (s.seg s.cur r.seg) + r.off.toNat

/-- The sectors a read of n bytes touches, by their linear addresses. -/
def sectorsOf (la n : Nat) : List Nat := (List.range ((la + n - 1) / 128 + 1 - la / 128)).map fun i => (la / 128 + i) * 128

/-- Bytes of a read taken from the sectors at hand. -/
def tileBytes (tiles : List TileSec) (la : Nat) : Nat → Nat
  | 0 => 0
  | n + 1 =>
    let b := match tiles.find? fun t => t.la == la / 128 * 128 with
      | some t => secRead t.data (la % 128) 1
      | none => 0
    b + 256 * tileBytes tiles (la + 1) n

/-- The sectors of a line that a list of reads takes, bit k for sector k. -/
def needOf (secs : List Nat) (line : Nat) : Nat :=
  (if secs.contains (line * 256) then 1 else 0) + (if secs.contains (line * 256 + 128) then 2 else 0)

/-- Asks for the lines of a paged read that are not at hand, each for all that the operation takes from it; the thread waits for them
(R38, R39, R42, R48, R112, R154). -/
def State.tileAsk (s : State) (la : Nat) (secs : List Nat) (lines : List Nat) : State × TileRes :=
  match lines with
  | [] => (if s.myOp.wants.isEmpty then { s with bst := .stop } else s.sliceWait, .stop)
  | n :: rest =>
    let a := max la (n * 256)
    let p := s.myProc
    let park (s : State) (f : XFault) : State × TileRes :=
      (((s.unpinOp s.cur).modOp s.cur fun q => { q with wants := [] }).parkMe 0 f a, .stop)
    let (s, x) := s.leafNow p s.cur a
    match x with
    | .off => (s, .trap cXLATE 0 3 (w64 a))
    | .wait => ({ s with bst := .stop }, .stop)
    | .bad f => park s f
    | .ok l =>
      if !rights1 s.me.priv false l.w l.u then park s { kind := 1, level := l.level, sub := 0, gpa := l.ent }
      else if l.mt = 2 then
        let s := s.s2Load p.vmid l.gpa
        match s2Check p.vmid l.gpa 2 false (s.s2Find p.vmid l.gpa) with
        | .error f => park s f
        | .ok _ => (s, .trap cXLATE 0 2 (w64 a))
      else if p.vmid = 0 && !(rangeOf l.gpa).named && s.me.priv != 2 then
        let ts := ([0, 1].filter fun k => secs.contains (n * 256 + 128 * k)).map fun k =>
          ({ la := n * 256 + 128 * k, vmid := 0, gpa := l.gpa / 256 * 256 + 128 * k, data := 0, bad := false, pinned := false } : TileSec)
        (s.noRange.modOp s.cur fun q => { q with tiles := q.tiles ++ ts }).tileAsk la secs rest
      else
        let id := s.nextId
        let s := (s.sendItem (s.hostOf s.cur.lpn) (.pg (s.pgReq (.tile (needOf secs n) 0 false) a l))).modOp s.cur fun q =>
          { q with wants := q.wants ++ [id] }
        s.tileAsk la secs rest

/-- Does an access of the slice to another process wait, because that process's core is frozen (R335, R448; log 70)? -/
def State.awayFrozen (s : State) (tgt : Nat) : Bool := tgt != s.cur.lpn && (s.core (s.hostOf tgt)).frozen

/-- An access of the slice to another process wakes that process's core if it is gated (R470). -/
def State.reaches (s : State) (tgt : Nat) : State := if tgt = s.cur.lpn then s else s.rouse (s.hostOf tgt)

/-- A read of the running slice instruction: window operands at the process that holds them, paged ones from the sectors
the tile fetch unit holds. `later` are the reads that are to follow it (R31, R63, R150, R154, R350). -/
def State.tileRead (s : State) (r : Rd) (later : List Rd) : State × TileRes :=
  let lpn := s.cur.lpn
  match s.segCheck (s.hostOf lpn) (s.seg s.cur r.seg) r.seg r.off.toNat r.size rR false 0 with
  | .bad c g why a => (s, .trap c g why a)
  | .ask l => (s.askPlace l, .stop)
  | .window la =>
    let tgt := lpnOf la
    if s.awayFrozen tgt then ({ s with bst := .stop }, .stop)
    else if tgt != lpn && !jobCheck (s.tagOf s.cur) (s.proc tgt) then (s, .trap cSEGV r.seg 5 (w64 la))
    else if s.locBad tgt s.me.priv (offOf la) r.size then (s, .trap cPOISON 0 0 (w64 la))
    else (s.reaches tgt, .value (s.locRead tgt s.me.priv (offOf la) r.size))
  | .paged la =>
    let q := s.myOp
    let need := (sectorsOf la r.size).filter fun x => !(q.tiles.any fun t => t.la == x)
    if !q.wants.isEmpty then (s.sliceWait, .stop)
    else if !need.isEmpty then
      s.tileAsk la ((r :: later).flatMap fun x => sectorsOf (s.rdAt x) x.size) (need.map fun x => x / 256).eraseDups
    else match q.tiles.find? fun t => t.bad && (sectorsOf la r.size).contains t.la with
      | some t => (s, .trap cPOISON 0 0 (w64 (max la t.la)))
      | none => (s, .value (tileBytes q.tiles la r.size))

/-- Keeps the sectors of lines that a later read of the operation takes from, and releases the others; a pin goes over to a kept sector of
the same line (R99, R154). -/
def State.tileKeep (s : State) (later : List Rd) : State :=
  let lines := later.flatMap fun r => (sectorsOf (s.rdAt r) r.size).map fun x => x / 256
  let q := s.myOp
  let out := q.tiles.filter fun t => !lines.contains (t.la / 256)
  let kept := q.tiles.filter fun t => lines.contains (t.la / 256)
  let same (t x : TileSec) : Bool := x.vmid == t.vmid && x.gpa / 256 == t.gpa / 256
  let (moved, gone) := (out.filter fun t => t.pinned).partition fun t => kept.any (same t)
  let mark (x : TileSec) : TileSec := { x with pinned := x.pinned || moved.any fun t => same t x }
  (s.unpin s.cur.lpn gone).modOp s.cur fun q => { q with tiles := kept.map mark }

/-- The reply to a tile request: when the last one is in, its thread goes on. -/
def State.tileReply (s : State) (id : Nat) (r : PgReq) : State :=
  let s := s.dropItem id
  match s.opOf r.who with
  | some q =>
    if q.wants.contains id then
      let s := s.modOp r.who fun q => { q with wants := q.wants.filter fun i => i != id }
      if q.wants.length = 1 then s.wake r.who else s
    else s
  | none => s

/-- The descriptor of MMA or MSTO, read once when its turn comes (R349, R359). -/
def State.withDesc (s : State) (a : W64) (f : List W64 → State → State) : State :=
  match s.myOp.desc with
  | some d => f d s
  | none =>
    match s.seek 0 a 64 rR false with
    | .bad c g r t => s.sliceRaise (mkDue c g r t s.me.arch.pc)
    | .window la =>
      if s.locBad s.cur.lpn s.me.priv (offOf la) 64 then s.sliceRaise (mkDue cPOISON 0 0 (w64 la) s.me.arch.pc)
      else
        let d := (List.range 8).map fun i => w64 (s.locRead s.cur.lpn s.me.priv (offOf la + 8 * i) 8)
        f d (s.modOp s.cur fun q => { q with desc := some d })
    | _ => s

/-- Dword i of a descriptor. -/
def dw (d : List W64) (i : Nat) : W64 := d.getD i 0

/-- The low or high half of a dword as a signed number. -/
def half (hi : Bool) (v : W64) : Int := sint 32 (if hi then v.toNat / 2 ^ 32 else v.toNat % 2 ^ 32)

/-- An offset plus a signed displacement, modulo 2^64. -/
def offPlus (o : W64) (d : Int) : W64 := o + BitVec.ofInt 64 d

/-! ## The operands of an MMA (R349) -/

/-- Bytes of n packed elements (R284). -/
def packedBytes (f : Fmt) (n : Nat) : Nat := n * f.width / 8

/-- Rows of A to visit, minus 1. -/
def mmaMR (d : List W64) : Nat := fld 14 9 (dw d 0)

/-- The reads of the B block and its scales, in order. -/
def mmaBReads (c : MCfg) (d : List W64) (kb : Int) : List Rd :=
  let rows := (List.range c.kb).map fun (k : Nat) =>
    ({ seg := fld 5 3 (dw d 0), off := offPlus (dw d 3) (kb * half true (dw d 4) + (k : Int) * half true (dw d 2)), size := packedBytes c.bf 64 } : Rd)
  let q := c.kb / 32
  let scales := (List.range (if c.sb then q else 0)).map fun (b : Nat) =>
    ({ seg := fld 8 6 (dw d 0), off := offPlus (dw d 6) ((kb * q + (b : Int)) * half true (dw d 7)), size := 64 } : Rd)
  rows ++ scales

/-- The reads of A row r and its scales. -/
def mmaAReads (c : MCfg) (d : List W64) (kb : Int) (r : Nat) : List Rd :=
  let q := c.kb / 32
  let row : Rd := { seg := fld 2 0 (dw d 0), off := offPlus (dw d 1) (kb * half false (dw d 4) + (r : Int) * half false (dw d 2)),
                    size := packedBytes c.af c.kb }
  let scale : Rd := { seg := fld 8 6 (dw d 0), off := offPlus (dw d 5) (kb * q + (r : Int) * half false (dw d 7)), size := q }
  if c.sa then [row, scale] else [row]

/-- The reads that are still to come after those done. -/
def mmaLeft (c : MCfg) (d : List W64) (kb : Int) (q : SliceOp) : List Rd :=
  (mmaBReads c d kb).drop q.vals.length ++ (mmaAReads c d kb q.row).drop q.arow.length ++
    ((List.range (mmaMR d + 1)).filter fun r => q.row < r).flatMap fun r => mmaAReads c d kb r

/-- Does the descriptor break a rule of its fields (R349)? -/
def mmaBad (c : MCfg) (d : List W64) : Bool :=
  fld 63 15 (dw d 0) != 0 ||
    (!c.sa && !c.sb && (fld 8 6 (dw d 0) != 0 || dw d 5 != 0 || dw d 6 != 0 || dw d 7 != 0))

/-- Is a stride or an offset not a multiple of 16 (R349)? -/
def mmaMisaligned (d : List W64) : Bool :=
  [fld 3 0 (dw d 1), fld 3 0 (dw d 3), fld 3 0 (dw d 2), fld 35 32 (dw d 2), fld 3 0 (dw d 4), fld 35 32 (dw d 4)].any fun x => x != 0

/-! ## Groups (R351) -/

/-- Element k of a packed row (R284). -/
def packedElem (f : Fmt) (v k : Nat) : FV := f.decode (v / 2 ^ (f.width * k) % 2 ^ f.width)

/-- Sums of one lane's group: gp, gn, the NAN mark, MINX. -/
structure Grp where
  gp : Nat
  gn : Nat
  nan : Bool
  minx : Bool
  deriving DecidableEq, Repr

/-- Byte k of a row of scales. -/
def scaleByte (v k : Nat) : Nat := v / 2 ^ (8 * k) % 256

/-- Adds product k to a group (R285, R351). -/
def Grp.term (c : MCfg) (a b : FV) (xa xb : Option Nat) (g : Grp) : Grp :=
  let off (x : Option Nat) : Int := match x with
    | some v => (v : Int) - 127
    | none => 0
  match a, b with
  | .fin s m e, .fin t n f =>
    if xa = some 255 || xb = some 255 then { g with nan := true }
    else
      let (q, inexact) := roundInt 0 false (m * n) (e + f + off xa + off xb - c.floor)
      let g := { g with minx := g.minx || (m * n != 0 && inexact) }
      if s = t then { g with gp := g.gp + q.toNat } else { g with gn := g.gn + q.toNat }
  | _, _ => { g with nan := true }

/-- Group(r, j): lane j's group from a row of A and the rows of B with their scales. -/
def group (c : MCfg) (arow vals : List Nat) (j : Nat) : Grp :=
  (List.range c.kb).foldl (fun g k =>
    let xa := if c.sa then some (scaleByte (arow.getD 1 0) (k / 32)) else none
    let xb := if c.sb then some (scaleByte (vals.getD (c.kb + k / 32) 0) j) else none
    g.term c (packedElem c.af (arow.getD 0 0) k) (packedElem c.bf (vals.getD k 0) j) xa xb)
    { gp := 0, gn := 0, nan := false, minx := false }

/-- The lanes of a row, as a mask. -/
def laneMask (l : List Bool) : Nat := l.foldr (fun b n => (if b then 1 else 0) + 2 * n) 0

/-! ## The pairing accumulator (R352, R353) -/

/-- Wrap(c, d). -/
def Acc.wrap (a : Acc) (d : Int) : Acc := if -4 ≤ a.w + d && a.w + d ≤ 3 then { a with w := a.w + d } else { a with ind := true }

/-- Add(c, v). -/
def Acc.add (a : Acc) (v : Int) : Acc :=
  let t := a.acc.toInt + v
  let b := { a with acc := BitVec.ofInt 40 t }
  if t ≥ 2 ^ 39 then b.wrap 1 else if t < -(2 ^ 39) then b.wrap (-1) else b

/-- The release of a visit: a pair, a sum toward zero, or a forced one. -/
def Acc.releaseOne (a : Acc) : Acc :=
  match a.p, a.n with
  | x :: p, y :: n => ({ a with p := p, n := n }).add ((x : Int) - y)
  | x :: p, [] => if a.acc.toInt < 0 || a.p.length ≥ 4 then ({ a with p := p }).add x else a
  | [], y :: n => if a.acc.toInt ≥ 0 || a.n.length ≥ 4 then ({ a with n := n }).add (-(y : Int)) else a
  | [], [] => a

/-- Visit(c, gp, gn). -/
def Acc.visit (a : Acc) (gp gn : Nat) : Acc :=
  let a := if gp > 0 then { a with p := a.p ++ [gp] } else a
  let a := if gn > 0 then { a with n := a.n ++ [gn] } else a
  a.releaseOne

/-- Drains both queues in queue order (R355). -/
def Acc.drain (a : Acc) : Acc :=
  let b := a.p.foldl (fun (x : Acc) (v : Nat) => x.add (v : Int)) { a with p := [] }
  b.n.foldl (fun (x : Acc) (v : Nat) => x.add (-(v : Int))) { b with n := [] }

/-- The value an accumulator stands for, in units of 2^F (R352). -/
def Acc.value (a : Acc) : Int := a.acc.toInt + a.w * 2 ^ 40 + (a.p.sum : Nat) - (a.n.sum : Nat)

/-- Accumulator c[r][j] of a slice. -/
def Matrix.at (m : Matrix) (r j : Nat) : Acc := spGet Acc.init m.acc (64 * r + j)

/-- Changes accumulator c[r][j]. -/
def Matrix.mod (m : Matrix) (r j : Nat) (f : Acc → Acc) : Matrix := { m with acc := spPut m.acc (64 * r + j) (f (m.at r j)) }

/-- Sets bits of the status. -/
def Matrix.flag (m : Matrix) (v : Nat) : Matrix := { m with status := m.status ||| w64 v }

/-- The NAN marks and sticky flags a row's groups raise (R351, R362). -/
def Matrix.marks (m : Matrix) (r : Nat) (gs : List Grp) : Matrix :=
  let m := (List.range 64).foldl (fun m j =>
    match gs[j]? with
    | some g => if g.nan then m.mod r j fun a => { a with nan := true } else m
    | none => m) m
  m.flag ((if gs.any fun g => g.minx then 1 else 0) + (if gs.any fun g => g.nan then 2 else 0))

/-- Visits every lane of a row (R353); TAIL is set if a queue of it holds a sum. -/
def Matrix.visitRow (m : Matrix) (r : Nat) (gp gn : List Nat) : Matrix :=
  let m := (List.range 64).foldl (fun m j => m.mod r j fun a => a.visit (gp.getD j 0) (gn.getD j 0)) m
  let tail := (List.range 64).any fun j => !(m.at r j).p.isEmpty || !(m.at r j).n.isEmpty
  m.flag (if tail then 256 else 0)

/-- The lanes whose group overflows (R351). -/
def overMask (gp gn : List Nat) : Nat :=
  laneMask ((List.range 64).map fun j => gp.getD j 0 ≥ 2 ^ 39 || gn.getD j 0 ≥ 2 ^ 39)

/-! ## Gangs (R357) -/

/-- The threads of a row whose MMA is a member of a started gang, in column order. -/
def State.gangOf (s : State) (row : Nat) : List Who :=
  (List.range 16).filterMap fun i =>
    match (s.proc (s.core (16 * row + i)).host).mx.queue with
    | h :: _ => if h.gang then some h.who else none
    | [] => none

/-- A trap of a slice instruction taken partway: TPROG and P = 1 (R324). -/
def partDue (code seg reason : Nat) (addr : W64) (pc : BitVec 20) (row : Nat) : Due :=
  { mkDue code seg reason addr pc with prog := w64 row, p := true }

/-- Another thread's MMA ends with GANGTO; a parked one is withdrawn (R357). -/
def State.gangStop (s : State) (w : Who) (addr row : Nat) : State :=
  let t := s.slot w
  let s := match t.park with
    | some seq =>
      let s := s.modSlot w fun t => { t with park := none, st := if t.st = SlotSt.parked then .ready else t.st }
      { s with imago := { s.imago with parked := s.imago.parked.filter fun k => k.seq != seq } }
    | none => s
  (s.sliceDone w).raiseFor w (partDue cGANGTO 0 0 (w64 addr) t.arch.pc row)

/-- The current thread's MMA stops at a row with a trap; in a gang every other member takes GANGTO with TADDR 2 (R354,
R357). -/
def State.mmaStop (s : State) (code seg reason : Nat) (addr : W64) (row : Nat) : State :=
  let others := if s.myOp.gang then (s.gangOf (rowOf (s.hostOf s.cur.lpn))).filter fun w => w != s.cur else []
  let s := others.foldl (fun s w => s.gangStop w 2 row) s
  s.sliceRaise (partDue code seg reason addr s.me.arch.pc row)

/-- GANGLIM of the current thread (R356). -/
def State.ganglim (s : State) : Nat := fld 31 0 s.me.regs.ganglim

/-- Joins of a row of cores, in column order. -/
def State.joinsOf (s : State) (row : Nat) : List Join :=
  (List.range 16).filterMap fun i => (s.proc (s.core (16 * row + i)).host).mx.join

/-- What a gang's members compare (R357). -/
def Join.same (a b : Join) : Bool := a.cfg == b.cfg && a.key == b.key && a.mr == b.mr && a.r0 == b.r0

/-- The current MMA joins the gang barrier of its row (R357). -/
def State.gangJoin (s : State) (c : MCfg) (d : List W64) : State :=
  let q := s.myOp
  let lpn := s.cur.lpn
  match (s.proc lpn).mx.join with
  | some _ => s.waitAgain .gang 0 0 fun _ => none
  | none =>
    let v := (s.proc lpn).mx.cfg
    let j : Join := { id := q.id, who := s.cur, cfg := [c.gm, fld 3 0 v, fld 7 4 v, c.floor, if c.sa then 1 else 0, if c.sb then 1 else 0],
                      key := (s.proc lpn).mx.key, mr := mmaMR d, r0 := q.row0 }
    let s := s.modMx lpn fun m => { m with join := some j }
    let s := s.waitAgain .gang s.ganglim 0 fun i => some (.ganglimExpiry s.cur.lpn s.cur.slot i)
    let row := rowOf (s.hostOf lpn)
    if (s.joinsOf row).length = 16 then s.post (.gangStart row) else s

/-- GANG_START: every core of the row has joined; the parameters agree and the gang starts, or every core takes GANGTO
with TADDR 1 (R357). -/
def execGangStart (row : Nat) (s : State) : Out :=
  let js := s.joinsOf row
  .next (if js.length != 16 then s
    else
      let agree := js.all fun j => js.all fun k => j.same k
      if agree then
        js.foldl (fun s j =>
          let s := (s.modMx j.who.lpn fun m => { m with join := none }).modOp j.who fun q => { q with gang := true }
          (s.endWait j.who).wake j.who) s
      else js.foldl (fun s j => s.gangStop j.who 1 j.r0) s)

/-- GANGLIM_EXPIRY: a core that has waited GANGLIM cycles is withdrawn; a start in the same cycle wins (R357). -/
def execGanglimExpiry (lpn slot id : Nat) (s : State) : Out :=
  let w : Who := { lpn := lpn, slot := slot }
  .next (match (s.slot w).wait, (s.proc lpn).mx.join with
    | some x, some j =>
      if x.kind = .gang && x.id = id && j.who = w && (s.joinsOf (rowOf (s.hostOf lpn))).length != 16 then s.gangStop w 0 j.r0 else s
    | _, _ => s)

/-! ## MMA (R354, R358) -/

/-- The threads that visit a row together, the current one alone when it is solo. -/
def State.members (s : State) : List Who :=
  if s.myOp.gang then s.gangOf (rowOf (s.hostOf s.cur.lpn)) else [s.cur]

/-- Does a member hold its row of A with its scales? -/
def State.holdsRow (s : State) (c : MCfg) (w : Who) : Bool :=
  match s.opOf w with
  | some q => q.arow.length = (if c.sa then 2 else 1)
  | none => false

/-- The groups of a member's row. -/
def State.rowGroups (s : State) (c : MCfg) (w : Who) : List Grp :=
  match s.opOf w with
  | some q => (List.range 64).map fun j => group c q.arow q.vals j
  | none => []

/-- Sums of lists, place by place. -/
def sumLists (l : List (List Nat)) : List Nat := (List.range 64).map fun j => (l.map fun x => x.getD j 0).sum

/-- What a row's visits use: whose accumulators, and the sums; the lead alone and the totals in a K-split (R358). -/
def visitSets (gm : Nat) (gs : List (Who × List Grp)) : List (Who × List Nat × List Nat) :=
  let sums (g : List Grp) : List Nat × List Nat := (g.map fun x => x.gp, g.map fun x => x.gn)
  if gm = 2 then
    match gs with
    | (w, _) :: _ => [(w, sumLists (gs.map fun x => (sums x.2).1), sumLists (gs.map fun x => (sums x.2).2))]
    | [] => []
  else gs.map fun x => (x.1, sums x.2)

/-- One row: groups, marks, the overflow check, and the visits; every member's row goes on (R351 to R354, R357, R358). -/
def State.mmaRow (s : State) (c : MCfg) : State :=
  let ws := s.members
  let gs := ws.map fun w => (w, s.rowGroups c w)
  let r := s.myOp.row
  let s := gs.foldl (fun s x => s.modMx x.1.lpn fun m => m.marks r x.2) s
  let s := match c.gm, ws with
    | 2, lead :: _ => gs.foldl (fun s x => s.modMx lead.lpn fun m => m.marks r x.2) s
    | _, _ => s
  let sets := visitSets c.gm gs
  let bad := sets.filter fun x => overMask x.2.1 x.2.2 != 0
  if !bad.isEmpty then
    let stop (s : State) (w : Who) : State :=
      match bad.find? fun x => x.1 == w with
      | some x =>
        let pc := (s.slot w).arch.pc
        (s.sliceDone w).raiseFor w (partDue cGROUPOVF 0 0 (w64 (overMask x.2.1 x.2.2)) pc r)
      | none => s.gangStop w 2 r
    { ws.foldl stop s with bst := .stop }
  else
    let s := sets.foldl (fun s x => s.modMx x.1.lpn fun m => m.visitRow r x.2.1 x.2.2) s
    ws.foldl (fun s w =>
      let s := s.modOp w fun q => { q with row := r + 1, arow := [] }
      if w = s.cur then s else s.wake w) s

/-- The steps of an MMA: its reads in order and its rows, until it is over or has to wait. -/
def State.mmaRun (c : MCfg) (d : List W64) (kb : Int) : Nat → State → State
  | 0, s => s.sliceWait
  | n + 1, s =>
    let q := s.myOp
    let rows := mmaMR d + 1
    let breads := mmaBReads c d kb
    if rows ≤ q.row then s.sliceDone s.cur
    else
      let next := match breads[q.vals.length]? with
        | some r => some (r, true)
        | none => ((mmaAReads c d kb q.row)[q.arow.length]?).map fun r => (r, false)
      match next with
      | some (r, isB) =>
        match s.tileRead r ((mmaLeft c d kb q).drop 1) with
        | (s, .stop) => s
        | (s, .trap code g why la) => s.mmaStop code g why la (if isB then q.row0 else q.row)
        | (s, .value v) =>
          let s := s.modOp s.cur fun q => if isB then { q with vals := q.vals ++ [v] } else { q with arow := q.arow ++ [v] }
          State.mmaRun c d kb n (s.tileKeep (mmaLeft c d kb s.myOp))
      | none =>
        if s.members.all fun w => s.holdsRow c w then
          let s := s.mmaRow c
          if s.bst = .stop then s else State.mmaRun c d kb n s
        else s.sliceWait

/-- MMA (R349, R354); it waits while a swap is accepted (R448). -/
def execMma (r : AR) (s : State) : Out :=
  .next (s.when r.g fun s =>
    if s.swapping then s.waitAgain .swap 0 0 fun _ => none else s.sliceTurn fun s =>
    let m := s.myProc.mx
    match mcfg m.cfg with
    | none => s.sliceIllop s.bword
    | some c =>
      if !m.live then s.sliceIllop s.bword
      else match s.myOp.inv with
        | some (why, la) => s.mmaStop cXLATE 0 why la s.myOp.row
        | none => s.withDesc (s.rd r.a) fun d s =>
          if mmaBad c d then s.sliceIllop (s.rd r.a)
          else if mmaMisaligned d then s.sliceRaise (mkDue cALIGN 0 0 (s.rd r.a) s.me.arch.pc)
          else if c.gm != 0 && !s.myOp.gang then s.gangJoin c d
          else s.mmaRun c d (s.rdB r.b r.x).toInt 512)

/-! ## MEND (R355) -/

/-- The rows of the residue pass: the slice after it, and the row and code at which it stops. -/
def Matrix.residue (m : Matrix) (r : Nat) : Nat → Matrix × Option (Nat × Nat × Nat)
  | 0 => (m, none)
  | n + 1 =>
    let m := (List.range 64).foldl (fun m j => m.mod r j Acc.drain) m
    let ind := laneMask ((List.range 64).map fun j => (m.at r j).ind)
    let past := laneMask ((List.range 64).map fun j => (m.at r j).w != 0)
    if ind != 0 then (m.flag 512, some (r, cACCIND, ind))
    else if past != 0 then (m.flag 1024, some (r, cACCOVF, past))
    else m.residue (r + 1) n

/-- MEND (R355). -/
def execMend (r : AR) (s : State) : Out :=
  .next (s.when r.g fun s => s.sliceTurn fun s =>
    let m := s.myProc.mx
    if !m.live then s.sliceIllop s.bword
    else
      let r0 := s.myOp.row0
      let (m, stop) := m.residue r0 (64 - r0)
      let s := s.modMx s.cur.lpn fun x => { m with queue := x.queue }
      match stop with
      | some (row, code, mask) => s.sliceRaise (partDue code 0 0 (w64 mask) s.me.arch.pc (row + 1))
      | none => (s.modMx s.cur.lpn fun m => { m with status := setBit 8 false m.status }).sliceDone s.cur)

/-! ## MSTO (R359 to R361) -/

/-- v^1024. -/
def pow1024 (v : Nat) : Nat := ((((v ^ 4) ^ 4) ^ 4) ^ 4) ^ 4

/-- X[k]: the binary32 nearest 2^(k/1,024), as a 24-bit significand, found bit by bit (R360). -/
def exp2Table (k : Nat) : Nat :=
  let t := 2 ^ (23 * 1024 + k)
  let y := (List.range 24).foldl (fun y i => let z := y + 2 ^ (23 - i); if pow1024 z ≤ t then z else y) 0
  if pow1024 (2 * y + 1) ≤ 2 ^ (24 * 1024 + k) then y + 1 else y

/-- Exp2 (R360) and whether MNX is set. Beyond ±400 the exponent no longer changes how any format rounds the result. -/
def exp2F : FV → FV × Bool
  | .inf s => (if s then .fin false 0 0 else .inf false, false)
  | .fin s m e =>
    let (t, inexact) := roundInt 0 s m (e + 10)
    let n := min (max (t / 1024) (-400)) 400
    (.fin false (exp2Table (t % 1024).toNat) (n - 23), inexact)
  | v => (v, false)

/-- The matrix status bits of what Round raises (R360, R362). -/
def mxFlags (f : Nat) : Nat :=
  (if f / fNX % 2 = 1 then 4 else 0) + (if f / fUF % 2 = 1 then 8 else 0) + (if f / fOF % 2 = 1 then 16 else 0) +
    (if f / fNV % 2 = 1 then 32 else 0)

/-- Element(c, j) (R360): the encoding and the status bits. -/
def mstoElem (d : List W64) (floor : Int) (a : Acc) (bias : Nat) : Nat × Nat :=
  let d0 := dw d 0
  let f := Fmt.ofCode (fld 3 0 d0)
  if a.nan || a.ind then (f.canon, 32)
  else
    let v0 := a.value
    let v : FV := .fin (v0 < 0) v0.natAbs (floor + sint 8 (fld 29 22 d0))
    let v := if tb 16 d0 then (addF 0 v (Fmt.decode .b32 bias)).1 else v
    if v.isNan || (tb 16 d0 && (Fmt.decode .b32 bias).isNan) then (f.canon, 32)
    else
      let v := if tb 17 d0 && cmpF false v (.fin false 0 0) < 0 then .fin false 0 0 else v
      let lo := Fmt.decode .b32 (fld 31 0 (dw d 4))
      let hi := Fmt.decode .b32 (fld 63 32 (dw d 4))
      let v := if tb 18 d0 then
          let v := if cmpF false v lo < 0 then lo else v
          if cmpF false v hi > 0 then hi else v
        else v
      let (v, nx) := if tb 19 d0 then exp2F v else (v, false)
      let (w, fl) := round f 0 (tb 30 d0) v
      (w, mxFlags fl ||| (if nx then 4 else 0))

/-- Does the descriptor break a rule of its fields (R359)? -/
def mstoBad (d : List W64) : Bool :=
  let d0 := dw d 0
  let eb := tb 16 d0
  let ec := tb 18 d0
  let nan (v : Nat) : Bool := (Fmt.decode .b32 v).isNan
  7 ≤ fld 3 0 d0 || fld 63 31 d0 != 0 || fld 63 32 (dw d 2) != 0 || dw d 5 != 0 || dw d 6 != 0 || dw d 7 != 0 ||
    (!eb && (fld 9 7 d0 != 0 || dw d 3 != 0)) || (!ec && dw d 4 != 0) || nan (fld 31 0 (dw d 4)) || nan (fld 63 32 (dw d 4))

/-- Size and number of the writes of a row: its elements, or its bytes where elements are not whole bytes (R284, R361). -/
def mstoUnits (f : Fmt) : Nat × Nat := if f = .t6 then (1, 48) else (f.width / 8, 64)

/-- What stands in the way of a write of n bytes. -/
inductive PutRes where
  | ok
  /-- A commit holds the line. -/
  | later
  /-- The home slice is to be asked first. -/
  | ask
  | park (f : XFault) (la : Nat)
  | fail (code seg reason : Nat) (la : W64)
  deriving DecidableEq, Repr

/-- May an element be written at a paged address, whose home slice has answered (R39, R42, R121, R124, R140)? -/
def State.putPaged (s : State) (la : Nat) : PutRes :=
  let p := s.myProc
  if !(s.myOp.ready.contains (la / 128)) then .ask
  else match s.xlate p s.me.priv true la with
  | .off => .fail cXLATE 0 3 (w64 la)
  | .wait => .ask
  | .fault f => .park f la
  | .ok l1 l2 mt =>
    if mt = 2 then .fail cXLATE 0 2 (w64 la)
    else if p.vmid = 0 && !(rangeOf l2.hpa).named && s.me.priv != 2 then .ok
    else if l2.b || (s.blockOf p.vmid l1.gpa).isSome || (s.repairs.any fun x => x.vmid == p.vmid && x.gpa / 128 == l1.gpa / 128) then .ask
    else if s.secBad p.vmid l1.gpa l2.hpa then .fail cPOISON 0 0 (w64 la)
    else if s.lineHeld (.paged p.vmid (l1.gpa / 256)) none then .later
    else .ok

/-- May an element be written at a window address (R31, R140, R480)? -/
def State.putWindow (s : State) (seg la n : Nat) : PutRes :=
  let tgt := lpnOf la
  if s.awayFrozen tgt then .later
  else if tgt != s.cur.lpn && !jobCheck (s.tagOf s.cur) (s.proc tgt) then .fail cSEGV seg 5 (w64 la)
  else if s.lineHeld (locLine tgt (offOf la)) none then .later
  else if s.locBad tgt s.me.priv (offOf la) n then .fail cPOISON 0 0 (w64 la)
  else .ok

/-- Writes one element as an engine does (R150). -/
def State.mstoWrite (s : State) (paged : Bool) (la n v : Nat) : State :=
  if paged then
    (s.enginePaged s.cur.lpn s.me.priv true la n (w64 v)).1
  else
    let tgt := lpnOf la
    ((s.reaches tgt).squashReaders (locLine tgt (offOf la)) none).locWrite tgt s.me.priv (offOf la) n v

/-- The end of a store: its completion entry, then a trap or the end of the instruction (R309, R361). -/
def State.mstoEnd (s : State) (tag : BitVec 16) (status reason row : Nat) (trap : Option Due) : State :=
  let q := s.myOp
  let e : InEnt := { id := q.id, who := s.cur, lid := s.me.lid, w0 := entryWord tag 3 status 0 (if 1 ≤ status && status ≤ 6 then 1 else 0) reason,
                     w1 := w64 row }
  ((s.modOp s.cur fun q => { q with fin := some trap }).offerEntry s.cur.lpn e).sliceWait

/-- A failed store: the status that matches the trap (R314, R361). -/
def State.mstoFail (s : State) (tag : BitVec 16) (code seg reason : Nat) (la : W64) : State :=
  let row := s.myOp.row
  let status := if code = cSEGV then (if reason = 5 then 6 else 1) else if code = cALIGN then 2
    else if code = cPOISON then 4 else if reason = 2 then 5 else 3
  s.mstoEnd tag status (if status = 1 || status = 3 then reason else 0) row (some (partDue code seg reason la s.me.arch.pc row))

/-- Asks the home slices of the row's sectors, each by the address of its first element, in order (R38, R39, R49, R361). -/
def State.storeAsk (s : State) (tag : BitVec 16) (secs : List Nat) : State :=
  match secs with
  | [] => if s.myOp.wants.isEmpty then { s with bst := .stop } else s.sliceWait
  | a :: rest =>
    let p := s.myProc
    let park (s : State) (f : XFault) : State := (s.modOp s.cur fun q => { q with wants := [], asked := [], ready := [] }).parkMe 1 f a
    let (s, x) := s.leafNow p s.cur a
    match x with
    | .off => s.mstoFail tag cXLATE 0 3 (w64 a)
    | .wait => { s with bst := .stop }
    | .bad f => park s f
    | .ok l =>
      if !rights1 s.me.priv true l.w l.u then park s { kind := 1, level := l.level, sub := 0, gpa := l.ent }
      else if p.vmid = 0 && !(rangeOf l.gpa).named && s.me.priv != 2 then
        (s.modOp s.cur fun q => { q with ready := addNew (a / 128) q.ready }).storeAsk tag rest
      else
        let id := s.nextId
        let s := s.sendItem (s.hostOf s.cur.lpn) (.pg (s.pgReq (.eng true 0 0) a l))
        (s.modOp s.cur fun q =>
          { q with wants := q.wants ++ [id], asked := q.asked ++ [(id, a)], ready := q.ready.filter fun x => x != a / 128 }).storeAsk tag rest

/-- The first of the addresses of a row in each of its sectors that is still to be asked for. -/
def State.rowAsks (s : State) (units : List Nat) : List Nat :=
  (units.filter fun a => s.putPaged a = .ask).foldl (fun l a => if l.any fun b => b / 128 == a / 128 then l else l ++ [a]) []

/-- A row of the store: its elements, their checks and then their writes (R360, R361). -/
def State.mstoRow (s : State) (tag : BitVec 16) (d : List W64) (k : State → State) : State :=
  let q := s.myOp
  let r := q.row
  let d0 := dw d 0
  let f := Fmt.ofCode (fld 3 0 d0)
  let m := s.myProc.mx
  let floor := match mcfg m.cfg with
    | some c => c.floor
    | none => sint 9 (fld 16 8 m.cfg)
  let es := (List.range 64).map fun j => mstoElem d floor (m.at r j) (q.vals.getD 0 0 / 2 ^ (32 * j) % 2 ^ 32)
  let bits := es.foldr (fun e n => e.1 + 2 ^ f.width * n) 0
  let (size, count) := mstoUnits f
  let seg := fld 6 4 d0
  let off := offPlus (dw d 1) ((r : Int) * half false (dw d 2))
  let go (paged : Bool) (la : Nat) (s : State) : State :=
    let units := (List.range count).map fun i => la + size * i
    let bad := units.findSome? fun a =>
      let x := if paged then s.putPaged a else s.putWindow seg a size
      if x = .ok then none else some x
    match bad with
    | some (.fail c g why a) => s.mstoFail tag c g why a
    | some (.park x a) => (s.modOp s.cur fun q => { q with ready := [], asked := [] }).parkMe 1 x a
    | some .ask => if s.myOp.wants.isEmpty then s.storeAsk tag (s.rowAsks units) else s.sliceWait
    | some _ => { s with bst := .stop }
    | none =>
      let s := (List.range count).foldl (fun s i => s.mstoWrite paged (la + size * i) size (bits / 2 ^ (8 * size * i) % 2 ^ (8 * size))) s
      let fl := es.foldl (fun n e => n ||| e.2) 0
      let s := s.modMx s.cur.lpn fun m =>
        let m := m.flag fl
        if tb 21 d0 then (List.range 64).foldl (fun m j => m.mod r j fun _ => Acc.init) m else m
      k (s.modOp s.cur fun q => { q with row := r + 1, ready := [], asked := [] })
  match s.segCheck (s.hostOf s.cur.lpn) (s.seg s.cur seg) seg off.toNat (size * count) rW false 0 with
  | .bad c g why a => s.mstoFail tag c g why a
  | .ask l => s.askPlace l
  | .window la => go false la s
  | .paged la => go true la s

/-- The rows of a store, until it is over or has to wait. -/
def State.mstoRun (tag : BitVec 16) (d : List W64) : Nat → State → State
  | 0, s => s.sliceWait
  | n + 1, s =>
    let q := s.myOp
    if fld 15 10 (dw d 0) < q.row then s.mstoEnd tag 0 0 (fld 15 10 (dw d 0) + 1) none
    else if q.halt then s.mstoEnd tag 8 0 q.row none
    else s.mstoRow tag d (State.mstoRun tag d n)

/-- The bias vector is read first (R359, R363). -/
def State.mstoBias (s : State) (tag : BitVec 16) (d : List W64) (k : State → State) : State :=
  if !(tb 16 (dw d 0)) || !s.myOp.vals.isEmpty then k s
  else match s.tileRead { seg := fld 9 7 (dw d 0), off := dw d 3, size := 256 } [] with
    | (s, .stop) => s
    | (s, .trap c g why la) => s.mstoFail tag c g why la
    | (s, .value v) => k ((s.modOp s.cur fun q => { q with vals := [v] }).tileKeep [])

/-- MSTO (R359, R361). -/
def execMsto (r : AR) (s : State) : Out :=
  .next (s.when r.g fun s => s.sliceTurn fun s =>
    let q := s.myOp
    let tag := s.tagArg r
    match q.fin with
    | some trap =>
      if s.myProc.inWait.any fun e => e.id == q.id then s.sliceWait
      else match trap with
        | some t => s.sliceRaise t
        | none =>
          let d0 := dw (q.desc.getD []) 0
          let whole := fld 15 10 d0 < q.row
          (s.modMx s.cur.lpn fun m => { m with status := if tb 20 d0 && whole then setBit 6 false m.status else m.status }).sliceDone s.cur
    | none =>
      if !s.myProc.mx.live then s.sliceIllop s.bword
      else match q.inv with
        | some (why, la) => s.mstoFail tag cXLATE 0 why la
        | none => s.withDesc (s.rd r.a) fun d s =>
          if mstoBad d then s.sliceIllop (s.rd r.a)
          else if fld 3 0 (dw d 1) != 0 || fld 3 0 (dw d 2) != 0 then s.sliceRaise (mkDue cALIGN 0 0 (s.rd r.a) s.me.arch.pc)
          else
            let s := if q.msto then s else s.engineStarts.modOp s.cur fun q => { q with msto := true, tag := tag }
            s.mstoBias tag d (State.mstoRun tag d 65))

/-! ## Cancel (R365) -/

/-- A cancel stops the slice instruction of a cancelled thread: a started store places its entry with status cancelled, the
other members of a running gang take GANGTO (R357, R365). -/
def State.sliceCancel (s : State) (w : Who) : State :=
  match s.opOf w with
  | none => s
  | some q =>
    let s := if q.msto && q.fin.isNone then
        s.offerEntry w.lpn { id := q.id, who := w, lid := (s.slot w).lid, w0 := entryWord q.tag 3 7 0 0 0, w1 := w64 q.row }
      else s
    let left := q.row ≤ mmaMR (q.desc.getD [])
    let others := if q.gang && left then (s.gangOf (rowOf (s.hostOf w.lpn))).filter fun x => x != w else []
    let s := others.foldl (fun s x => s.gangStop x 2 q.row) s
    s.sliceDone w

end Sys2Proof.Machine
end

