-- ==== Sys2Proof/Machine/Field.lean ====
section
/-!
DEFINITION. Positions, fields and migration by instruction (22 R419 to R431): the field registers and table, SETPOS,
GETPOS, PUBL, NEIGH, NEXTN, MIGR, and the phases of a step.
-/

namespace Sys2Proof.Machine

/-! ## Bins and the field table (R420) -/

/-- k of a field. -/
def fieldK (cfg : W64) : Nat := fld 14 11 cfg + 1

/-- NBX, the bins of a row of the plane. -/
def fieldNBX (cfg : W64) : Nat := fieldW cfg * fieldK cfg

/-- NBY, the rows of the plane. -/
def fieldNBY (cfg : W64) : Nat := fieldH cfg * fieldK cfg

/-- A coordinate of a position: 0 x, 1 y, 2 z (R423). -/
def coord (i : Nat) (pos : BitVec 60) : Nat := pos.toNat / 2 ^ (20 * i) % 2 ^ 20

/-- Bin(v): (bx, by). -/
def binOf (cfg : W64) (pos : BitVec 60) : Nat × Nat :=
  (min (coord 0 pos / 2 ^ fld 5 1 cfg) (fieldNBX cfg - 1), min (coord 1 pos / 2 ^ fld 10 6 cfg) (fieldNBY cfg - 1))

/-- Number of a bin in the table. -/
def binIndex (cfg : W64) (b : Nat × Nat) : Nat := b.2 * fieldNBX cfg + b.1

/-- The bin with a number. -/
def binAt (cfg : W64) (i : Nat) : Nat × Nat := (i % fieldNBX cfg, i / fieldNBX cfg)

/-- Field index of a core (R420). -/
def fieldIndex (cfg : W64) (core : Nat) : Nat := (meshY core - fld 40 34 cfg) * fieldW cfg + (meshX core - fld 33 28 cfg)

/-- Linear address of a table entry. -/
def tableAddr (p : Proc) (i : Nat) : Nat := fld 54 1 p.ftab * 2 + 2 * i

/-- What a table access comes to. -/
inductive TabRes where
  /-- The owner's field index. -/
  | owner (n : Nat)
  | park (f : XFault) (la : Nat)
  | trap (code reason : Nat) (la : W64)
  | later
  deriving DecidableEq, Repr

/-- What an element access to the table comes to. -/
def TabRes.ofEng (la : Nat) : EngRes → TabRes
  | .value v => .owner v.toNat
  | .wrote => .owner 0
  | .park f a => .park f a
  | .stop status reason a =>
    if status = 3 then .trap cXLATE reason a else if status = 4 then .trap cPOISON 0 a else .trap cXLATE 2 (w64 la)
  | _ => .later

/-- Reads a table entry for a process; between steps an entry is read once (R420). -/
def State.tableRead (s : State) (lpn i : Nat) : State × TabRes :=
  let p := s.proc lpn
  if spHas p.ftabs i then (s, .owner (spGet 0 p.ftabs i))
  else
    let la := tableAddr p i
    match s.enginePaged lpn 1 false la 2 0 with
    | (s, .value v) => (s.modProc lpn fun p => { p with ftabs := spPut p.ftabs i v.toNat }, .owner v.toNat)
    | (s, r) => (s, .ofEng la r)

/-- Writes a table entry as an engine element (R150, R420). -/
def State.tableWrite (s : State) (lpn i v : Nat) : State × TabRes :=
  let la := tableAddr (s.proc lpn) i
  let (s, r) := s.enginePaged lpn 1 true la 2 (w64 v)
  (s, .ofEng la r)

/-- What follows a table access of the running bundle: it goes on with the owner, parks, traps, or tries again (R420). -/
def State.onTable (s : State) (r : TabRes) (f : Nat → State → State) : State :=
  match r with
  | .owner n => f n s
  | .park x la => s.parkMe 3 x la
  | .trap c why la => s.raise c 0 why la
  | .later => { s with bst := .stop }

/-- Writes the entries of a core's own block, in order. -/
def State.tableBlock (s : State) (lpn v : Nat) : List Nat → State × TabRes
  | [] => (s, .owner 0)
  | i :: l =>
    match s.tableWrite lpn i v with
    | (s, .owner _) => s.tableBlock lpn v l
    | r => r

/-- The bins of a core's own block (R420). -/
def ownBlock (cfg : W64) (core : Nat) : List Nat :=
  let k := fieldK cfg
  let cx := meshX core - fld 33 28 cfg
  let cy := meshY core - fld 40 34 cfg
  (List.range k).flatMap fun j => (List.range k).map fun i => binIndex cfg (k * cx + i, k * cy + j)

/-- Does a FIELDCFG value break a rule of R419 on a core? -/
def fieldcfgBad (p : Proc) (v : W64) : Bool :=
  let en := tb 0 v
  let x0 := fld 33 28 v
  let y0 := fld 40 34 v
  let inside := x0 ≤ meshX p.core && meshX p.core < x0 + fieldW v && y0 ≤ meshY p.core && meshY p.core < y0 + fieldH v
  fld 63 41 v != 0 || (en && !(p.anc || p.lanc)) || (en && fld 23 16 p.lmmap < 4) || 19 < fld 5 1 v || 19 < fld 10 6 v ||
    64 < x0 + fieldW v || 128 < y0 + fieldH v || (en && !inside)

/-- A write of FIELDCFG by the current thread: setting EN writes the core's own block of the table first (R419, R420). -/
def State.writeFieldcfg (s : State) (v : W64) : State :=
  let p := s.myProc
  let lpn := s.cur.lpn
  if fieldcfgBad p v then s.illop
  else
    let install (s : State) : State := s.modProc lpn fun p => { p with fieldcfg := v, ftabs := [] }
    if tb 0 v && !(tb 0 p.fieldcfg) then
      let (s, r) := s.tableBlock lpn (fieldIndex v p.core) (ownBlock v p.core)
      s.onTable r fun _ s => install s
    else install s

/-- FIELDCFG_WRITE (R419, R420). -/
def execFieldcfgWrite (v : W64) (s : State) : Out := .next (s.writeFieldcfg v)

/-! ## Instructions (R424 to R428) -/

/-- SETPOS (R424). -/
def execSetpos (r : AR) (s : State) : Out :=
  .next (s.when r.g fun s =>
    let p := s.myProc
    let v : BitVec 60 := BitVec.ofNat 60 (s.rdB r.b r.x).toNat
    if s.cur.slot = 15 then s.illop
    else if !(tb 0 p.fieldcfg) then s.modMe fun t => { t with pos := v, bound := false }
    else
      let (s, o) := s.tableRead s.cur.lpn (binIndex p.fieldcfg (binOf p.fieldcfg v))
      s.onTable o fun n s =>
        let core := fieldCore p.fieldcfg n
        if core = p.core && s.cur.slot ≤ 13 then s.modMe fun t => { t with pos := v, bound := true }
        else
          let dst := (s.core core).host
          let d : Depart := { dst := dst, why := .setpos, addr := w64 (winAddr dst 0), seg := 0, pos := v, bound := true }
          s.whenCarriable fun s => { s with leaving := some d })

/-- pos as GETPOS reads it (R423). -/
def Slot.posWord (t : Slot) : W64 := w64 (t.pos.toNat + (if t.bound then 2 ^ 63 else 0))

/-- GETPOS (R425). -/
def execGetpos (r : AR) (s : State) : Out := .next (s.when r.g fun s => s.wr r.d s.me.posWord)

/-- PUBL (R425). -/
def execPubl (r : AR) (s : State) : Out := .next (s.when r.g fun s => s.modMe fun t => { t with payload := s.rdB r.b r.x })

/-- The square of a difference. -/
def sqDiff (a b : Nat) : Nat := ((a : Int) - b).natAbs ^ 2

/-- Squared distance of two positions (R427). -/
def dist2 (a b : BitVec 60) : Nat := sqDiff (coord 0 a) (coord 0 b) + sqDiff (coord 1 a) (coord 1 b) + sqDiff (coord 2 a) (coord 2 b)

/-- NEIGH (R427). -/
def execNeigh (r : AR) (s : State) : Out :=
  .next (s.when r.g fun s =>
    let p := s.myProc
    let t := s.me
    let r2 := s.rdB r.b r.x
    let all := if t.bound && tb 0 p.fieldcfg then p.snap ++ p.halo else []
    let ents := all.filter fun e => e.handle != t.snaph.toNat && dist2 e.pos t.pos ≤ r2.toNat
    let q : Query := { pos := t.pos, r2 := r2, self := t.snaph.toNat, ents := ents, cursor := 0 }
    (s.modMe fun t => { t with query := some q }).wr r.d (w64 ents.length))

/-- The entry with the smallest handle from a number on. -/
def nextEntry (c : Nat) : List FieldEnt → Option FieldEnt
  | [] => none
  | e :: l =>
    match nextEntry c l with
    | none => if c ≤ e.handle then some e else none
    | some x => if c ≤ e.handle && e.handle < x.handle then some e else some x

/-- Writes the three registers of NEXTN. -/
def State.wr3 (s : State) (d : Reg) (a b c : W64) : State := ((s.wr d a).wr (d + 1) b).wr (d + 2) c

/-- NEXTN (R428). -/
def execNextn (r : AR) (s : State) : Out :=
  .next (s.when r.g fun s =>
    match s.me.query with
    | none => s.wr3 r.d 0 0 0
    | some q =>
      match nextEntry q.cursor q.ents with
      | none => s.wr3 r.d 0 0 0
      | some e =>
        (s.modMe fun t => { t with query := some { q with cursor := e.handle + 1 } }).wr3 r.d (w64 (2 ^ 63 + e.handle))
          (w64 (2 ^ 63 + e.pos.toNat)) e.payload)

/-- MIGR (R426). A MIGR to the own process moves only a thread of slot 15. -/
def execMigr (r : AR) (s : State) : Out :=
  .next (s.when r.g fun s =>
    let n := fld 18 0 (s.rdB r.b r.x)
    match s.placeLookup (s.hostOf s.cur.lpn) n with
    | .none => s.raise cSEGV 0 4 (w64 n)
    | .ask => s.askPlace n
    | .host _ =>
      if n = s.cur.lpn && s.cur.slot != 15 then s
      else
        let d : Depart := { dst := n, why := .migr, addr := w64 (winAddr n 0), seg := 0, pos := s.me.pos, bound := false }
        s.whenCarriable fun s => { s with leaving := some d })

/-! ## A released thread follows its bin (R429, phase 6) -/

/-- Before its next bundle a released bound thread migrates to the owner of its bin, as SETPOS of its own pos would;
`go` issues the bundle. -/
def State.followBin (s : State) (go : State → State) : State :=
  let t := s.me
  if !t.rebin then go s
  else
    let stay (s : State) : State := s.modMe fun t => { t with rebin := false }
    let p := s.myProc
    if !t.bound || !(tb 0 p.fieldcfg) then go (stay s)
    else
      let (s, o) := s.tableRead s.cur.lpn (binIndex p.fieldcfg (binOf p.fieldcfg t.pos))
      s.onTable o fun n s =>
        let core := fieldCore p.fieldcfg n
        if core = p.core then go (stay s)
        else if !s.me.settled then s.endBefore
        else s.whenCarriable fun s =>
          let s := stay s
          let t := s.me
          let dst := (s.core core).host
          let d : Depart := { dst := dst, why := .setpos, addr := w64 (winAddr dst 0), seg := 0, pos := t.pos, bound := true }
          { s.departWith s.cur d (t.carried t.arch.pc t.pos true) with bst := .stop }

/-! ## Steps (R429, R430) -/

/-- The bound threads of a process in slots 0 to 13, by slot (R421). -/
def Proc.boundSlots (p : Proc) : List (Nat × Slot) := (p.slots.filter fun t => t.1 ≤ 13 && t.2.bound && t.2.st != .absent)

/-- Positions of the residents: bound threads and bound packets of the arrival queue (R421). -/
def Proc.residents (p : Proc) : List (BitVec 60) :=
  p.boundSlots.map (fun t => t.2.pos) ++ (p.arrq.filter fun c => c.ctx.bound).map fun c => c.ctx.pos

/-- The whole table as a core knows it; an entry that cannot be read belongs to nobody (log 34). `none` while an entry's line is busy. -/
def State.tableAll (s : State) (lpn : Nat) : State × Option (List (Nat × Nat)) :=
  let cfg := (s.proc lpn).fieldcfg
  (List.range (fieldNBX cfg * fieldNBY cfg)).foldl (fun (x : State × Option (List (Nat × Nat))) i =>
    match x.2 with
    | none => x
    | some l =>
      match x.1.tableRead lpn i with
      | (s, .owner n) => (s, some (l ++ [(i, n)]))
      | (s, .later) => (s, none)
      | (s, _) => (s, some l)) (s, some [])

/-- Is one bin 4-adjacent to another? -/
def adj4 (a b : Nat × Nat) : Bool :=
  (a.1 == b.1 && (a.2 + 1 == b.2 || b.2 + 1 == a.2)) || (a.2 == b.2 && (a.1 + 1 == b.1 || b.1 + 1 == a.1))

/-- The owners other than n of bins 4-adjacent to a bin, ascending. -/
def ownersNear (cfg : W64) (tab : List (Nat × Nat)) (n : Nat) (b : Nat × Nat) : List Nat :=
  (tab.filter fun e => e.2 != n && adj4 b (binAt cfg e.1)).foldl (fun l e => insNat e.2 l) []

/-- The owner of a bin in a table. -/
def ownerIn (tab : List (Nat × Nat)) (i : Nat) : Option Nat := (tab.find? fun e => e.1 == i).map fun e => e.2

/-- FSTAT at the start of a step: STEP, RES, and HOVF and MIS clear. RES holds at most 15 (log 34). -/
def fstatStep (v : W64) (res : Nat) : W64 := setFld 21 20 0 (setFld 19 16 (min 15 res) (setFld 15 0 (fld 15 0 v + 1) v))

/-- The first of the phases that are left of an owner's step is posted. -/
def State.postPhase (s : State) (owner : Nat) : State :=
  match (s.proc owner).fsteps with
  | f :: _ => s.postAll (f.todo.take 1)
  | [] => s

/-- Every core of the rectangle has taken the notice: the later phases follow in order for those that take part. -/
def State.stepPhases (s : State) (owner : Nat) (parts : List Nat) : State :=
  let pairs := parts.flatMap fun c => (parts.filter fun x => x != c).map fun x => (c, x)
  let evs : List Ev := parts.map (fun c => .fieldHandover c) ++ parts.map (fun c => .fieldSnapshot c) ++
    pairs.map (fun x => .fieldHaloCopy x.1 x.2) ++ [.fieldStepRelease owner]
  (s.modProc owner fun p =>
    { p with fsteps := match p.fsteps with
        | f :: l => { f with todo := evs } :: l
        | [] => [] }).postPhase owner

/-- A part of a phase is done: the next one of the step follows. -/
def State.phaseDone (s : State) (e : Ev) : State :=
  let due (p : Nat × Proc) : Bool := match p.2.fsteps with
    | f :: _ => f.todo.head? == some e
    | [] => false
  match s.procs.find? due with
  | none => s
  | some (owner, _) =>
    (s.modProc owner fun p =>
      { p with fsteps := match p.fsteps with
          | f :: l => { f with todo := f.todo.drop 1 } :: l
          | [] => [] }).postPhase owner

/-- A table access of a phase stands before a busy line or a blocked page: the phase goes on a cycle later (R49, R140). -/
def State.phaseLater (s : State) (e : Ev) : State := s.after .network 1 e

/-- FIELD_STEP_NOTICE: phases 1 and 2 at a core (R429). -/
def execFieldStepNotice (core owner : Nat) (gen : BitVec 16) (s : State) : Out :=
  let lpn := (s.core core).host
  .next (match (s.proc owner).fsteps with
    | [] => s
    | f :: rest =>
      if f.gen != gen || !f.left.contains core then s
      else
        let cfg := (s.proc owner).fieldcfg
        let same := (s.proc lpn).fieldcfg == cfg
        let f := { f with left := f.left.filter (fun c => c != core), parts := if same then f.parts ++ [core] else f.parts }
        let go (s : State) : State :=
          let s := s.modProc owner fun p => { p with fsteps := f :: rest }
          if f.left.isEmpty then s.stepPhases owner f.parts else s
        if !same then go (s.modProc lpn fun p => { p with fstat := setBit 21 true p.fstat })
        else
          match s.tableAll lpn with
          | (s, none) => s.phaseLater (.fieldStepNotice core owner gen)
          | (s, some tab) =>
            let n := (s.proc lpn).residents.length
            let s := s.modProc lpn fun p =>
              { p with fstat := fstatStep p.fstat n, nbrs := spPut p.nbrs core n, snap := [], halo := [] }
            let me := fieldIndex cfg core
            let near := (tab.filter fun e => e.2 == me).foldl (fun l e => (ownersNear cfg tab me (binAt cfg e.1)).foldl (fun l x => insNat x l) l) []
            go (s.postAll (near.map fun i => .fieldResidentCount (fieldCore cfg i) core n)))

/-- FIELD_RESIDENT_COUNT: a neighbour's count reaches a core (R429, phase 2). -/
def execFieldResidentCount (core src n : Nat) (s : State) : Out :=
  .next (s.modProc (s.core core).host fun p => { p with nbrs := spPut p.nbrs src n })

/-- Best of a list by a rank, the first of equals. -/
def bestBy {α : Type} (rank : α → Nat) : List α → Option α
  | [] => none
  | a :: l =>
    match bestBy rank l with
    | none => some a
    | some b => if rank b < rank a then some b else some a

/-- The bin a core hands away and the field index it goes to (R430). Bins come in table order, lowest by and bx first. -/
def handOver (p : Proc) (core : Nat) (tab : List (Nat × Nat)) : Option (Nat × Nat) :=
  let cfg := p.fieldcfg
  let me := fieldIndex cfg core
  let limit := fld 3 0 p.crowd
  let edge := tab.filter fun e => e.2 == me && !(ownersNear cfg tab me (binAt cfg e.1)).isEmpty
  let here (i : Nat) : Nat := (p.residents.filter fun x => binIndex cfg (binOf cfg x) == i).length
  match bestBy (fun e => 1000 - here e.1) edge with
  | none => none
  | some (i, _) =>
    let count (n : Nat) : Nat := spGet 0 p.nbrs (fieldCore cfg n)
    let tgt := (ownersNear cfg tab me (binAt cfg i)).filter fun n => count n < limit
    (bestBy count tgt).map fun n => (i, n)

/-- FIELD_HANDOVER: phase 3 at a core (R430). -/
def execFieldHandover (core : Nat) (s : State) : Out :=
  let lpn := (s.core core).host
  let e : Ev := .fieldHandover core
  .next (if spGet 0 (s.proc lpn).nbrs core ≤ fld 3 0 (s.proc lpn).crowd then s.phaseDone e
    else
      match s.tableAll lpn with
      | (s, none) => s.phaseLater e
      | (s, some tab) =>
        match handOver (s.proc lpn) core tab with
        | none => s.phaseDone e
        | some (i, n) =>
          match s.tableWrite lpn i n with
          | (s, .owner _) =>
            let s := forEach (fieldCores (s.proc lpn).fieldcfg) s fun s c =>
              s.modProc (s.core c).host fun p => { p with ftabs := spDel p.ftabs i }
            s.phaseDone e
          | (s, .later) => s.phaseLater e
          | (s, _) => s.phaseDone e)

/-- The process that hosts the owner of a position's bin, in a core's view of the table. -/
def State.binHost (s : State) (lpn : Nat) (pos : BitVec 60) : State × Option Nat :=
  let cfg := (s.proc lpn).fieldcfg
  match s.tableRead lpn (binIndex cfg (binOf cfg pos)) with
  | (s, .owner n) => (s, some (s.core (fieldCore cfg n)).host)
  | (s, _) => (s, none)

/-- FIELD_SNAPSHOT: phase 4 at a core. An entry goes to the snapshot of its bin's owner (R429). -/
def execFieldSnapshot (core : Nat) (s : State) : Out :=
  let lpn := (s.core core).host
  let ev : Ev := .fieldSnapshot core
  .next (match s.tableAll lpn with
    | (s, none) => s.phaseLater ev
    | (s, some _) =>
      let p := s.proc lpn
      let cfg := p.fieldcfg
      let s := p.boundSlots.foldl (fun s t =>
        let h := s.coreNumber core * 16 + t.1
        let e : FieldEnt := { handle := h, pos := t.2.pos, payload := t.2.payload }
        let (s, o) := s.binHost lpn t.2.pos
        let tgt := match o with
          | some l => if (s.proc l).fieldcfg == cfg then l else lpn
          | none => lpn
        (s.modProc tgt fun p => { p with snap := p.snap ++ [e] }).modSlot { lpn := lpn, slot := t.1 } fun t => { t with snaph := BitVec.ofNat 32 h }) s
      let low (c : Carry) : Carry := { c with ctx := { c.ctx with snaph := 0 } }
      (s.modProc lpn fun p => { p with arrq := mapIf (fun c => c.ctx.bound) low p.arrq }).phaseDone ev)

/-- Puts an entry into a halo table, in the order of handles. -/
def haloIns (e : FieldEnt) : List FieldEnt → List FieldEnt
  | [] => [e]
  | a :: l => if e.handle < a.handle then e :: a :: l else if e.handle = a.handle then a :: l else a :: haloIns e l

/-- Do two bins touch, by a side or a corner (R429, phase 5)? -/
def touching (a b : Nat × Nat) : Bool :=
  max (max a.1 b.1 - min a.1 b.1) (max a.2 b.2 - min a.2 b.2) == 1

/-- FIELD_HALO_COPY: phase 5 from one core to another; a halo table keeps the 256 smallest handles (R429). -/
def execFieldHaloCopy (core src : Nat) (s : State) : Out :=
  let lpn := (s.core core).host
  let cfg := (s.proc lpn).fieldcfg
  let ev : Ev := .fieldHaloCopy core src
  .next (match s.tableAll lpn with
    | (s, none) => s.phaseLater ev
    | (s, some tab) =>
      let mine := (tab.filter fun e => e.2 == fieldIndex cfg core).map fun e => binAt cfg e.1
      let ents := (s.proc (s.core src).host).snap.filter fun e => mine.any fun b => touching (binOf cfg e.pos) b
      (s.modProc lpn fun p =>
        let h := ents.foldl (fun l e => haloIns e l) p.halo
        { p with halo := h.take 256, fstat := if 256 < h.length then setBit 20 true p.fstat else p.fstat }).phaseDone ev)

/-- A thread released from a step looks for the owner of its bin before its next bundle (R429, phase 6). -/
def State.rebind (s : State) (w : Who) : State := s.modSlot w fun t => if t.bound then { t with rebin := true } else t

/-- FIELD_STEP_RELEASE: phase 6, and the next step of this owner if one is due (R429). -/
def execFieldStepRelease (owner : Nat) (s : State) : Out :=
  .next (match (s.proc owner).fsteps with
    | [] => s
    | f :: rest =>
      let s := f.held.foldl (fun s x => (s.releaseBar owner f.gen x).rebind x.who) s
      (s.modProc owner fun p => { p with fsteps := rest }).startStep owner)

end Sys2Proof.Machine
end

