-- ==== Sys2Proof/Machine/Flutter.lean ====
section
/-!
DEFINITION. Flutter (23 R433 to R451): the placement table and its caches, forwarding, weights and sweeps, proposals and
their decision, the swap, and WHERE, ANCHOR and PEER.
-/

namespace Sys2Proof.Machine

/-! ## Placement and forwarding (R433, R434, R449) -/

/-- An entry of the placement table. -/
def State.placeOf (s : State) (lpn : Nat) : Place := spGet Place.init s.place lpn

/-- Changes an entry of the placement table. -/
def State.modPlace (s : State) (lpn : Nat) (f : Place → Place) : State := { s with place := spPut s.place lpn (f (s.placeOf lpn)) }

/-- Puts an entry into a placement cache of 256 (R433). -/
def cachePut (lpn core : Nat) (l : List (Nat × Nat)) : List (Nat × Nat) := capped 256 ((l.filter fun e => e.1 != lpn) ++ [(lpn, core)])

/-- PLACEMENT_LOOKUP: the arbiter answers a core, records it as a cacher, and its threads go on (R433). -/
def execPlacementLookup (core lpn : Nat) (s : State) : Out :=
  let s := if spHas s.place lpn then
      let host := (s.placeOf lpn).core
      (s.modPlace lpn fun p => { p with cachers := p.cachers.add core }).modCore core fun c => { c with pcache := cachePut lpn host c.pcache }
    else s
  .next (s.wakeAll (s.core core).host fun k => k = .lookup)

/-- PLACEMENT_UPDATE replaces the receiving core's cached entry and registers no cacher (R434). -/
def execPlacementUpdate (core lpn host : Nat) (s : State) : Out :=
  .next (s.modCore core fun c => { c with pcache := cachePut lpn host c.pcache })

/-- Do items of this kind cause a placement update when a forwarding entry sends them on (R434)? -/
def Item.updates : Item → Bool
  | .win _ _ _ _ => true
  | .msg _ => true
  | .carry _ => true
  | _ => false

/-- FORWARD_ITEM: an item at a core that may not host its process (R434). -/
def execForwardItem (id core : Nat) (s : State) : Out :=
  .next (match s.item id with
    | some i =>
      match i.ends with
      | none => s
      | some (lpn, src) =>
        let c := s.core core
        if c.host = lpn then s.post (i.event id)
        else
          let update (s : State) (host : Nat) : State := if src = lpn then s else s.post (.placementUpdate (s.hostOf src) lpn host)
          match c.fwd.find? fun e => e.1 == lpn with
          | some e => (if i.updates then update s e.2 else s).arriveAt id e.2 i
          | none =>
            let host := if spHas s.place lpn then (s.placeOf lpn).core else s.hostOf lpn
            (update s host).arriveAt id host i
    | none => s)

/-- FORWARD_RETIRE: a core drops its forwarding entry (R449). -/
def execForwardRetire (core lpn : Nat) (s : State) : Out :=
  .next (s.modCore core fun c => { c with fwd := c.fwd.filter fun e => e.1 != lpn })

/-- Retires the forwarding entries once every cacher has acknowledged (R449). -/
def State.retireIf (s : State) (lpn : Nat) : State :=
  let p := s.placeOf lpn
  if p.acks.isEmpty then (s.modPlace lpn fun p => { p with fwdAt := [] }).postAll (p.fwdAt.map fun c => .forwardRetire c lpn) else s

/-- PLACEMENT_INVALIDATE: a cacher drops its entry and acknowledges (R449). -/
def execPlacementInvalidate (core lpn : Nat) (s : State) : Out :=
  let s := s.modCore core fun c => { c with pcache := c.pcache.filter fun e => e.1 != lpn }
  .next ((s.modPlace lpn fun p => { p with acks := p.acks.filter fun c => c != core }).retireIf lpn)

/-- The cores of a cacher record; a group vector names every core of its groups (R94, R433). -/
def Dir.cores : Dir → List Nat
  | .u => []
  | .s l => l
  | .sv g => (List.range Config.cores).filter fun c => g.getLsbD (c / 128)
  | .o c => [c]
  | .x c => [c]

/-- A core's forwarding entry for a process: it replaces an older one (R434). -/
def State.forwardTo (s : State) (lpn src dst : Nat) : State :=
  s.modCore src fun c => { c with fwd := (c.fwd.filter fun e => e.1 != lpn) ++ [(lpn, dst)] }

/-- The arbiter changes an entry and invalidates its cachers; the forwarding entry at the old core is to be retired (R448, R449). -/
def State.movePlace (s : State) (lpn core src : Nat) : State :=
  let cs := (s.placeOf lpn).cachers.cores
  let s := s.modPlace lpn fun p =>
    { p with core := core, cachers := .u, acks := cs.foldl (fun l c => addNew c l) p.acks, fwdAt := addNew src p.fwdAt }
  (s.postAll (cs.map fun c => .placementInvalidate c lpn)).retireIf lpn

/-! ## Sweeps (R436, R442) -/

/-- The valid entries of a process's sequence table, by index. -/
def State.seqEntries (s : State) (lpn : Nat) : List (Nat × W64) :=
  ((List.range 312).map fun i => (i, s.seqAt lpn i)).filter fun e => tb 0 e.2

/-- FLUTTER_SWEEP: weights halve and are reported, and the temperature falls (R436, R442). A core that is frozen makes the
sweep when it thaws. -/
def execFlutterSweep (core : Nat) (s : State) : Out :=
  let c := s.core core
  .next (if c.frozen then s.modCore core fun c => { c with sweeps := c.sweeps + 1 }
    else
      let lpn := c.host
      let s := ((s.seqEntries lpn).filter fun e => !(tb 1 e.2)).foldl (fun s e =>
        let w := seqWT e.2 / 2
        (s.seqPut lpn e.1 (setFld 63 48 w e.2)).sendNow core (.weight lpn (fld 20 2 e.2) (fld 23 21 e.2) w)) s
      let t := fld 15 0 c.antemp
      s.modCore core fun c => { c with antemp := w64 (max (fld 15 0 c.anfloor) (t - t / 2 ^ fld 3 0 c.ancool)) })

/-- The sweeps that fell during a freeze are made (R436). -/
def State.owedSweeps (s : State) (core : Nat) : State :=
  let n := (s.core core).sweeps
  (s.modCore core fun c => { c with sweeps := 0 }).postAll ((List.range n).map fun _ => .flutterSweep core)

/-! ## Route cost (R437, R438) -/

/-- Absolute difference. -/
def dist (a b : Nat) : Nat := max a b - min a b

/-- Hops between two cores of a module with E hops per die edge (R437). -/
def hops (e a b : Nat) : Nat :=
  dist (meshX a) (meshX b) + dist (meshY a) (meshY b) + e * (dist (meshX a / 16) (meshX b / 16) + dist (meshY a / 32) (meshY b / 32))

/-- Half of a cost change: the channels of the process on one core when it moves to the other (R438). -/
def State.costHalf (s : State) (core tgt e : Nat) : Int :=
  let lpn := (s.core core).host
  let q := (s.core tgt).host
  ((s.seqEntries lpn).map fun x =>
    let peer := fld 20 2 x.2
    if peer = q || peer = lpn || moduleOf peer != s.module then (0 : Int)
    else match s.believed core peer with
      | some c => seqWT x.2 * ((hops e tgt c : Int) - hops e core c)
      | none => 0).sum

/-! ## Proposals (R439 to R441) -/

/-- Draw() (R441). -/
def State.draw (s : State) (core : Nat) : State × Nat :=
  let c := s.core core
  if tb 1 c.anmode then
    let i := fld 51 48 c.anstat
    (s.modCore core fun c => { c with anstat := setFld 51 48 (i + 1) c.anstat }, fld 15 0 (spGet 0 c.andraw i))
  else
    let shift (v : Nat) : Nat := if v % 2 = 1 then (v / 2) ^^^ 0x80200003 else v / 2
    let v := iterate shift 16 (fld 31 0 c.anseed)
    (s.modCore core fun c => { c with anseed := w64 v }, v % 2 ^ 16)

/-- Adds 1 to a 16-bit count of ANSTAT from a bit on: PROP 0, ACC 16, REF 32 (R443). -/
def countStat (lo : Nat) (v : W64) : W64 := setFld (lo + 15) lo (fld (lo + 15) lo v + 1) v

/-- Does a core's side refuse a proposal with another core (R440)? `mine` is the proposal being decided or answered. -/
def State.refuses (s : State) (core other : Nat) (mine : Bool) : Bool :=
  let c := s.core core
  let p := s.proc c.host
  let q := s.proc (s.core other).host
  !(tb 0 c.anmode) || p.anc || p.lanc || p.job = 0 || p.job != q.job || (!mine && (c.prop.isSome || c.answering.isSome)) ||
    c.swap.isSome || !c.copies.isEmpty || (c.streams.any fun e => e.2.bound) || p.mx.live || !p.mx.queue.isEmpty ||
    4 ≤ c.fwd.length || c.frozen || c.gated

/-- The neighbour that a draw names, if it lies on the mesh (R439). -/
def neighbour (core d : Nat) : Option Nat :=
  let x := meshX core
  let y := meshY core
  match d % 4 with
  | 0 => if x < 63 then some (coreAt (x + 1) y) else none
  | 1 => if 0 < x then some (coreAt (x - 1) y) else none
  | 2 => if y < 127 then some (coreAt x (y + 1)) else none
  | _ => if 0 < y then some (coreAt x (y - 1)) else none

/-- Counts a refusal at the proposer. -/
def State.countRefusal (s : State) (core : Nat) : State := s.modCore core fun c => { c with anstat := countStat 32 c.anstat }

/-- FLUTTER_PROPOSE (R439, R440). -/
def execFlutterPropose (core : Nat) (s : State) : Out :=
  .next (if !(tb 0 (s.core core).anmode) then s
    else
      let (s, d) := s.draw core
      match neighbour core d with
      | none => s
      | some y =>
        if (s.core core).prop.isSome then s
        else if s.refuses core y false then s.countRefusal core
        else
          let dx := s.costHalf core y (fld 3 0 (s.core core).anedge)
          (s.modCore core fun c =>
            { c with anstat := countStat 0 c.anstat, prop := some { other := y, dx := dx, dy := 0, refused := false, accept := false } }).post
            (.proposalAnswer y core))

/-- Changes the outstanding proposal of a core. -/
def State.modProp (s : State) (core : Nat) (f : Proposal → Proposal) : State := s.modCore core fun c => { c with prop := c.prop.map f }

/-- PROPOSAL_ANSWER: the neighbour answers with its half or with a refusal (R439, R440). -/
def execProposalAnswer (core src : Nat) (s : State) : Out :=
  .next (if s.refuses core src false then (s.modProp src fun p => { p with refused := true }).post (.proposalDecide src)
    else
      let dy := s.costHalf core src (fld 3 0 (s.core src).anedge)
      ((s.modCore core fun c => { c with answering := some src }).modProp src fun p => { p with dy := dy }).post (.proposalDecide src))

/-- T16[j] (R441). -/
def t16 (j : Nat) : Nat :=
  [65535, 62757, 60097, 57549, 55109, 52773, 50535, 48393, 46341, 44376, 42495, 40693, 38968, 37316, 35734, 34219].getD j 0

/-- Decide(ΔC) (R441). -/
def State.decide (s : State) (core : Nat) (dc : Int) : State × Bool :=
  let t := fld 15 0 (s.core core).antemp
  if dc ≤ 0 then (s, true)
  else if t = 0 then (s, false)
  else
    let (s, d) := s.draw core
    let q := 16 * dc.toNat / t
    (s, q < 256 && d < t16 (q % 16) / 2 ^ (q / 16))

/-- PROPOSAL_DECIDE: the proposer's second check and its decision (R440, R441). -/
def execProposalDecide (core : Nat) (s : State) : Out :=
  .next (match (s.core core).prop with
    | none => s
    | some p =>
      let stop (s : State) : State := (s.modCore core fun c => { c with prop := none }).countRefusal core
      if p.refused then stop s
      else if s.refuses core p.other true then (stop s).modCore p.other fun c => { c with answering := none }
      else
        let (s, ok) := s.decide core (p.dx + p.dy)
        (s.modProp core fun p => { p with accept := ok }).post (.decisionReceive p.other))

/-- DECISION_RECEIVE: the neighbour's second check; an acceptance that it confirms starts the swap (R440, R441, R448). -/
def execDecisionReceive (core : Nat) (s : State) : Out :=
  .next (match (s.core core).answering with
    | none => s
    | some x =>
      let past (s : State) : State := (s.modCore core fun c => { c with answering := none }).modCore x fun c => { c with prop := none }
      match (s.core x).prop with
      | none => past s
      | some p =>
        if !p.accept then past s
        else if s.refuses core x true then (past s).countRefusal x
        else
          let s := ((past s).modCore x fun c => { c with anstat := countStat 16 c.anstat, swap := some core }).modCore core fun c =>
            { c with swap := some x }
          s.post (.swapFreeze x core))

/-! ## The swap (R146, R448) -/

/-- Have the threads of a core reached the point at which it may freeze: nothing uncommitted, every landing but those in a
wait list landed, no save in progress, no commit holding the domain (R146, R168, R448)? -/
def State.mayFreeze (s : State) (core : Nat) : Bool :=
  let p := s.proc (s.core core).host
  p.slots.all (fun t => t.2.settled && (t.2.arch.landing.all fun l => !l.open || l.sync)) && (s.core core).save.isNone &&
    ((s.dom (s.coreDom core)).held.isEmpty)

/-- Squashes every uncommitted chunk of another core that names the local memory of a process (R146). -/
def State.squashLocal (s : State) (lpn : Nat) : State :=
  let isLoc (l : Line) : Bool := match l with
    | .loc p _ => p == lpn
    | .paged _ _ => false
  (s.threads.filter fun w => w.lpn != lpn).foldl (fun s w => s.squashIf w fun c => c.reads.any isLoc || c.writes.any isLoc) s

/-- Freezes a core for a swap: the landed results are written, other cores' chunks on its memory are squashed, its watch
table and its stash empty (R77, R146, R448). -/
def State.freezeCore (s : State) (core : Nat) : State :=
  let lpn := (s.core core).host
  let s := allSlots.foldl (fun s n => s.modSlot { lpn := lpn, slot := n } fun t => t.land (t.arch.landing.filter fun l => !l.open)) s
  ((s.squashLocal lpn).emptyStash core).modCore core fun c => { c with frzSwap := true, watch := [] }

/-- SWAP_FREEZE: both cores freeze as soon as both may (R448). -/
def execSwapFreeze (x y : Nat) (s : State) : Out :=
  let ends (s : State) (core : Nat) : State := allSlots.foldl (fun s n => s.endChunk { lpn := (s.core core).host, slot := n }) s
  let s := ends (ends s x) y
  .next (if s.mayFreeze x && s.mayFreeze y then ((s.freezeCore x).freezeCore y).post (.swapMove x y)
    else s.after .network 1 (.swapFreeze x y))

/-- Does a launch latch go with the process of its core: it is empty, or the launch keeps the loaded image (R371; log 22)? -/
def Core.latchMoves (c : Core) : Bool := c.latch.all fun w => w.rcd.getD 3 0 == 0

/-- The launch latches of two cores change places, where both go with their processes. -/
def State.swapLatches (s : State) (x y : Nat) : State :=
  let a := s.core x
  let b := s.core y
  if a.latchMoves && b.latchMoves then
    (s.modCore x fun c => { c with latch := b.latch }).modCore y fun c => { c with latch := a.latch }
  else s

/-- SWAP_MOVE: both processes move whole: everything that State holds with a process, and its local memory (R448). -/
def execSwapMove (x y : Nat) (s : State) : Out :=
  let p := (s.core x).host
  let q := (s.core y).host
  let s := s.swapLatches x y
  let s := ((s.modProc p fun r => { r with core := y }).modProc q fun r => { r with core := x }).modCore x fun c => { c with host := q }
  .next ((s.modCore y fun c => { c with host := p }).post (.swapFlip x y))

/-- SWAP_FLIP: the arbiter changes both entries in one step, and each core enters where its process went (R448, R449). -/
def execSwapFlip (x y : Nat) (s : State) : Out :=
  let p := (s.core y).host
  let q := (s.core x).host
  let s := (s.forwardTo p x y).forwardTo q y x
  .next (((s.movePlace p y x).movePlace q x y).post (.swapResume x y))

/-- Handles the items that waited at the network interface of a core (R335, R448). -/
def State.releaseHeld (s : State) (core : Nat) : State :=
  let ids := (s.core core).held
  ids.foldl (fun s id =>
    match s.item id with
    | some i => s.arriveAt id core i
    | none => s) (s.modCore core fun c => { c with held := [] })

/-- SWAP_RESUME: both cores thaw (R436, R448). -/
def execSwapResume (x y : Nat) (s : State) : Out :=
  let thaw (s : State) (core : Nat) : State :=
    let s := s.modCore core fun c => { c with frzSwap := false, swap := none }
    ((s.wakeAll (s.core core).host fun k => k = .swap).releaseHeld core).owedSweeps core
  .next (thaw (thaw s x) y)

/-! ## WHERE, ANCHOR, PEER (R444 to R447) -/

/-- PlacementLookup of an instruction: no entry is SEGV reason 4 with the LPN (R445, R447). -/
def State.withPlace (s : State) (n : Nat) (f : Nat → State → State) : State :=
  match s.placeLookup (s.hostOf s.cur.lpn) n with
  | .none => s.raise cSEGV 0 4 (w64 n)
  | .ask => s.askPlace n
  | .host c => f c s

/-- WHERE (R445). -/
def execWhere (r : AR) (s : State) : Out :=
  .next (s.when r.g fun s =>
    s.withPlace (fld 18 0 (s.rdB r.b r.x)) fun c s => s.wr r.d (w64 (s.coreNumber c)))

/-- ANC and LANC as ANCHOR returns them. -/
def Proc.anchorBits (p : Proc) : W64 := w64 ((if p.anc then 1 else 0) + (if p.lanc then 2 else 0))

/-- ANCHOR (R446). -/
def execAnchor (r : AR) (s : State) : Out :=
  .next (s.when r.g fun s =>
    let v := tb 0 (s.rdB r.b r.x)
    let p := s.myProc
    if !v && tb 0 p.fieldcfg then s.illop
    else if s.swapping then s.waitAgain .swap 0 0 fun _ => none
    else (s.modProc s.cur.lpn fun p => { p with anc := v }).wr r.d p.anchorBits)

/-- The entry of a sequence table with a key, in the table or in the spill area (R258, R447). -/
def State.seqWord (s : State) (lpn key : Nat) : Option W64 :=
  match s.seqFind lpn key with
  | some i => some (s.seqAt lpn i)
  | none => (s.proc lpn).spill.findSome? fun x =>
    match x with
    | .entry e => if e.toNat % 2 ^ 24 == key then some e else none
    | _ => none

/-- PEER (R447). -/
def execPeer (r : AR) (s : State) : Out :=
  .next (s.when r.g fun s =>
    let b := s.rdB r.b r.x
    let n := fld 18 0 b
    let k := fld 21 19 b
    s.withPlace n fun c s =>
      let lpn := s.cur.lpn
      let out := s.seqWord lpn (seqKey false n k)
      let wt := (out.map seqWT).getD 0
      let rwt := ((s.seqWord lpn (seqKey true n k)).map seqWT).getD 0
      let h := hops (fld 3 0 s.myCore.anedge) s.myProc.core c
      s.wr r.d (w64 (wt + rwt * 2 ^ 16 + h % 2 ^ 16 * 2 ^ 32 + (if out.isSome then 2 ^ 63 else 0))))

end Sys2Proof.Machine
end

