-- ==== Sys2Proof/Machine/System.lean ====
section
/-!
DEFINITION. The system registers (14 R328, R329 and the register tables of every chapter), the segment stage (01 R22, R23),
the local-memory layout (03 R62), and SVC, ERET, WAKE and HALT (14 R330 to R332, 08 R198).
-/

namespace Sys2Proof.Machine

/-! ## Rows of cores (R472, R473) -/

/-- A row of the module. -/
def State.row (s : State) (n : Nat) : Row := spGet Row.init s.rows n

/-- Changes a row. -/
def State.modRow (s : State) (n : Nat) (f : Row → Row) : State := { s with rows := spPut s.rows n (f (s.row n)) }

/-- The thermal step of a row (R473). -/
def State.thermalStep (s : State) (n : Nat) : Nat :=
  let t := (s.row n).temp.toNat
  let warm := fld 11 0 s.regs.thermcfg
  if fld 35 24 s.regs.thermcfg ≤ t then 7 else if t < warm then 0 else min 7 ((t - warm) / 8 + 1)

/-- The effective step of a row (R471). -/
def State.rowStep (s : State) (n : Nat) : Nat := max (fld 10 8 (s.row n).ctl) (s.thermalStep n)

/-- HOT of a row (R472). -/
def State.rowHot (s : State) (n : Nat) : Bool := fld 23 12 s.regs.thermcfg ≤ (s.row n).temp.toNat

/-- Is a row withheld for every tenant (R473)? -/
def State.rowWithheld (s : State) (n : Nat) : Bool :=
  s.rowHot n || tb 11 (s.row n).ctl || fld 27 16 (s.row n).ctl < (s.row n).pwr.toNat

/-! ## The segment stage (R22, R23) -/

/-- SEG_STAGE_WRITE: the low half is staged, in place of any value staged before (R22); sg0 is read-only (R16). -/
def State.stageWrite (s : State) (n : BitVec 3) (v : W64) : State :=
  if n = 0 then s.illop else s.modMe fun t => { t with stage := some (n.toNat, v) }

/-- The value that a commit of the high half gives a segment register (R22). -/
def Slot.segNew (t : Slot) (n : Nat) (v : W64) : BitVec 128 :=
  let lo : W64 := match t.stage with
    | some (m, x) => if m = n then x else (t.sg.toList.getD n 0).setWidth 64
    | none => (t.sg.toList.getD n 0).setWidth 64
  v ++ lo

/-- May privilege U narrow a segment from `old` to `new` (R23)? -/
def segNarrows (old new : BitVec 128) : Bool :=
  segRights new == 0 ||
    (segRights new &&& segRights old == segRights new && segBase old ≤ segBase new &&
      segBase new + segLimit new ≤ segBase old + segLimit old)

/-- SEG_COMMIT: both halves are committed at once, or the commit is refused (R22, R23). -/
def State.segWrite (s : State) (n : BitVec 3) (v : W64) : State :=
  let t := s.me
  let new := t.segNew n.toNat v
  if n = 0 || fld 63 54 v != 0 then s.illop
  else if t.priv = 0 && !segNarrows (t.sg.toList.getD n.toNat 0) new then s.raisePriv
  else s.modMe fun t => { t with sg := t.sg.set n.toNat new (n.isLt), stage := none }

/-- SEG_STAGE_WRITE (R22). -/
def execSegStageWrite (n : BitVec 3) (v : W64) (s : State) : Out := .next (s.stageWrite n v)

/-- SEG_COMMIT (R23). -/
def execSegCommit (n : BitVec 3) (v : W64) (s : State) : Out := .next (s.segWrite n v)

/-! ## Per-process registers with a rule of their own -/

/-- The stash of the current thread's core is emptied (R77). -/
def State.emptyMine (s : State) : State := s.emptyStash (s.hostOf s.cur.lpn)

/-- CORETAG_WRITE: the stash is emptied first (R30, R77). -/
def execCoretagWrite (v : W64) (s : State) : Out :=
  .next (if fld 63 24 v != 0 then s.illop else s.emptyMine.modProc s.cur.lpn fun p => { p with coretag := v })

/-- XROOT_WRITE: the stash is emptied first (R34, R77). -/
def execXrootWrite (v : W64) (s : State) : Out :=
  .next (if fld 11 1 v != 0 || fld 63 48 v != 0 then s.illop
    else s.emptyMine.modProc s.cur.lpn fun p => { p with xroot := v })

/-- The area of local memory that an offset lies in: system block, image, queue area, field area, stash (R61). -/
def areaOf (lmmap : W64) (off : Nat) : Nat :=
  if off < 0x4000 then 0
  else if off < imageTop lmmap then 1
  else if off < imageTop lmmap + fld 15 8 lmmap * 4096 then 2
  else if off < stashBase lmmap then 3
  else 4

/-- Does a receive queue of the process hold a message, or is a reorder slot in use, or the process in a field (R62)? -/
def State.layoutBusy (s : State) (lpn : Nat) : Bool :=
  ((List.range 8).any fun k => chCOUNT (s.chB lpn k) != 0) || fld 11 0 (s.roB lpn) != 0 ||
    tb 0 (s.proc lpn).fieldcfg

/-- Squashes the readers of those blocks of a process's local memory that a test accepts (R142). -/
def State.squashBlocks (s : State) (lpn : Nat) (p : Nat → Bool) : State :=
  let hit := (s.threads.flatMap fun w => ((s.slot w).chunk.toList.flatMap fun c => c.reads) ++ (s.slot w).commitReads).filter fun l =>
    match l with
    | .loc q b => q == lpn && p b
    | .paged _ _ => false
  hit.foldl (fun s l => s.squashReaders l (some s.cur)) s

/-- The queues of those words of a process that a test accepts are served (R67). -/
def State.serveWords (s : State) (lpn : Nat) (p : Nat → Bool) : State :=
  s.postAll (((s.proc lpn).waits.filter fun x => x.op.isSome && p x.key).map fun x => .fullEmptyService lpn x.key)

/-- Every byte whose area differs between two layouts is set to zero and its word full (R62). Threads that read it are
squashed, and what waits for its words is served. -/
def State.clearAreas (s : State) (lpn : Nat) (old new : W64) : State :=
  let moved (a : Nat) : Bool :=
    winAddr lpn 0 ≤ a && a < winAddr lpn 0 + Config.localSize &&
      areaOf old (a - winAddr lpn 0) != areaOf new (a - winAddr lpn 0)
  let s := s.squashBlocks lpn fun b => moved (winAddr lpn (b * 256))
  let mem := s.mem.filter fun c => !moved c.1
  let s := { s with mem := mem, empty := s.empty.filter fun a => !moved a, badWords := s.badWords.filter fun a => !moved a }
  s.serveWords lpn fun k => moved (winAddr lpn k)

/-- A write of LMMAP by the current thread (R61, R62). -/
def State.writeLmmap (s : State) (v : W64) : State :=
  let lpn := s.cur.lpn
  let old := (s.proc lpn).lmmap
  if fld 7 4 v != 0 || fld 63 24 v != 0 || 8 < fld 3 0 v || 251 < 16 * fld 3 0 v + fld 15 8 v + fld 23 16 v then s.illop
  else if fld 23 8 old != fld 23 8 v && s.layoutBusy lpn then s.illop
  else
    let s := if fld 3 0 old != fld 3 0 v then s.emptyMine else s
    (s.clearAreas lpn old v).modProc lpn fun p => { p with lmmap := v }

/-- LMMAP_WRITE (R62). -/
def execLmmapWrite (v : W64) (s : State) : Out := .next (s.writeLmmap v)

/-! ## The register map (R329 and the register tables) -/

/-- How a register may be reached: the lowest privilege that reads it, its fields, and the bits that U, G and M write. -/
structure RegAccess where
  read : Nat
  fields : Nat
  wu : Nat
  wg : Nat
  wm : Nat
  deriving DecidableEq, Repr

/-- All 64 bits. -/
def all64 : Nat := 0xFFFFFFFFFFFFFFFF

/-- Read at every privilege, never written. -/
def accRO : RegAccess := { read := 0, fields := all64, wu := 0, wg := 0, wm := 0 }

/-- Read and written at every privilege. -/
def accU (m : Nat) : RegAccess := { read := 0, fields := m, wu := m, wg := m, wm := m }

/-- Read at every privilege, written at G and M. -/
def accG (m : Nat) : RegAccess := { read := 0, fields := m, wu := 0, wg := m, wm := m }

/-- Read at every privilege, written at M. -/
def accM (m : Nat) : RegAccess := { read := 0, fields := m, wu := 0, wg := 0, wm := m }

/-- Read and written at M alone. -/
def accMM (m : Nat) : RegAccess := { read := 2, fields := m, wu := 0, wg := 0, wm := m }

/-- Read at M alone, never written. -/
def accMRO : RegAccess := { read := 2, fields := all64, wu := 0, wg := 0, wm := 0 }

/-- Fields of a high half of a segment (R21). -/
def segHiFields : Nat := 0x3FFFFFFFFFFFFF

/-- The slot range (R14, R21, R219, R229, R235, R260, R268, R270, R288, R310, R320, R356, R374, R394). -/
def accSlot (n : Nat) : Option RegAccess :=
  match n with
  | 0x000 => some (accM 0x1F)
  | 0x001 | 0x002 | 0x003 | 0x004 | 0x015 | 0x030 => some accRO
  | 0x008 => some (accG 0xFFFFF)
  | 0x009 => some { read := 0, fields := 0xFFFF, wu := 0x8000, wg := 0x8000, wm := 0x8000 }
  | 0x00A | 0x00C | 0x00D | 0x00E => some (accU all64)
  | 0x00B => some (accU 0xFFFFF)
  | 0x010 | 0x011 | 0x012 | 0x019 | 0x020 | 0x022 => some (accU 0xFFFFFFFF)
  | 0x013 => some (accU 0xFFFF)
  | 0x014 => some (accU 0xFFFF9)
  | 0x016 => some (accU 0x7FFFF7F)
  | 0x017 => some (accU 1)
  | 0x018 => some (accU 0x3EF)
  | 0x01A => some { read := 0, fields := all64, wu := 0xFFFFFFFF, wg := 0xFFFFFFFF, wm := 0xFFFFFFFF }
  | 0x021 | 0x023 => some (accU 0x3FFFFFFFFFF)
  | _ => if n / 16 = 4 then some (if n = 0x40 || n = 0x41 then accRO else if n % 2 = 0 then accU all64 else accU segHiFields)
         else none

/-- The core range (R25, R30, R34, R60, R107, R257, R262, R317, R321, R334, R384, R393, R419, R443, R468). -/
def accCore (n : Nat) : Option RegAccess :=
  match n with
  | 0x100 | 0x104 | 0x107 | 0x304 => some accRO
  | 0x102 => some (accG 0xFFFFFFFFFFFFF000)
  | 0x103 => some { read := 0, fields := 0x1F01FF, wu := 0x1F0000, wg := 0x1F0000, wm := 0x1F0000 }
  | 0x105 => some (accG 0xFFFFFFFFFFFFFF)
  | 0x106 => some (accG 0xFF0000007FFFFF01)
  | 0x108 => some (accM 0x11F)
  | 0x110 => some (accM 0xFFFFFF)
  | 0x111 => some (accG 0xFFFFFFFFF001)
  | 0x112 => some (accG 0xFFFF0F)
  | 0x114 | 0x115 | 0x116 => some (accM all64)
  | 0x118 => some (accG 0xFFFFF)
  | 0x200 => some { read := 0, fields := 15, wu := 0, wg := 7, wm := 15 }
  | 0x201 | 0x203 => some (accG 0xFFFF)
  | 0x202 | 0x205 => some (accG 0xF)
  | 0x204 => some (accG 0x1F1F)
  | 0x206 => some (accG 0xFFFFFFFF)
  | 0x220 => some (accG 0xFFFFFFFFFFFFF)
  | 0x300 => some (accG 0x1FFFFFFFFFF)
  | 0x301 => some (accG 0xF)
  | 0x302 => some (accG 0xFFFFFFF)
  | 0x303 => some (accG 0x7FFFFFFFFFFFFE)
  | _ =>
    if 0x120 ≤ n && n ≤ 0x12D then some { accG (if n % 2 = 0 then all64 else segHiFields) with read := 1 }
    else if n / 16 = 0x21 then some (accG 0xFFFF)
    else none

/-- The M-only range (R45, R108 to R110, R117 to R119, R126, R128, R376, R460, R465, R472, R474, R478). -/
def accMod (n : Nat) : Option RegAccess :=
  match n with
  | 0x400 => some (accMM 0x1FF)
  | 0x401 => some (accMM 0xFFF0FFF)
  | 0x402 | 0x451 | 0x471 => some accMRO
  | 0x410 => some (accMM 0xFFFFFFFFF)
  | 0x411 => some (accMM 0xFFFF)
  | 0x440 => some (accMM 0xFFFFFF0FFF)
  | 0x441 | 0x483 => some (accMM all64)
  | 0x450 => some (accMM 0xFF00FFFFFFFFF0F7)
  | 0x452 | 0x482 => some (accMM 0xFFFFFFFFFF80)
  | 0x453 => some (accMM 0xFFFFFFFFFF87)
  | 0x454 => some (accMM 0x1FFFFFFFF)
  | 0x460 => some { accMM 0xFFFFFFFF0007 with wm := 3 }
  | 0x470 => some (accMM 0xFF3F)
  | 0x480 => some (accMM 0x3FF)
  | 0x481 => some (accMM 0x1FFFFFFFF)
  | 0x484 => some (accMM 0x1FFFFFFFFFFFF)
  | 0x485 => some (accMM 0xFFFFFFFF)
  | 0x486 => some (accMM 0xFFFFFFFFF000)
  | 0x800 => some (accMM 0x10FFF)
  | 0x801 => some (accMM 0xFFFFFF07)
  | _ =>
    if 0x4C0 ≤ n && n ≤ 0x4FF then some (accMM 0x1FF)
    else if 0x501 ≤ n && n ≤ 0x5FF then some (accMM 0xFFFFFFFFF001)
    else if 0x601 ≤ n && n ≤ 0x6FF then some (accMM 0xFFFFFFFF)
    else if 0x701 ≤ n && n ≤ 0x7FF then some (accMM 0x3FFFFFFFFF)
    else if 0x901 ≤ n && n ≤ 0x9FF then some { accMM 0x1FFFF03FFFFFFFF with wm := 0x3FFFFFFFF }
    else none

/-- The access of a register number; none where it names no register. -/
def regAccess (n : Nat) : Option RegAccess :=
  if n < 0x100 then accSlot n else if n < 0x400 then accCore n else accMod n

/-- Bits that a privilege writes. -/
def RegAccess.write (a : RegAccess) (priv : Nat) : Nat := if priv = 0 then a.wu else if priv = 1 then a.wg else a.wm

/-- Is every field read-only at every privilege? -/
def RegAccess.readOnly (a : RegAccess) : Bool := a.wu == 0 && a.wg == 0 && a.wm == 0

/-! ## Reading (R329) -/

/-- TID of a thread (R14). -/
def State.tid (s : State) (w : Who) : W64 :=
  w64 (s.coreNumber (s.hostOf w.lpn) + w.slot * 2 ^ 19 + w.lpn % 2 ^ 19 * 2 ^ 24)

/-- RQSTAT of a process (R384). -/
def Proc.rqstat (p : Proc) : W64 :=
  let cnt := (List.range 4).foldl (fun v l => v + p.levelCount l * 16 ^ l) 0
  let res := (List.range 15).foldl (fun v n => if (p.slot n).reserved then v + 2 ^ (16 + n) else v) 0
  w64 (cnt + res)

/-- The low or high half of a 128-bit segment value. -/
def segHalf (hi : Bool) (g : BitVec 128) : W64 := w64 (if hi then g.toNat / 2 ^ 64 else g.toNat)

/-- The value of a slot-range register of the current thread. -/
def State.readSlotReg (s : State) (n : Nat) : W64 :=
  let t := s.me
  let r := t.regs
  match n with
  | 0x000 => r.slotctl
  | 0x001 => s.tid s.cur
  | 0x002 => r.launch
  | 0x003 => r.fmt
  | 0x004 => r.scp
  | 0x008 => r.trapvec
  | 0x009 => r.tcause
  | 0x00A => r.taddr
  | 0x00B => r.tpc
  | 0x00C => r.tprog
  | 0x00D => r.tscr0
  | 0x00E => r.tscr1
  | 0x010 => r.waitlim
  | 0x011 => r.barlim
  | 0x012 => r.sendlim
  | 0x013 => r.masklim
  | 0x014 => r.uivec
  | 0x015 => r.uistat
  | 0x016 => r.pipecfg
  | 0x017 => r.strview
  | 0x018 => t.arch.fcsr
  | 0x019 => r.ganglim
  | 0x01A => r.quantum
  | 0x020 => t.arch.lc0
  | 0x021 => t.arch.ls0
  | 0x022 => t.arch.lc1
  | 0x023 => t.arch.ls1
  | 0x030 => r.spinres
  | _ => segHalf (n % 2 == 1) (s.seg s.cur (n % 16 / 2))

/-- The value of a core-range register. -/
def State.readCoreReg (s : State) (n : Nat) : W64 :=
  let p := s.myProc
  let c := s.myCore
  match n with
  | 0x100 => w64 c.cycle
  | 0x102 => p.spillq
  | 0x103 => p.inboxie ||| w64 (min 256 p.inCount)
  | 0x104 => s.strstat p.core
  | 0x105 => c.faultlog
  | 0x106 => p.taskcfg
  | 0x107 => p.rqstat
  | 0x108 => c.coreclk
  | 0x110 => p.coretag
  | 0x111 => p.xroot
  | 0x112 => p.lmmap
  | 0x114 => p.chgfill
  | 0x115 => p.chghit
  | 0x116 => p.chgwb
  | 0x118 => p.tvdef
  | 0x200 => c.anmode ||| w64 ((if p.anc then 4 else 0) + (if p.lanc then 8 else 0))
  | 0x201 => c.antemp
  | 0x202 => c.ancool
  | 0x203 => c.anfloor
  | 0x204 => c.anperiod
  | 0x205 => c.anedge
  | 0x206 => c.anseed
  | 0x220 => c.anstat
  | 0x300 => p.fieldcfg
  | 0x301 => p.crowd
  | 0x302 => p.fieldbar
  | 0x303 => p.ftab
  | 0x304 => p.fstat
  | _ =>
    if n / 16 = 0x12 then segHalf (n % 2 == 1) (p.segt.toList.getD ((n - 0x120) / 2 + 1) 0)
    else spGet 0 c.andraw (n % 16)

/-- The hardware queue slot that DQSEL names (R376). -/
def State.dqSel (s : State) : Nat := fld 9 0 s.regs.dqsel

/-- A hardware queue slot. -/
def State.dq (s : State) (q : Nat) : DQ := spGet DQ.init s.dqs q

/-- Changes a hardware queue slot. -/
def State.modDq (s : State) (q : Nat) (f : DQ → DQ) : State := { s with dqs := spPut s.dqs q (f (s.dq q)) }

/-- ROWSTAT of the selected row (R472). -/
def State.rowstat (s : State) (n : Nat) : W64 :=
  w64 ((s.row n).temp.toNat + (s.row n).pwr.toNat * 2 ^ 12 + s.rowStep n * 2 ^ 24 + (if s.rowHot n then 2 ^ 27 else 0))

/-- The value of an M-only register; PSNANS reads 0 (R126). -/
def State.readModReg (s : State) (n : Nat) : W64 :=
  let r := s.regs
  match n with
  | 0x400 => r.rowsel
  | 0x401 => (s.row (fld 8 0 r.rowsel)).ctl
  | 0x402 => s.rowstat (fld 8 0 r.rowsel)
  | 0x410 => r.thermcfg
  | 0x411 => r.modpwr
  | 0x440 => r.l2cfg
  | 0x441 => r.l2stat
  | 0x450 => r.pgblk
  | 0x451 => s.pgstat
  | 0x452 => r.pgcsrc
  | 0x453 => r.pgcdst
  | 0x454 => 0
  | 0x460 => r.ckpt
  | 0x470 => r.brxcfg
  | 0x471 => r.brxup
  | 0x480 => r.dqsel
  | 0x481 => (s.dq s.dqSel).cfg
  | 0x482 => (s.dq s.dqSel).base
  | 0x483 => (s.dq s.dqSel).root
  | 0x484 => (s.dq s.dqSel).ptr
  | 0x485 => r.dqage
  | 0x486 => r.dbsum
  | 0x800 => r.chalcfg
  | 0x801 => r.challog
  | _ =>
    if n < 0x500 then spGet 0 r.vfmap (n - 0x4C0)
    else if n < 0x600 then spGet 0 r.vmroot (n - 0x500)
    else if n < 0x700 then spGet l2partReset r.l2part (n - 0x600)
    else if n < 0x800 then spGet l2bwReset r.l2bw (n - 0x700)
    else spGet pwrtReset r.pwrt (n - 0x900)

/-- The value of a register that the map names. -/
def State.readReg (s : State) (n : Nat) : W64 :=
  if n < 0x100 then s.readSlotReg n else if n < 0x400 then s.readCoreReg n else s.readModReg n

/-- SYSR (R329). -/
def execSysr (r : AZ) (s : State) : Out :=
  .next (s.when r.g fun s =>
    match regAccess r.num.toNat with
    | none => s.illop
    | some a => if s.me.priv < a.read then s.raisePriv else s.wr r.d (s.readReg r.num.toNat))

/-! ## Writing (R329) -/

/-- Does a value break a rule of its register that is checked with the reserved bits or refuses it with ILLOP? The old
value and the value to be written are given. -/
def State.regIllop (s : State) (n : Nat) (v new : W64) : Bool :=
  match n with
  | 0x000 => fld 1 0 v == 3 || fld 4 3 v == 3
  | 0x008 | 0x118 => fld 2 1 v == 3
  | 0x00B => fld 2 0 v != 0
  | 0x018 => 4 < fld 2 0 v
  | 0x021 | 0x023 => fld 2 0 v != 0 || fld 22 20 v != 0
  | 0x108 => fld 4 0 v < 2
  | 0x204 => fld 4 0 v < 8 || 24 < fld 4 0 v || fld 12 8 v < fld 4 0 v || 28 < fld 12 8 v
  | 0x206 => fld 31 0 v == 0
  | 0x301 => fld 3 0 v == 0 || fld 3 0 v == 15
  | 0x411 =>
    fld 15 0 v < ((List.range 256).map fun x => fld 15 0 (spGet pwrtReset s.regs.pwrt x)).sum
  | 0x450 => !s.pgblkOk v
  | 0x453 => !s.pgcdstOk v
  | 0x470 =>
    fld 5 0 v != fld 5 0 s.regs.brxcfg && s.procs.any fun p => fld 23 0 p.2.coretag != 0
  | 0x481 => tb 32 v && (fld 23 8 v == 0 || fld 31 28 v == 0)
  | 0x800 => (List.range 6).any fun k => fld (2 * k + 1) (2 * k) v == 0
  | _ =>
    if 0x4C0 ≤ n && n ≤ 0x4FF then tb 8 v && fld 7 0 v == 0
    else if 0x900 ≤ n then
      fld 15 0 s.regs.modpwr <
        ((List.range 256).map fun x => fld 15 0 (if x = n - 0x900 then new else spGet pwrtReset s.regs.pwrt x)).sum
    else false

/-- Does a value break a rule that refuses it with PRIV: EP above the writer (R320, R321), or a lowered level under
LOCK (R478)? -/
def State.regPriv (s : State) (n : Nat) (v : W64) : Bool :=
  match n with
  | 0x008 | 0x118 => s.me.priv < fld 2 1 v
  | 0x800 => tb 16 s.regs.chalcfg &&
      (List.range 6).any fun k => fld (2 * k + 1) (2 * k) v < fld (2 * k + 1) (2 * k) s.regs.chalcfg
  | _ => false

/-- Writes a slot-range register of the current thread. -/
def State.writeSlotReg (s : State) (n : Nat) (v : W64) : State :=
  let reg (f : SlotRegs → SlotRegs) : State := s.modMe fun t => { t with regs := f t.regs }
  let arch (f : Arch → Arch) : State := s.modMe fun t => { t with arch := f t.arch }
  match n with
  | 0x000 => reg fun r => { r with slotctl := v }
  | 0x008 => reg fun r => { r with trapvec := v }
  | 0x009 => reg fun r => { r with tcause := v }
  | 0x00A => reg fun r => { r with taddr := v }
  | 0x00B => reg fun r => { r with tpc := v }
  | 0x00C => reg fun r => { r with tprog := v }
  | 0x00D => reg fun r => { r with tscr0 := v }
  | 0x00E => reg fun r => { r with tscr1 := v }
  | 0x010 => reg fun r => { r with waitlim := v }
  | 0x011 => reg fun r => { r with barlim := v }
  | 0x012 => reg fun r => { r with sendlim := v }
  | 0x013 => reg fun r => { r with masklim := v }
  | 0x014 => reg fun r => { r with uivec := v }
  | 0x016 => reg fun r => { r with pipecfg := v }
  | 0x017 => reg fun r => { r with strview := v }
  | 0x018 => arch fun a => { a with fcsr := v }
  | 0x019 => reg fun r => { r with ganglim := v }
  | 0x01A => reg fun r => { r with quantum := v }
  | 0x020 => arch fun a => { a with lc0 := v }
  | 0x021 => arch fun a => { a with ls0 := v }
  | 0x022 => arch fun a => { a with lc1 := v }
  | 0x023 => arch fun a => { a with ls1 := v }
  | _ => if n % 2 = 0 then s.stageWrite (BitVec.ofNat 3 (n % 16 / 2)) v else s.segWrite (BitVec.ofNat 3 (n % 16 / 2)) v

/-- A segment template entry with one half replaced (R25). -/
def segSetHalf (hi : Bool) (v : W64) (g : BitVec 128) : BitVec 128 :=
  if hi then v ++ g.setWidth 64 else (g.extractLsb' 64 64 : W64) ++ v

/-- Writes a core-range register. -/
def State.writeCoreReg (s : State) (n : Nat) (v : W64) : State :=
  let proc (f : Proc → Proc) : State := s.modProc s.cur.lpn f
  let core (f : Core → Core) : State := s.modMyCore f
  match n with
  | 0x102 => (proc fun p => { p with spillq := v }).wakeSenders s.cur.lpn
  | 0x103 => proc fun p => { p with inboxie := v &&& 0x1F0000 }
  | 0x105 => core fun c => { c with faultlog := v }
  | 0x106 => proc fun p => { p with taskcfg := v }
  | 0x108 => core fun c => { c with coreclk := v }
  | 0x110 => s.emptyMine.modProc s.cur.lpn fun p => { p with coretag := v }
  | 0x111 => s.emptyMine.modProc s.cur.lpn fun p => { p with xroot := v }
  | 0x112 => s.writeLmmap v
  | 0x114 => proc fun p => { p with chgfill := v }
  | 0x115 => proc fun p => { p with chghit := v }
  | 0x116 => proc fun p => { p with chgwb := v }
  | 0x118 => proc fun p => { p with tvdef := v }
  | 0x200 =>
    (core fun c => { c with anmode := v &&& 3 }).modProc s.cur.lpn fun p => { p with anc := tb 2 v, lanc := tb 3 v }
  | 0x201 => core fun c => { c with antemp := v }
  | 0x202 => core fun c => { c with ancool := v }
  | 0x203 => core fun c => { c with anfloor := v }
  | 0x204 => core fun c => { c with anperiod := v }
  | 0x205 => core fun c => { c with anedge := v }
  | 0x206 => core fun c => { c with anseed := v }
  | 0x220 => core fun c => { c with anstat := v }
  | 0x300 => s.writeFieldcfg v
  | 0x301 => proc fun p => { p with crowd := v }
  | 0x302 => proc fun p => { p with fieldbar := v }
  | 0x303 => proc fun p => { p with ftab := v }
  | _ =>
    if n / 16 = 0x12 then
      proc fun p =>
        let k := (n - 0x120) / 2 + 1
        { p with segt := if h : k < 8 then p.segt.set k (segSetHalf (n % 2 == 1) v p.segt[k]) h else p.segt }
    else core fun c => { c with andraw := spPut c.andraw (n % 16) v }

/-- Writes an M-only register; the units that act on the write do so by their events. -/
def State.writeModReg (s : State) (n : Nat) (v : W64) : State :=
  let reg (f : ModRegs → ModRegs) : State := { s with regs := f s.regs }
  match n with
  | 0x400 => reg fun r => { r with rowsel := v }
  | 0x401 => s.modRow (fld 8 0 s.regs.rowsel) fun x => { x with ctl := v }
  | 0x410 => reg fun r => { r with thermcfg := v }
  | 0x411 => reg fun r => { r with modpwr := v }
  | 0x440 =>
    -- a pool that holds more than the new POOLMAX is clipped (R104)
    let s := reg fun r => { r with l2cfg := v }
    { s with pools := spMap s.pools fun _ p => min (fld 39 16 v) p }
  | 0x441 => s.post .l2statClear
  | 0x450 => s.post (if fld 7 6 v = 0 then .pgblkBlock v else .pgblkAbandon v)
  | 0x452 => reg fun r => { r with pgcsrc := v }
  | 0x453 => s.post (.pageCopyStart v)
  | 0x454 => s.post (if tb 32 v then .psnansLost (BitVec.ofNat 32 (fld 31 0 v)) else .psnansRepaired (BitVec.ofNat 32 (fld 31 0 v)))
  | 0x460 =>
    let s := reg fun r => { r with ckpt := setBit 1 (tb 1 v) r.ckpt }
    if tb 0 v then s.post .checkpointStart else s
  | 0x470 => reg fun r => { r with brxcfg := v }
  | 0x480 => reg fun r => { r with dqsel := v }
  | 0x481 => s.modDq s.dqSel fun q => { q with cfg := v }
  | 0x482 => s.modDq s.dqSel fun q => { q with base := v }
  | 0x483 => s.modDq s.dqSel fun q => { q with root := v }
  | 0x484 => s.post (.dqptrWrite v)
  | 0x485 => reg fun r => { r with dqage := v }
  | 0x486 => reg fun r => { r with dbsum := v }
  | 0x800 => s.post (.chalcfgWrite v)
  | 0x801 => s.post .challogClear
  | _ =>
    if n < 0x500 then reg fun r => { r with vfmap := spPut r.vfmap (n - 0x4C0) v }
    else if n < 0x600 then reg fun r => { r with vmroot := spPut r.vmroot (n - 0x500) v }
    else if n < 0x700 then s.post (.l2partWrite (BitVec.ofNat 8 (n - 0x600)) v)
    else if n < 0x800 then s.post (.l2bwWrite (BitVec.ofNat 8 (n - 0x700)) v)
    else reg fun r => { r with pwrt := spPut r.pwrt (n - 0x900) v }

/-- Writes a register that the map names. -/
def State.writeReg (s : State) (n : Nat) (v : W64) : State :=
  if n < 0x100 then s.writeSlotReg n v else if n < 0x400 then s.writeCoreReg n v else s.writeModReg n v

/-- Source 4 of Chrysalis: a refused write of a register from 0x400 on (R478). -/
def State.intrude (s : State) : State := s.post (.chrysalisAlarm 4 [s.myProc.vmid])

/-- The value that a write leaves: the fields the privilege may not write keep their old value (R329). -/
def mergeReg (mask : Nat) (old v : W64) : W64 := (v &&& w64 mask) ||| (old &&& ~~~(w64 mask))

/-- SYSW (R329). -/
def execSysw (r : AZ) (s : State) : Out :=
  .next (s.when r.g fun s =>
    let n := r.num.toNat
    let v := s.rd r.d
    match regAccess n with
    | none => s.illop
    | some a =>
      let priv := s.me.priv
      let mask := a.write priv
      let new := mergeReg mask (s.readReg n) v
      if priv < a.read || (!a.readOnly && mask == 0) then
        let s := s.raisePriv
        if 0x400 ≤ n then s.intrude else s
      else if a.readOnly then s.illop
      else if v &&& ~~~(w64 a.fields) != 0 || s.regIllop n v new then s.illop
      else if s.regPriv n v then
        let s := s.raisePriv
        if 0x400 ≤ n then s.intrude else s
      else s.writeReg n new)

/-! ## SVC, ERET, WAKE and HALT -/

/-- SVC (R330): the trap is taken at the bundle after it, and word B of its bundle is performed. -/
def execSvc (r : AR) (s : State) : Out :=
  .next (s.when r.g fun s =>
    let d := mkDue cSVC 0 0 (w64 (r.a.toNat * 32 + r.b.toNat)) (BitVec.ofNat 20 (s.pcNat + 8))
    if s.me.arch.landing.isEmpty then s.enterTrap s.cur d
    else s.modMe fun t => { t with due := t.due ++ [d] })

/-- ERET (R331). -/
def execEret (r : AR) (s : State) : Out :=
  .next (s.when r.g fun s =>
    if !s.me.inTrap then s.illop
    else match s.targetCheck (s.me.regs.tpc.toNat : Nat) with
      | some a => s.raise cSEGV 0 7 a
      | none => s.leaveTrap)

/-- The record that an answer with this sequence number reaches at the issuer's privilege (R332). -/
def State.openRecord (s : State) (seq : BitVec 32) : Option Parked :=
  s.imago.parked.find? fun k =>
    k.seq == seq && (s.me.priv == 2 || (k.kind ≤ 2 && k.vmid == s.myProc.vmid))

/-- WAKE (R332). -/
def execWake (r : AR) (s : State) : Out :=
  .next (s.when r.g fun s =>
    let seq : BitVec 32 := BitVec.ofNat 32 (s.rd r.a).toNat
    if s.me.priv = 0 then s.raisePriv
    else match s.openRecord seq with
      | some _ => (s.wr r.d 0).post (.parkedAnswer seq (tb 0 (s.rd r.b)))
      | none => s.wr r.d 1)

/-- HALT (R198): every landing lands and every non-returning atomic is acknowledged first; a trap that a landing
brings is taken and the thread does not halt. -/
def execHalt (r : AR) (s : State) : Out :=
  .next (s.when r.g fun s =>
    if s.me.arch.landing.any fun l => l.open then s.waitAgain .landing 0 0 fun _ => none
    else if !s.me.atomics.isEmpty then s.waitAgain .fence 0 0 fun _ => none
    else
      let s := s.modMe Slot.landAll
      if !s.me.due.isEmpty then { s.takeDue s.cur with bst := .stop }
      else s.endMe .halt)

end Sys2Proof.Machine
end

