-- ==== Sys2Proof/Machine/Sched.lean ====
section
/-!
DEFINITION. Launches and the dispenser (18 R371 to R382): user queues and doorbells, dispatch, launch refusal, wakes and
image load, completion with the status dword and the graph counter (07 R171, R172), launches of other modules (25
R466), and the end of a job (07 R173).
-/

namespace Sys2Proof.Machine

/-! ## What the dispenser reads and writes (R371, R376) -/

/-- What a pointer of a launch record comes to. -/
inductive Ptr where
  /-- Guest-physical and host-physical address and the memory type in force. -/
  | ok (gpa hpa mt : Nat)
  | bad
  /-- Its page, or that of a table entry, is blocked or busy now. -/
  | wait
  deriving DecidableEq, Repr

/-- A pointer of a launch record, translated at privilege G through the queue's root and VMID (R371). A pointer that is not 8-byte
aligned counts as a fault (log 21). -/
def State.dispXlate (s : State) (root : W64) (vmid la : Nat) (wr : Bool) : Ptr :=
  if !(tb 0 root) || la % 8 != 0 || 2 ^ 55 ≤ la then .bad else
  match (s.walkFrom Port.init vmid 0 la 5 (fld 47 12 root * 4096) [] []).res with
  | .ok l =>
    if !rights1 1 wr l.w l.u then .bad
    else if (s.blockOf vmid l.gpa).isSome then .wait
    else match s2Check vmid l.gpa l.mt wr (s.s2Find vmid l.gpa) with
      | .ok (l2, mt) => if l2.b then .wait else .ok l.gpa l2.hpa mt
      | .error _ => .bad
  | .wait => .wait
  | _ => .bad

/-- Does a pointer of a record wait for a page that is blocked or busy (R49)? -/
def State.ptrWaits (s : State) (root : W64) (vmid : Nat) (wr : Bool) (p : W64) : Bool :=
  p != 0 && s.dispXlate root vmid p.toNat wr = .wait

/-- Does any pointer of a launch record wait? -/
def State.recWaits (s : State) (r : List W64) (root : W64) (vmid : Nat) : Bool :=
  s.ptrWaits root vmid false (r.getD 7 0) || s.ptrWaits root vmid true (r.getD 6 0) || s.ptrWaits root vmid true (r.getD 8 0) ||
    (r.getD 3 0 != 0 && ((List.range 32).any fun i => s.dispXlate root vmid ((r.getD 3 0).toNat + 8 * i) false = .wait))

/-- A dword that the dispenser or the loader reads: in memory, or through the host window (R463). -/
def State.outerRead (s : State) (vmid gpa hpa mt : Nat) : Option W64 :=
  if mt = 2 || Config.doorbellBase ≤ hpa then
    (if Config.hostWindowBase ≤ hpa then some (Config.hostDword (s.clk * 2 ^ 48 + hpa)) else none)
  else if s.secBad vmid gpa hpa then none
  else some (w64 (s.pgRead vmid gpa hpa 8))

/-- A dword behind a pointer of a launch record. -/
def State.dispRead (s : State) (root : W64) (vmid la : Nat) : Option W64 :=
  match s.dispXlate root vmid la false with
  | .ok g h mt => s.outerRead vmid g h mt
  | _ => none

/-- n dwords behind a pointer. -/
def State.dispReads (s : State) (root : W64) (vmid la : Nat) : Nat → Option (List W64)
  | 0 => some []
  | n + 1 =>
    match s.dispRead root vmid la, s.dispReads root vmid (la + 8) n with
    | some v, some l => some (v :: l)
    | _, _ => none

/-- May a pointer be written: W, not poisoned, not a device (R371)? -/
def State.dispWritable (s : State) (root : W64) (vmid la : Nat) : Option (Nat × Nat) :=
  match s.dispXlate root vmid la true with
  | .ok g h mt => if mt = 2 || s.secBad vmid g h then none else some (g, h)
  | _ => none

/-- A dword of a ring, at a guest-physical address of the queue's VMID (R376). -/
def State.ringRead (s : State) (vmid gpa : Nat) : Option W64 :=
  if (s.blockOf vmid gpa).isSome then none else
  match s.s2Find vmid gpa with
  | .ok l => if l.r && !l.b then s.outerRead vmid gpa l.hpa l.mt else none
  | .bad _ _ => none

/-- n dwords of a ring. -/
def State.ringReads (s : State) (vmid gpa : Nat) : Nat → Option (List W64)
  | 0 => some []
  | n + 1 =>
    match s.ringRead vmid gpa, s.ringReads vmid (gpa + 8) n with
    | some v, some l => some (v :: l)
    | _, _ => none

/-! ## Hardware queue slots (R376, R377) -/

/-- VMID of a slot. -/
def DQ.vmid (q : DQ) : Nat := fld 7 0 q.cfg
/-- Job of a slot. -/
def DQ.job (q : DQ) : Nat := fld 23 8 q.cfg
/-- Tier of a slot. -/
def DQ.tier (q : DQ) : Nat := fld 25 24 q.cfg
/-- Does the ring hold launch records? -/
def DQ.launches (q : DQ) : Bool := tb 26 q.cfg
/-- Records of the ring. -/
def DQ.size (q : DQ) : Nat := 2 ^ fld 31 28 q.cfg
/-- HEAD modulo the ring. -/
def DQ.head (q : DQ) : Nat := fld 15 0 q.ptr % q.size
/-- TAIL modulo the ring. -/
def DQ.tail (q : DQ) : Nat := fld 31 16 q.ptr % q.size
/-- Is the slot served and does its ring hold a record? -/
def DQ.holds (q : DQ) : Bool := tb 32 q.cfg && q.head != q.tail

/-- Record i of a slot's ring (R376). -/
def State.dqRecord (s : State) (q : DQ) (i : Nat) : Option (List W64) :=
  let n := if q.launches then 16 else 8
  s.ringReads q.vmid (fld 47 7 q.base * 128 + i * (8 * n)) n

/-- HEAD moves on to the next record, whose DEP has not been read yet. -/
def State.advance (s : State) (k : Nat) : State :=
  let s := s.modDq k fun q =>
    { q with ptr := setFld 15 0 ((fld 15 0 q.ptr + 1) % q.size) q.ptr, dep := none, stuck := false,
             drop := q.drop.filter fun i => i != q.head }
  if (s.dq k).holds then s.post (.depReread k) else s

/-- The hardware queue slot that a user queue is mapped to (R377). -/
def State.mapped (s : State) (u : Nat) : Option Nat :=
  (s.dqs.find? fun e => tb 48 e.2.ptr && fld 47 32 e.2.ptr == u).map fun e => e.1

/-- Base of the doorbell summary (R376). -/
def State.dbsum (s : State) : Nat := fld 47 12 s.regs.dbsum * 4096

/-- A write of Lomter's tables as VMID 0; a poisoned sector takes none and stays poisoned (R127). -/
def State.writeGood (s : State) (a n v : Nat) : State := if s.secBad 0 a a then s else s.homeWrite 0 a a n v none

/-- A doorbell is rung: TAIL of the mapped slot, or the tail word, the summary bit and a notice to Imago (R377). -/
def State.ringBell (s : State) (u v : Nat) : State :=
  let t := v % 65536
  match s.mapped u with
  | some k =>
    let s := s.modDq k fun q => { q with ptr := setFld 31 16 t q.ptr }
    if (s.dq k).dep.isNone then s.post (.depReread k) else s
  | none =>
    let b := s.dbsum
    let a := b + u / 8
    let s := s.writeGood (b + 0x2000 + 2 * u) 2 t
    let s := s.writeGood a 1 (s.pgRead 0 a a 1 ||| 2 ^ (u % 8))
    s.record (.notice 377 u)

/-- Is the function of a user queue's doorbell page enabled (R459, R460)? -/
def State.vfOn (s : State) (u : Nat) : Bool := tb 8 (spGet 0 s.regs.vfmap (u / 1024 % 64))

/-- DOORBELL_WRITE: the host's write to a doorbell page of a function that is enabled; it is applied after every posted write that the
function sent before it (R377, R459, R462). -/
def execDoorbellWrite (queue : BitVec 16) (v : BitVec 32) (s : State) : Out :=
  let u := queue.toNat
  .next (if !s.vfOn u then s.toHost .refused else if s.hostBefore (u / 1024) s.nextId then
      let i : Item := .device { lpn := Config.imagoLpn, slot := hostSlot } (Config.doorbellBase + 4096 * u) 4 (some (v.setWidth 64)) false
      (s.launchItem i).post (i.event s.nextId)
    else s.ringBell u v.toNat)

/-- The value that a read of a doorbell page at offset 4 returns (R377). -/
def State.headWord (s : State) (u : Nat) : BitVec 32 :=
  match s.mapped u with
  | some k => BitVec.ofNat 32 (fld 15 0 (s.dq k).ptr)
  | none => BitVec.allOnes 32

/-- DOORBELL_HEAD_READ: a read by the host; it changes nothing and its value leaves the module (R377, R459). -/
def execDoorbellHeadRead (queue : BitVec 16) (s : State) : Out :=
  .next (s.toHost (if s.vfOn queue.toNat then .value ((s.headWord queue.toNat).setWidth 64) else .refused))

/-- DQPTR_WRITE: the selected slot's pointers; mapping a user queue with its summary bit set loads TAIL from its tail word
and clears the bit, in the same step (R377). -/
def execDqptrWrite (v : W64) (s : State) : Out :=
  let k := s.dqSel
  .next (
    let s := s.modDq k fun q => { q with ptr := v, dep := none, stuck := false }
    let u := fld 47 32 v
    let b := s.dbsum
    let a := b + u / 8
    let bits := s.pgRead 0 a a 1
    let s := if tb 48 v && bits / 2 ^ (u % 8) % 2 == 1 then
        let t := s.pgRead 0 (b + 0x2000 + 2 * u) (b + 0x2000 + 2 * u) 2
        (s.modDq k fun q => { q with ptr := setFld 31 16 t q.ptr }).writeGood a 1 (bits - 2 ^ (u % 8))
      else s
    s.post (.depReread k))

/-! ## Launch records (R371, R372) -/

/-- Dword i of a record. -/
def recDw (r : List W64) (i : Nat) : W64 := r.getD i 0

/-- Privilege at which a launch starts its threads: G or U (R371). -/
def recPriv (r : List W64) : Nat := if tb 23 (recDw r 0) then 1 else 0

/-- Width of the rectangle. -/
def recW (r : List W64) : Nat := fld 24 19 (recDw r 2) + 1
/-- Height of the rectangle. -/
def recH (r : List W64) : Nat := fld 31 25 (recDw r 2) + 1
/-- Processes of the launch in each module. -/
def recProcs (r : List W64) : Nat := fld 47 32 (recDw r 2)

/-- Are the fields of a record legal (R371, R372)? -/
def recGood (r : List W64) (pg : Bool) : Bool :=
  fld 63 24 (recDw r 0) == 0 && fld 2 0 (recDw r 0) == 0 && fld 63 54 (recDw r 2) == 0 &&
    (r.drop 9).all (fun v => v == 0) &&
    recProcs r != 0 && recProcs r ≤ recW r * recH r && fld 11 6 (recDw r 2) + recW r ≤ 64 && fld 18 12 (recDw r 2) + recH r ≤ 128 &&
    fld 5 0 (recDw r 2) + fld 53 48 (recDw r 2) ≤ 63 && (pg || !(tb 23 (recDw r 0)))

/-- Does the launch place processes in this module (R466)? -/
def State.recHere (s : State) (r : List W64) : Bool :=
  fld 5 0 (recDw r 2) ≤ s.module && s.module ≤ fld 5 0 (recDw r 2) + fld 53 48 (recDw r 2)

/-- The cores that the rectangle names, in the order of the processes (R371). -/
def recRect (r : List W64) : List Nat :=
  (List.range (recProcs r)).map fun k => coreAt (fld 11 6 (recDw r 2) + k % recW r) (fld 18 12 (recDw r 2) + k / recW r)

/-- The cores to which the launch's wakes go: the rectangle, or the present hosts of its LPNs (R371); none where an LPN has
no placement entry. -/
def State.recCores (s : State) (r : List W64) : Option (List Nat) :=
  if recDw r 3 != 0 then some (recRect r)
  else
    let lpns := (recRect r).map s.coreNumber
    if lpns.all fun l => spHas s.place l then some (lpns.map fun l => (spGet Place.init s.place l).core) else none

/-- Is an image header malformed (R373)? -/
def headerBad (h : List W64) (priv : Nat) : Bool :=
  let d (i : Nat) : W64 := h.getD i 0
  let lm := d 2
  let outside (m : Nat) (v : W64) : Bool := v &&& ~~~(w64 m) != 0
  d 0 != 0x9E51 || outside 0xFFFF0F lm || 8 < fld 3 0 lm || 251 < 16 * fld 3 0 lm + fld 15 8 lm + fld 23 16 lm ||
    (d 1).toNat % 8 != 0 || imageTop lm - 0x4000 < (d 1).toNat || outside 0xFFFFF (d 3) || fld 2 1 (d 3) == 3 ||
    priv < fld 2 1 (d 3) || outside 0xFFFFFFFFFFFFF000 (d 4) || d 7 != 0 ||
    ((List.range 7).any fun n => outside segHiFields (d (9 + 2 * n))) || ((h.drop 22).any fun v => v != 0)

/-- Is a launch refused (R372)? -/
def State.recRefused (s : State) (r : List W64) (job vmid : Nat) (root : W64) (pg : Bool) : Bool :=
  let ptr (i : Nat) : Bool := recDw r i == 0 || (s.dispRead root vmid (recDw r i).toNat).isSome
  let wptr (i : Nat) : Bool := recDw r i == 0 || (s.dispWritable root vmid (recDw r i).toNat).isSome
  let tagBad (c : Nat) : Bool :=
    let j := (s.proc (s.core c).host).job
    if recDw r 3 != 0 then j != 0 && j != job else j != job
  !recGood r pg || !ptr 7 || !wptr 6 || !wptr 8 ||
    (s.recHere r && (match s.recCores r with
      | none => true
      | some cs => cs.any tagBad)) ||
    (recDw r 3 != 0 && (match s.dispReads root vmid (recDw r 3).toNat 32 with
      | none => true
      | some h => headerBad h (recPriv r)))

/-- Is a tenant withheld on a row (R381, R473, R475), or by a level-2 alarm (R335)? -/
def State.withheldAt (s : State) (core vmid : Nat) : Bool :=
  s.rowWithheld (rowOf core) || tb 56 (spGet pwrtReset s.regs.pwrt vmid) ||
    (s.cores.any fun c => c.2.frzAlarm && (s.proc c.2.host).vmid == vmid) || (s.procs.any fun p => p.2.alarm && p.2.vmid == vmid)

/-- The lowest LID that no incomplete launch of the job uses (R379). -/
def State.freeLid (s : State) (job vmid : Nat) : Option Nat :=
  let used := (s.launches.filter fun l => l.job.toNat == job && l.vmid.toNat == vmid).map fun l => l.lid
  ((List.range (used.length + 1)).find? fun n => !used.contains n).filter fun n => n < 65536

/-- A key for the counter of a job. -/
def jobKey (job vmid : Nat) : Nat := vmid * 65536 + job

/-! ## Dispatch (R378 to R381) -/

/-- What the head record of a slot allows. -/
inductive Head where
  /-- No record, or one that cannot be dispatched now. -/
  | idle
  /-- A record that a power limit or an alarm withholds. -/
  | withheld
  /-- A refused launch, a launch for the cores, a task record to discard, a task for a process. -/
  | refuse (r : List W64)
  | launch (r : List W64) (cores : List Nat)
  | discard
  | task (r : TaskRec)
  /-- A task record whose level is full. -/
  | full
  deriving DecidableEq, Repr

/-- Eight dwords as a task record. -/
def taskOf (l : List W64) : TaskRec := Vector.ofFn fun i : Fin 8 => l.getD i.val 0

/-- May a queue's task record be placed (R380): a legal record of a started launch of the job, for a process that has an
entry and the queue's core tag? -/
def State.taskPlaceable (s : State) (q : DQ) (r : TaskRec) : Bool :=
  !taskBad r && !(tb 23 r[0]) && (s.launches.any fun l => l.named (taskLid r) q.job q.vmid && l.st != 1) &&
    spHas s.place (taskDst r) && (s.proc (taskDst r)).job == q.job && (s.proc (taskDst r)).vmid == q.vmid

/-- The head of a slot as the dispenser judges it; a task for a frozen core waits (R335, R378 to R381; log 70). -/
def State.judge (s : State) (q : DQ) : Head :=
  if !q.holds then .idle else
  match s.dqRecord q q.head with
  | none => .idle
  | some r =>
    if q.launches then
      if s.recWaits r q.root q.vmid then .idle
      else if s.recRefused r q.job q.vmid q.root (tb 27 q.cfg) then .refuse r
      else if q.dep != some true || (s.freeLid q.job q.vmid).isNone then .idle
      else match (if s.recHere r then s.recCores r else some []) with
        | none => .idle
        | some cs =>
          if cs.any fun c => (s.core c).latch.isSome then .idle
          else if cs.any fun c => s.withheldAt c q.vmid then .withheld
          else .launch r cs
    else
      let t := taskOf r
      if !s.taskPlaceable q t then .discard
      else if s.withheldAt (s.hostOf (taskDst t)) q.vmid then .withheld
      else if (s.core (s.hostOf (taskDst t))).frozen then .idle
      else if q.stuck then .idle
      else if 8 ≤ (s.proc (taskDst t)).levelCount (taskLevel t) then .full
      else .task t

/-- Is a judged head pending? -/
def Head.pending : Head → Bool
  | .refuse _ => true
  | .launch _ _ => true
  | .discard => true
  | .task _ => true
  | _ => false

/-- Writes the STATUS dword of a launch as one step, or notifies Imago (R372, R382). -/
def State.putStatus (s : State) (r : List W64) (root : W64) (vmid lid st : Nat) : State :=
  if recDw r 8 = 0 then s else
  match s.dispWritable root vmid (recDw r 8).toNat with
  | none => s.record (.notice 372 lid)
  | some (g, h) => s.homeWrite vmid g h 8 (st + lid * 2 ^ 16 + 2 ^ 63) none

/-- The step of the graph counter: one less, unless it is 0 already (R172). -/
def State.stepGraph (s : State) (r : List W64) (root : W64) (vmid : Nat) : State :=
  if recDw r 6 = 0 then s else
  match s.dispWritable root vmid (recDw r 6).toNat with
  | none => s.record (.notice 372 1)
  | some (g, h) =>
    let v := s.pgRead vmid g h 8
    if v = 0 then s.record (.notice 172 0) else s.homeWrite vmid g h 8 (v - 1) none

/-- A launch that ends without having started: refused (2) or cancelled (1), with LID 0 (R174, R372, R382). -/
def State.endUnstarted (s : State) (r : List W64) (root : W64) (vmid st : Nat) : State :=
  (s.putStatus r root vmid 0 st).stepGraph r root vmid

/-- Starts a launch: its entries go to the placement table, then its wakes leave; the record goes to the other modules it
names (R171, R173, R379, R433, R466). -/
def State.beginLaunch (s : State) (r : List W64) (job : BitVec 16) (vmid : BitVec 8) (root : W64) (lid : Nat) (cores : List Nat)
    (foreign : Bool) (pg : Bool) : State :=
  let id := s.nextId
  let l : Launch := { id := id, lid := lid, job := job, vmid := vmid, root := root, rcd := r, counter := 0, engines := 0, st := 0,
                      starting := cores.length, foreign := foreign }
  let jk := jobKey job.toNat vmid.toNat
  let s := { s.fresh with launches := s.launches ++ [l], jobs := spPut s.jobs jk (spGet 0 s.jobs jk + 1) }
  let s := if recDw r 3 = 0 then s
    else forEach cores s fun s c =>
      { s with place := spPut s.place (s.coreNumber c) { spGet Place.init s.place (s.coreNumber c) with core := c } }
  let lpns := (recRect r).map s.coreNumber
  let s := forEach (cores.zip lpns) s fun s e =>
    let w : Wake := { lid := lid, job := job, vmid := vmid, root := root, lpn := e.2, rcd := r, launch := id }
    (s.launchItem (.wake e.1 w)).post (.launchWake s.nextId)
  let mods := (List.range (fld 53 48 (recDw r 2) + 1)).map fun k => fld 5 0 (recDw r 2) + k
  let out : List Item := (mods.filter fun m => !foreign && m != s.module).map fun m =>
    .launchRecord m r job vmid root (BitVec.ofNat 16 lid) pg
  let s := { s with outbox := s.outbox ++ out }
  if cores.isEmpty then s.post (.launchComplete id) else s

/-- Serves the head record of a slot (R378 to R380). -/
def State.serveHead (s : State) (k : Nat) (h : Head) : State :=
  let q := s.dq k
  let s := s.advance k
  match h with
  | .refuse r => s.endUnstarted r q.root q.vmid 2
  | .launch r cs =>
    match s.freeLid q.job q.vmid with
    | some lid => s.beginLaunch r (BitVec.ofNat 16 q.job) (BitVec.ofNat 8 q.vmid) q.root lid cs false (tb 27 q.cfg)
    | none => s
  | .discard => s.record (.notice 380 k)
  | .task r => ((s.postTask (taskDst r) r).1).rouse (s.hostOf (taskDst r))
  | _ => s

/-- Skips the records at a slot's head whose launches were cancelled before they started (R174). -/
def State.skipDropped (k : Nat) : Nat → State → State
  | 0, s => s
  | n + 1, s => if (s.dq k).holds && (s.dq k).drop.contains (s.dq k).head then State.skipDropped k n (s.advance k) else s

/-- Notes a full level, to be tried again after 256 cycles, and a withheld tenant (R380, R475). -/
def State.noteHead (s : State) (k : Nat) : Head → State
  | .full => (s.modDq k fun q => { q with stuck := true }).after .network 256 (.taskRecordRetry k)
  | .withheld =>
    let v := (s.dq k).vmid
    if s.withheld.contains v then s else { s with withheld := s.withheld ++ [v] }
  | _ => s

/-- The pending slot to serve: the earliest aged one, else the next in turn of the lowest tier (R378). -/
def State.chooseSlot (s : State) (l : List Nat) : Option Nat :=
  match bestBy (fun k => ((s.dq k).aged.getD 0)) (l.filter fun k => (s.dq k).aged.isSome) with
  | some k => some k
  | none =>
    bestBy (fun k =>
      let t := (s.dq k).tier
      t * 2048 + (k + 1024 - (spGet 1023 s.dqLast t + 1) % 1024) % 1024) l

/-- The other pending slots count a dispatch; one whose count reaches AGELIM is aged (R378). -/
def DQ.unserved (lim now : Nat) (q : DQ) : DQ :=
  { q with waited := q.waited + 1, aged := if q.aged.isNone && lim ≤ q.waited + 1 then some now else q.aged }

/-- DISPATCH: the dispenser serves one pending slot (R378). -/
def execDispatch (s : State) : Out :=
  let ks := s.dqs.map fun e => e.1
  let s := forEach ks s fun s k => State.skipDropped k 65536 s
  let s := forEach ks s fun s k => s.noteHead k (s.judge (s.dq k))
  let pend := ks.filter fun k => (s.judge (s.dq k)).pending
  .next (match s.chooseSlot pend with
    | none => s
    | some k =>
      let h := s.judge (s.dq k)
      let lim := fld 31 0 s.regs.dqage
      let s := { s with dispatches := s.dispatches + 1, dqLast := spPut s.dqLast (s.dq k).tier k }
      let s := forEach (pend.filter fun j => j != k) s fun s j => s.modDq j (DQ.unserved lim s.dispatches)
      let s := s.modDq k fun q => { q with waited := 0, aged := none }
      s.serveHead k h)

/-- DEP_REREAD: the head launch record's DEP dword is read, once when it becomes the head and again every 1,024 cycles
while it is not 0 (R379). -/
def execDepReread (queue : Nat) (s : State) : Out :=
  let q := s.dq queue
  .next (if !q.holds || !q.launches || q.dep = some true then s else
    match s.dqRecord q q.head with
    | none => s
    | some r =>
      if s.ptrWaits q.root q.vmid false (recDw r 7) then s.after .network 1 (.depReread queue) else
      let v := if recDw r 7 = 0 then some 0 else s.dispRead q.root q.vmid (recDw r 7).toNat
      let ok := match v with
        | some x => x == 0
        | none => true
      let s := s.modDq queue fun q => { q with dep := some ok }
      if ok then s
      else { s with timers := s.timers.filter fun t => t.ev != Ev.depReread queue }.after .network 1024 (.depReread queue))

/-- TASK_RECORD_RETRY: a queue whose level was full is tried again (R380). -/
def execTaskRecordRetry (queue : Nat) (s : State) : Out :=
  let q := s.dq queue
  .next (if !q.stuck then s else
    match s.judge { q with stuck := false } with
    | .full => s.after .network 256 (.taskRecordRetry queue)
    | _ => s.modDq queue fun q => { q with stuck := false })

/-- REMOTE_LAUNCH_RECORD: another module's launch is checked as an own record; a refusal is reported and starts nothing
(R466). -/
def execRemoteLaunchRecord (rec_ : List W64) (job : BitVec 16) (vmid : BitVec 8) (root : W64) (lid : BitVec 16) (pg : Bool)
    (s : State) : Out :=
  .next (if s.recWaits rec_ root vmid.toNat then s.after .network 1 (.remoteLaunchRecord rec_ job vmid root lid pg)
    else match s.recRefused rec_ job.toNat vmid.toNat root pg, s.recCores rec_ with
    | false, some cs =>
      if s.recHere rec_ then s.beginLaunch rec_ job vmid root lid.toNat cs true pg
      else { s with outbox := s.outbox ++ [.launchReport job vmid lid 2] }
    | _, _ => { s with outbox := s.outbox ++ [.launchReport job vmid lid 2] })

/-! ## Wakes, image load and start (R373, R374, R379) -/

/-- The core takes the process that its number names: the core that hosted it takes the one hosted here, whose placement entry
follows as in a swap (R13, R77, R449; log 22). -/
def State.placeHere (s : State) (core lpn : Nat) : State :=
  let old := (s.core core).host
  if old = lpn then s
  else
    let d := s.hostOf lpn
    let s := (s.emptyStash core).emptyStash d
    let s := (s.modProc old fun p => { p with core := d }).modCore d fun c => { c with host := old }
    let s := (s.modProc lpn fun p => { p with core := core }).modCore core fun c => { c with host := lpn }
    if spHas s.place old then (s.forwardTo old core d).movePlace old d core else s

/-- LAUNCH_WAKE: a wake reaches its core, writes CORETAG and XROOT and fills the launch latch. It waits at a frozen core,
powers a gated one up, and follows a process that has moved. With an image, a core whose process is of no job takes the process of its
number first (R13, R30, R34, R335, R379, R470). -/
def execLaunchWake (id : Nat) (s : State) : Out :=
  .next (match s.item id with
    | some (.wake c w) =>
      let x := s.core c
      if recDw w.rcd 3 = 0 && x.host != w.lpn then
        (s.putItem id (.wake (s.hostOf w.lpn) w)).post (.launchWake id)
      else if x.frozen then s.modCore c fun x => { x with held := x.held ++ [id] }
      else
        let s := s.dropItem id
        let tag := w64 (w.job.toNat + w.vmid.toNat * 65536)
        let s := if recDw w.rcd 3 != 0 && (s.proc x.host).job = 0 then s.placeHere c (s.coreNumber c) else s
        let x := s.core c
        let p := s.proc x.host
        let s := if p.coretag = tag && p.xroot = w.root then s else s.emptyStash c
        let s := s.modProc x.host fun p => { p with coretag := tag, xroot := w.root }
        let s := s.modCore c fun x => { x with latch := some w, load := none }
        let s := s.rouse c
        s.post (.launchStart c)
    | _ => s)

/-- What a read of the loader answers. -/
inductive Load where
  | ok (l : List W64)
  /-- It parks on a translation fault. -/
  | park (f : XFault) (la : Nat)
  /-- A page that it reads, or a table entry's, is blocked or busy now. -/
  | wait
  /-- It cannot go on: poison, a device page, an unaligned part, or XROOT.E = 0. -/
  | stop
  deriving DecidableEq, Repr

/-- n dwords that the loader reads as engine elements under the new core tag (R373). -/
def State.loadReads (s : State) (p : Proc) (la : Nat) : Nat → Load
  | 0 => .ok []
  | n + 1 =>
    if la % 8 != 0 || 2 ^ 55 ≤ la then .stop else
    match s.xlate p 1 false la with
    | .fault f => .park f la
    | .off => .stop
    | .wait => .wait
    | .ok l1 l2 mt =>
      if l2.b || (s.blockOf p.vmid l1.gpa).isSome then .wait else
      match s.outerRead p.vmid l1.gpa l2.hpa mt with
      | none => .stop
      | some v =>
        match s.loadReads p (la + 8) n with
        | .ok l => .ok (v :: l)
        | r => r

/-- Continues with the dwords read. -/
def Load.bind (r : Load) (f : List W64 → Load) : Load :=
  match r with
  | .ok l => f l
  | x => x

/-- Dwords of the empty map of a body. -/
def mapWords (len : Nat) : Nat := (len / 8 + 63) / 64

/-- The whole image: 32 dwords of header, the body, the empty map, nine dwords of channel table (R373). -/
def State.loadAll (s : State) (p : Proc) (img priv : Nat) : Load :=
  (s.loadReads p img 32).bind fun h =>
    if headerBad h priv then .stop else
    let len := (recDw h 1).toNat
    (s.loadReads p (img + 0x100) (len / 8)).bind fun body =>
    (if recDw h 5 = 0 then Load.ok (List.replicate (mapWords len) 0)
      else s.loadReads p (img + (recDw h 5).toNat) (mapWords len)).bind fun map =>
    (if recDw h 6 = 0 then Load.ok (List.replicate 9 0) else s.loadReads p (img + (recDw h 6).toNat) 9).bind fun ch =>
    .ok (h ++ body ++ map ++ ch)

/-- Writes dwords to local memory in order. -/
def State.putDwords (s : State) (lpn off : Nat) : List W64 → State
  | [] => s
  | v :: l => (s.hwWrite lpn off v).putDwords lpn (off + 8) l

/-- The segment template of a header (R25, R373). -/
def headerSegs (h : List W64) : Vector (BitVec 128) 8 :=
  Vector.ofFn fun i : Fin 8 => if i.val = 0 then 0 else (recDw h (7 + 2 * i.val)) ++ (recDw h (6 + 2 * i.val))

/-- IMAGE_LOAD: the header values, the process state at its reset values, the body and the full bits (R65, R240, R301, R346,
R362, R373, R384, R419, R443). -/
def State.installImage (s : State) (lpn : Nat) (tag root : W64) (anchored : Bool) (l : List W64) : State :=
  let h := l.take 32
  let n := (recDw h 1).toNat / 8
  let body := (l.drop 32).take n
  let map := (l.drop (32 + n)).take (mapWords (8 * n))
  let ch := l.drop (32 + n + mapWords (8 * n))
  let empt := (List.range n).filter fun i => (map.getD (i / 64) 0).getLsbD (i % 64)
  let s := (s.emptyStash (s.hostOf lpn)).clearAreas lpn (s.proc lpn).lmmap (recDw h 2)
  let s := s.modProc lpn fun p =>
    { p with coretag := tag, xroot := root, lmmap := recDw h 2, tvdef := recDw h 3, spillq := recDw h 4, segt := headerSegs h,
             ready := [], bars := [], mbox := [], mx := Matrix.init, taskcfg := taskcfgReset, fieldcfg := 0, crowd := 12,
             fieldbar := 0, ftab := 0, fstat := 0, ftabs := [], snap := [], halo := [], anc := false, lanc := anchored }
  let s := (s.squashBlocks lpn fun _ => true).putDwords lpn 0x4000 body
  let s := forEach (List.range 9) s fun s k => s.hwWrite lpn (if k < 8 then 0x3400 + 0x40 * k else 0x3600) (ch.getD k 0)
  let others := s.empty.filter fun a => a < winAddr lpn 0 || winAddr lpn Config.localSize ≤ a
  { s with empty := forEach empt others fun e i => insNat (winAddr lpn (0x4000 + 8 * i)) e }.serveWords lpn fun _ => true

/-- The load of a latch has failed: the core starts nothing, and the launch ends with status 2 (R373). -/
def State.loadFail (s : State) (core : Nat) : State :=
  match (s.core core).latch with
  | none => s
  | some w =>
    let s := s.modCore core fun c => { c with latch := none, load := none }
    let upd (l : Launch) : Launch := { l with starting := l.starting - 1, st := if l.st = 0 then 2 else l.st }
    let s := { s with launches := mapIf (fun l => l.id == w.launch) upd s.launches }
    s.postAll ((s.launches.filter fun l => l.id == w.launch && l.past).map fun l => .launchComplete l.id)

/-- Slot 0 starts from the latch (R374). -/
def State.startSlot0 (s : State) (core : Nat) (w : Wake) : State :=
  let s := s.modCore core fun c => { c with latch := none, load := none }
  let lpn := (s.core core).host
  let upd (l : Launch) : Launch := { l with starting := l.starting - 1, counter := l.counter + 1 }
  let s := { s with launches := mapIf (fun l => l.id == w.launch) upd s.launches }
  s.startThread { lpn := lpn, slot := 0 } (fld 19 0 (recDw w.rcd 0)) [recDw w.rcd 1] (recDw w.rcd 4) (recDw w.rcd 5) 0
    (fld 21 20 (recDw w.rcd 0)) w.lid (recPriv w.rcd)

/-- May the latch of a core start now (R379, R443)? -/
def State.latchReady (s : State) (core : Nat) : Bool :=
  let c := s.core core
  let p := s.proc c.host
  match c.latch with
  | none => false
  | some w =>
    !c.frozen && !c.gated && c.load.isNone &&
      (if recDw w.rcd 3 = 0 then c.host != w.lpn || (p.slot 0).st == .absent && !(p.slot 0).reserved && c.swap.isNone
       else allSlots.all fun n => (p.slot n).st == .absent && !(p.slot n).reserved)

/-- LAUNCH_START: the core starts its process from the latch; an image is loaded first, and a translation fault parks the
load (R373, R379, R443). -/
def execLaunchStart (core : Nat) (s : State) : Out :=
  .next (if !s.latchReady core then s else
    match (s.core core).latch with
    | none => s
    | some w =>
      let anchored := tb 22 (recDw w.rcd 0)
      if recDw w.rcd 3 = 0 && (s.core core).host != w.lpn then
        let d := s.hostOf w.lpn
        if (s.core d).latch.isSome then s
        else ((s.modCore core fun c => { c with latch := none }).modCore d fun c => { c with latch := some w }).post (.launchStart d)
      else if recDw w.rcd 3 = 0 then
        let lpn := (s.core core).host
        (s.modProc lpn fun p => { p with lanc := anchored || (tb 0 p.fieldcfg && !p.anc) }).startSlot0 core w
      else
        let lpn := s.coreNumber core
        let tag := w64 (w.job.toNat + w.vmid.toNat * 65536)
        let s := s.placeHere core lpn
        let p := { s.proc lpn with coretag := tag, xroot := w.root }
        match s.loadAll p (recDw w.rcd 3).toNat (recPriv w.rcd) with
        | .ok l => (s.installImage lpn tag w.root anchored l).startSlot0 core w
        | .stop => s.loadFail core
        | .wait => s.after .network 1 (.launchStart core)
        | .park f la =>
          let id := s.nextId
          let s := s.fresh.modProc lpn fun p => { p with coretag := tag, xroot := w.root }
          (s.openFaultAs { lpn := lpn, slot := 0 } (some id) 0 3 0 f la).modCore core fun c => { c with load := some id })

/-! ## Completion and the end of a job (R171 to R173) -/

/-- Does a committing chunk hold the line of a pointer that the completion writes, or does the pointer wait (R49, R140)? -/
def State.pointerHeld (s : State) (l : Launch) (i : Nat) : Bool :=
  s.ptrWaits l.root l.vmid.toNat true (recDw l.rcd i) || recDw l.rcd i != 0 && match s.dispWritable l.root l.vmid.toNat (recDw l.rcd i).toNat with
    | some (g, _) => s.lineHeld (.paged l.vmid.toNat (g / 256)) none
    | none => false

/-- LAUNCH_COMPLETE: the status dword is written, then the graph counter stepped; the job's count falls. A launch of another
module reports there (R171 to R173, R382, R466). -/
def execLaunchComplete (id : Nat) (s : State) : Out :=
  .next (match s.launches.find? fun l => l.id == id && l.past with
    | none => s
    | some l =>
      if !l.foreign && (s.pointerHeld l 8 || s.pointerHeld l 6) then s.after .network 1 (.launchComplete id)
      else
        let v := l.vmid.toNat
        let jk := jobKey l.job.toNat v
        let s := { s with launches := s.launches.filter fun x => x.id != id, jobs := spPut s.jobs jk (spGet 0 s.jobs jk - 1) }
        if l.foreign then { s with outbox := s.outbox ++ [.launchReport l.job l.vmid (BitVec.ofNat 16 l.lid) l.st] }
        else (s.putStatus l.rcd l.root v l.lid l.st).stepGraph l.rcd l.root v)

/-- What Lomter clears in a process of an ended job (R30, R34, R64). -/
def State.clearProc (s : State) (lpn : Nat) : State :=
  let here (a : Nat) : Bool := winAddr lpn 0 ≤ a && a < winAddr lpn Config.localSize
  let s := s.emptyStash (s.hostOf lpn)
  let mem := s.mem.filter fun c => !here c.1
  let s := { s with mem := mem, empty := s.empty.filter fun a => !here a, badWords := s.badWords.filter fun a => !here a,
                    place := spDel s.place lpn }
  s.modProc lpn fun p =>
    { p with coretag := 0, xroot := 0, used := 0, inHead := 0, inCount := 0, spill := [], seqLru := [], rwait := [], skips := [] }

/-- JOB_END: Lomter ends a job whose counter is 0: CORETAG, XROOT, the used bits, the sequence tables and the placement
entries of its processes are cleared (R30, R34, R64, R173, R433). -/
def execJobEnd (job : BitVec 16) (s : State) : Out :=
  let idle := s.jobs.all fun e => e.1 % 65536 != job.toNat || e.2 == 0
  .next (if job = 0 || !idle then s
    else forEach ((s.procs.filter fun p => p.2.job == job.toNat).map fun p => p.1) s fun s lpn => s.clearProc lpn)

end Sys2Proof.Machine
end

