-- ==== Sys2Proof/Machine/Tlb.lean ====
section
/-!
DEFINITION. TLBI and its broadcast (02 R54 to R57), and the answer of a parked fault (02 R52, 14 R326).
-/

namespace Sys2Proof.Machine

/-! ## The broadcast (R55, R56) -/

/-- Member number of a row port. -/
def rowMember (row : Nat) : Nat := 10000 + row

/-- Member number of a stage-two unit. -/
def baseMember (b : Nat) : Nat := 20000 + b

/-- The members of the reach that may hold anything, row ports and stage-two units before cores, each of which then finds no translation
that is older (R55, R57). The others have nothing to remove and acknowledge at once (R56). -/
def State.tlbReach (s : State) : List Nat :=
  (((s.ports.map fun p => p.1) ++ s.cores.map fun c => rowOf c.1).eraseDups.map rowMember) ++
  (s.bases.map fun b => baseMember b.1) ++ s.cores.map fun c => c.1

/-- The thread leaves the rotation until every member has acknowledged (R55). -/
def State.broadcast (s : State) (kind vmid job addr : Nat) : State :=
  let left := s.tlbReach
  let s := s.hold .tlbi 0 0 0 fun _ => none
  let t : Tlbi := { who := s.cur, kind := kind, vmid := vmid, job := job, addr := addr, left := left }
  let s := { s with tlbis := s.tlbis ++ [t] }
  if left.isEmpty then s.post (.tlbiDone s.cur.lpn s.cur.slot) else s.postAll (left.map fun m => .tlbiInvalidate m)

/-- The own VMID of TLBI: VMID 0 at M (R54). -/
def State.ownVmid (s : State) : Nat := if s.me.priv = 2 then 0 else s.myProc.vmid

/-- The own job of TLBI: job 0 at M (R54). -/
def State.ownJob (s : State) : Nat := if s.me.priv = 2 then 0 else s.myProc.job

/-- TLBI.VA (R54, R55); an address with any of bits 63:55 set matches no entry. -/
def execTlbiVa (r : AR) (s : State) : Out :=
  .next (s.when r.g fun s =>
    let a := (s.rd r.a).toNat
    if s.me.priv = 0 then s.raisePriv
    else if 2 ^ 55 ≤ a then s
    else s.broadcast 0 s.ownVmid s.ownJob a)

/-- TLBI.JOB (R54, R55). -/
def execTlbiJob (r : AR) (s : State) : Out :=
  .next (s.when r.g fun s => if s.me.priv = 0 then s.raisePriv else s.broadcast 1 s.ownVmid s.ownJob 0)

/-- TLBI.VM (R54, R55). -/
def execTlbiVm (r : AR) (s : State) : Out :=
  .next (s.when r.g fun s =>
    let v := fld 7 0 (s.rd r.b)
    if s.me.priv = 0 || (s.me.priv = 1 && v != s.myProc.vmid) then s.raisePriv else s.broadcast 2 v 0 0)

/-- Releases the drained block slots that a TLBI.GPA covers (R120). -/
def State.releaseCovered (s : State) (vmid gpa : Nat) : State :=
  forEach [0, 1, 2, 3, 4, 5, 6, 7] s fun s b =>
    let x := s.block b
    if x.active && x.drained && pgCovers x.val vmid gpa then s.releaseBlock b else s

/-- TLBI.GPA (R54, R55); a drained block slot of the page is released (R120). -/
def execTlbiGpa (r : AR) (s : State) : Out :=
  .next (s.when r.g fun s =>
    if s.me.priv != 2 then s.raisePriv else s.broadcast 3 (fld 7 0 (s.rd r.b)) 0 (fld 47 0 (s.rd r.a)))

/-- TLBI.ALL (R54, R55). -/
def execTlbiAll (r : AR) (s : State) : Out :=
  .next (s.when r.g fun s => if s.me.priv != 2 then s.raisePriv else s.broadcast 4 0 0 0)

/-- Does a TLBI match a process's core tag (R56)? -/
def Tlbi.matchesTag (t : Tlbi) (vmid job : Nat) : Bool :=
  match t.kind with
  | 0 => t.vmid == vmid && t.job == job
  | 1 => t.vmid == vmid && t.job == job
  | 2 => t.vmid == vmid
  | 4 => true
  | _ => false

/-- Does a TLBI remove a leaf of a row port? -/
def Tlbi.hitsLeaf (t : Tlbi) (e : TlbEnt) : Bool :=
  t.matchesTag e.vmid e.job && (t.kind != 0 || e.page == t.addr / e.size)

/-- Does a TLBI remove an entry of a walk cache? -/
def Tlbi.hitsWalk (t : Tlbi) (e : WalkEnt) : Bool :=
  t.matchesTag e.vmid e.job && (t.kind != 0 || e.idx == walkIdx t.addr e.level)

/-- Does a TLBI remove a second-stage leaf? -/
def Tlbi.hitsStage2 (t : Tlbi) (e : S2Ent) : Bool :=
  t.kind == 4 || (t.kind == 3 && e.vmid == t.vmid && e.page == t.addr / e.size)

/-- Does a TLBI remove a stash line of a core whose tag it matches? -/
def Tlbi.hitsLine (t : Tlbi) (l : StashLine) : Bool := t.kind != 0 || l.ltag / 2 ^ 22 == t.addr / 2 ^ 30

/-- Squashes the uncommitted chunks of a process with a line in a set (R56). -/
def State.squashSets (s : State) (lpn : Nat) (l : Line) : State :=
  (allSlots.map fun n => ({ lpn := lpn, slot := n } : Who)).foldl
    (fun s w => s.squashIf w fun c => c.reads.contains l || c.writes.contains l) s

/-- Does a TLBI of the first stage hold for an access of a process at a linear address (R56)? -/
def State.tlbMeets (s : State) (t : Tlbi) (lpn la : Nat) : Bool :=
  t.matchesTag (s.proc lpn).vmid (s.proc lpn).job && (t.kind != 0 || la / 2 ^ 30 == t.addr / 2 ^ 30)

/-- May a request in flight be translated anew: one of a thread, a load, a tile fetch or an atomic (R57)? -/
def PgKind.retranslates : PgKind → Bool
  | .fill _ => true
  | .home _ => true
  | .upgrade => true
  | .atomic _ _ _ _ _ => true
  | .tile _ _ _ => true
  | _ => false

/-- Marks requests in flight whose translation has been removed (R57). -/
def State.markStale (s : State) (p : PgReq → Bool) : State :=
  { s with net := spMap s.net fun _ i => match i with
      | .pg r => .pg { r with stale := r.stale || p r }
      | i => i }

/-- Is a request in flight marked? -/
def State.isStale (s : State) (id : Nat) : Bool :=
  match s.item id with
  | some (.pg r) => r.stale
  | _ => false

/-- A combined atomic is taken apart when one that it stands for is marked; switches combine at nine stages at most (R87, R91). -/
def State.staleParts (s : State) : State :=
  forEach (List.range 9) s fun s _ => s.markStale fun r => match r.parts with
    | some (a, b, _) => s.isStale a || s.isStale b
    | none => false

/-- A row port's part: its caches, and the requests of its cores that were translated through them and are not performed yet (R56, R57). -/
def State.tlbPort (s : State) (row : Nat) (t : Tlbi) : State :=
  let s := s.modPort row fun q =>
    { q with tlb := q.tlb.filter fun e => !t.hitsLeaf e, walks := q.walks.filter fun e => !t.hitsWalk e }
  (s.markStale fun r => rowOf r.core == row && r.core != noCore && r.kind.retranslates && s.tlbMeets t r.who.lpn r.la).staleParts

/-- A stage-two unit's part: its leaves, and the requests that were translated through them (R56, R57). -/
def State.tlbBase (s : State) (b : Nat) (t : Tlbi) : State :=
  let gone := (s.base b).s2.filter t.hitsStage2
  let s := s.modBase b fun x => { x with s2 := x.s2.filter fun e => !t.hitsStage2 e }
  (s.markStale fun r => r.hpa.isSome && (r.kind.retranslates || (match r.kind with
    | .eng _ _ _ => true
    | _ => false)) && gone.any fun e => e.vmid == r.vmid && e.page == r.gpa / e.size).staleParts

/-- Has an uncommitted chunk used a translation that a TLBI removes? -/
def State.tlbChunk (s : State) (t : Tlbi) (lpn : Nat) (c : Chunk) : Bool :=
  c.touch.any fun x => match x.line with
    | .paged _ _ => s.tlbMeets t lpn x.la.toNat
    | .loc _ _ => false

/-- A core's part: stash lines go with their pins, the chunks that used them are squashed, and what was read at a home for a bundle that
will reissue is forgotten (R56). -/
def State.tlbCore (s : State) (core : Nat) (t : Tlbi) : State :=
  let c := s.core core
  let p := s.proc c.host
  if !t.matchesTag p.vmid p.job then s
  else
    let s := (c.stash.filter fun e => t.hitsLine e.2).foldl (fun s e =>
      (s.squashSets c.host (.paged e.2.vmid e.2.gtag)).stashDrop core e.1) s
    (allSlots.map fun n => ({ lpn := c.host, slot := n } : Who)).foldl (fun s w =>
      (s.squashIf w (s.tlbChunk t c.host)).modSlot w fun x =>
        { x with grants := x.grants.filter fun g => !(s.tlbMeets t c.host g.la) }) s

/-- What one member does for one TLBI (R56). -/
def State.tlbAct (s : State) (m : Nat) (t : Tlbi) : State :=
  if 20000 ≤ m then s.tlbBase (m - 20000) t
  else if 10000 ≤ m then s.tlbPort (m - 10000) t
  else s.tlbCore m t

/-- May a member acknowledge: a core does once no chunk that can no longer be squashed, and no engine element on its way, uses what was
removed (R56)? -/
def State.tlbAcks (s : State) (m : Nat) (t : Tlbi) : Bool :=
  let lpn := (s.core m).host
  let chunk (x : Slot) : Bool := x.chunk.any (s.tlbChunk t lpn) || x.commit.any fun c => s.tlbChunk t lpn c.chunk
  let elem (i : Item) : Bool := match i with
    | .pg r => r.core == m && r.who.slot != hostSlot && s.tlbMeets t r.who.lpn r.la && (match r.kind with
      | .eng _ _ _ => true
      | _ => false)
    | _ => false
  10000 ≤ m || !((s.proc lpn).slots.any fun e => chunk e.2) && !(s.net.any fun e => elem e.2)

/-- TLBI_INVALIDATE: a member acts on every TLBI it has not acknowledged, and acknowledges those that it may; for the others it acts again
a cycle later (R56). -/
def execTlbiInvalidate (core : Nat) (s : State) : Out :=
  let mine := s.tlbis.filter fun t => t.left.contains core
  let s := mine.foldl (fun s t => s.tlbAct core t) s
  let done := mine.filter (s.tlbAcks core)
  let ack (t : Tlbi) : Tlbi := if done.contains t then { t with left := t.left.filter fun m => m != core } else t
  let s := { s with tlbis := s.tlbis.map ack }
  let s := s.postAll ((done.filter fun t => t.left.all fun m => m == core).map fun t => .tlbiDone t.who.lpn t.who.slot)
  .next (if done.length = mine.length then s else s.after .network 1 (.tlbiInvalidate core))

/-- TLBI_DONE: every member has acknowledged; a TLBI.GPA releases the drained block slot of its page, and the thread
resumes (R57, R120). -/
def execTlbiDone (lpn slot : Nat) (s : State) : Out :=
  let w : Who := { lpn := lpn, slot := slot }
  .next (match s.tlbis.find? fun t => t.who == w && t.left.isEmpty with
    | some t =>
      let s := { s with tlbis := dropFirst (fun x => x == t) s.tlbis }
      let s := if t.kind = 3 then s.releaseCovered t.vmid t.addr else s
      match (s.slot w).wait with
      | some x => if x.kind = .tlbi then s.complete w fun t => t else s
      | none => s
    | none => s)

/-! ## The answer of a parked fault (R52, R326) -/

/-- XLATE reason of an invalid answer (R53). -/
def Parked.reason (k : Parked) : Nat := if k.kind ≤ 2 then 0 else 1

/-- The answer reaches a parked thread: it reissues or takes XLATE; that of a saved thread is kept in its Cocoon (R326,
R396). -/
def State.answerThread (s : State) (w : Who) (k : Parked) (inv : Bool) : State :=
  let t := s.slot w
  if t.park != some k.seq then s
  else
    let d := mkDue cXLATE 0 k.reason k.la t.arch.pc
    if t.reserved && t.st = .absent then
      let o := cocoonAt w.slot
      let s := s.hwDwords w.lpn o [setFld 60 59 (if inv then 3 else 2) (s.hwRead w.lpn o)]
      if inv then s.modSlot w fun t => { t with due := t.due ++ [d] } else s
    else
      let s := s.modSlot w fun t => { t with park := none, st := if t.st = SlotSt.parked then .ready else t.st }
      if !inv then s
      else if s.inSlice w then s.modOp w fun q => { q with inv := some (k.reason, k.la) }
      else s.raiseFor w d

/-- The answer reaches an engine operation, a stream, an image load or an atomic in flight: it continues, or it stops with
status XLATE (R308, R314, R326, R373). -/
def State.answerEngine (s : State) (i : Nat) (k : Parked) (inv : Bool) : State :=
  match s.copyOf i with
  | some c =>
    if c.park != some k.seq then s
    else if inv then s.stopCopy i 3 (if c.got.isSome then 1 else 0) k.reason
    else (s.modCopy i fun c => { c with park := none }).post (if c.got.isSome then .engineElementWrite i else .engineElementRead i)
  | none =>
    match s.streamOf i with
    | some (core, n, x) =>
      if x.op.park != some k.seq then s
      else if inv then s.faultPoint core n (if x.out then x.done else x.done + x.buf.length) 3 k.reason k.la
      else
        (s.modStream core n fun x => { x with op := { x.op with park := none } }).post
          (if x.out then .engineElementWrite i else .streamReadAhead core (BitVec.ofNat 2 n))
    | none =>
      match s.cores.find? fun c => c.2.load == some i with
      | some (c, _) =>
        if inv then s.loadFail c
        else
          ((s.modCore c fun x => { x with load := none }).post (.launchStart c)).rouse c
      | none =>
      match s.item i with
      | some (.pg r) =>
        if !inv then s.again i
        else match r.kind with
          | .own => s.ownInvalid k.who k.reason r
          | _ => s.atomicFail i cXLATE k.reason
      | _ => s

/-- PARKED_ANSWER: the answer resume or invalid reaches what the record parked, once (R52, R326). -/
def execParkedAnswer (seq : BitVec 32) (inv : Bool) (s : State) : Out :=
  .next (match s.imago.parked.find? fun k => k.seq == seq with
    | some k =>
      let s := { s with imago := { s.imago with parked := s.imago.parked.filter fun x => x.seq != seq } }
      match k.engine with
      | none => s.answerThread k.who k inv
      | some i => s.answerEngine i k inv
    | none => s)

end Sys2Proof.Machine
end

