-- ==== Sys2Proof/Machine/Cancel.lean ====
section
/-!
DEFINITION. Cancel (18 R398, 07 R174): what a cancel does to the launches it covers, the removal of their threads at their
next positions, and CANCEL.L, CANCEL.G and CANCEL.J.
-/

namespace Sys2Proof.Machine

/-! ## Removing a thread (R174) -/

/-- Has the first Apply of a commit been performed (R174)? -/
def State.applied (s : State) (c : Committing) : Bool :=
  match c.st with
  | .applying left => left.length < (s.domsOf (c.chunk.reads ++ c.chunk.writes)).length
  | _ => false

/-- Is a request that a thread has released still on its way (R157)? -/
def State.requestOut (s : State) (w : Who) : Bool :=
  s.tlbis.any (fun t => t.who == w) ||
  s.net.any fun e => match e.2 with
    | .win x _ _ _ => x == w
    | .reply x _ => x == w
    | .device x _ _ _ _ => x == w
    | .carryAck c _ => c.origin == w
    | _ => false

/-- Is a landing of a thread out elsewhere than in a wait list? -/
def State.landingOut (s : State) (w : Who) : Bool :=
  (s.slot w).arch.landing.any fun l => l.open && !(s.procs.any fun p => p.2.waitsFor l.id)

/-- Withdraws the entries of a thread in wait lists, barrier records' steps and mailboxes; what waits behind them may go on
(R174, R242). -/
def State.withdrawWaits (s : State) (w : Who) : State :=
  let hit (p : Nat × Proc) : List Ev :=
    ((p.2.waits.filter fun x => x.who == w && x.op.isSome).map fun x => .fullEmptyService p.1 x.key) ++
    ((p.2.mbox.filter fun b => b.2.queue.any fun x => x.who == w).map fun b => .mailboxService p.1 (BitVec.ofNat 2 b.1))
  let evs := s.procs.flatMap hit
  let keep (f : FieldStep) : FieldStep := { f with held := f.held.filter fun x => x.who != w }
  let box (_ : Nat) (b : Mbox) : Mbox := { b with queue := b.queue.filter fun x => x.who != w }
  { s with procs := spMap s.procs fun _ p =>
      { p with waits := p.waits.filter fun x => x.who != w, mbox := spMap p.mbox box, fsteps := p.fsteps.map keep } }.postAll evs

/-- Withdraws the fault records of a thread: a later answer is ignored (R174, R326). -/
def State.withdrawFaults (s : State) (w : Who) : State :=
  let mine := (s.imago.parked.filter fun k => k.who == w && k.engine.isNone).map fun k => k.seq
  let im := s.imago
  { s with imago := { im with parked := im.parked.filter fun k => !mine.contains k.seq,
                              faults := im.faults.filter fun f => !mine.contains f.1 } }

/-- Requests that wait at the thread's core, and carry packets that no core has accepted, are dropped. -/
def State.dropOwn (s : State) (w : Who) : State :=
  { s with net := s.net.filter fun e => match e.2 with
      | .parked x _ _ _ _ => x != w
      | .carry c => c.origin != w
      | .carryRef c _ => c.origin != w
      | _ => true }

/-- A refused message that the slot holds is discarded with a skip notice, unless its acceptance is on its way (R261,
R277). -/
def State.dropHeld (s : State) (w : Who) : State :=
  forEach (s.slot w).heldMsgs s fun s h =>
    let acked := s.net.any fun e => match e.2 with
      | .ack a b c d => a == h.msg.src && b == h.msg.dst && c == h.msg.ch && d == h.msg.seq
      | _ => false
    if acked then s
    else { s with net := s.net.filter fun e => e.2 != Item.msg h.msg && e.2 != Item.msgRefused h.msg 0 }.skipMsg h.msg

/-- A cancelled thread's turn has come: it is removed once what it has released has reached its target and a commit that
has begun to apply has ended (R157, R174). -/
def State.removeThread (s : State) (w : Who) : State :=
  let t := s.slot w
  let busy := match t.commit with
    | some c => s.applied c
    | none => false
  if busy || s.requestOut w || s.landingOut w then s
  else
    let s := (((s.withdrawWaits w).withdrawFaults w).dropOwn w).dropHeld w
    let s := (s.sliceCancel w).vacate w true
    s.modSlot w fun t => { t with reserved := false, sleepLeft := none, pushq := [], atomics := [], sends := [], heldMsgs := [] }

/-! ## The effects of a cancel (R174) -/

/-- Is a process of a launch's job? -/
def Proc.ofLaunch (p : Proc) (l : Launch) : Bool := p.job == l.job.toNat && p.vmid == l.vmid.toNat

/-- The task records of a launch in a process are discarded: ready records, continuations, and arrivals that wait; its
threads are marked for removal (R174, R398). The second component counts what the launch's counter loses. -/
def Proc.cancelled (p : Proc) (l : Launch) : Proc × Nat :=
  let lid := l.lid
  let ready := p.ready.filter fun r => !(match r.resume with
    | some n => (p.slot n).lid == lid
    | none => taskLid r.rcd == lid)
  let tasks := (p.ready.filter fun r => r.resume.isNone && taskLid r.rcd == lid).length
  let conts := p.contbuf.filter fun r => taskLid r != lid
  let arrs := p.arrq.filter fun c => c.ctx.lid != lid
  let mark (_ : Nat) (t : Slot) : Slot :=
    if (t.st != SlotSt.absent || t.reserved) && t.lid == lid then { t with doomed := true } else t
  ({ p with ready := ready, contbuf := conts, arrq := arrs, slots := spMap p.slots mark },
   tasks + (p.contbuf.length - conts.length) + (p.arrq.length - arrs.length))

/-- What is in flight for a cancelled launch: its records are dropped and a carry packet's thread will be removed where it
arrives. -/
def Item.cancelled (job : BitVec 24) (l : Launch) : Item → Option Item
  | .wake c w => if w.launch = l.id then none else some (.wake c w)
  | .win who tag dst op =>
    match op with
    | .post r b => if tag = job && taskLid r == l.lid then none else some (.win who tag dst (.post r b))
    | _ => some (.win who tag dst op)
  | .carry c => if c.tag = job && c.ctx.lid == l.lid then some (.carry { c with ctx := { c.ctx with doomed := true } }) else some (.carry c)
  | i => some i

/-- Engine operations of a launch stop at their next element with status cancelled (R174, R308, R314). -/
def State.cancelEngines (s : State) (l : Launch) : State :=
  let cs := s.cores.flatMap fun c => (c.2.copies.filter fun x =>
    x.job == l.job.toNat && x.vmid == l.vmid.toNat && x.lid == l.lid && x.stop.isNone).map fun x => x.id
  let s := forEach cs s fun s i => s.askStop i 7
  let xs := s.cores.flatMap fun c => (c.2.streams.filter fun e =>
    e.2.bound && e.2.op.job == l.job.toNat && e.2.op.vmid == l.vmid.toNat && e.2.op.lid == l.lid).map fun e => (c.1, e.1)
  forEach xs s fun s e => s.endSoon e.1 e.2 7

/-- A launch that has started is cancelled (R174). -/
def State.cancelLaunch (s : State) (l : Launch) : State :=
  let tag := BitVec.ofNat 24 (l.job.toNat + l.vmid.toNat * 65536)
  let mine := s.procs.filter fun p => p.2.ofLaunch l
  let lost := (mine.map fun p => (p.2.cancelled l).2).sum
  let wakes := (s.net.filter fun e => match e.2 with
    | .wake _ w => w.launch == l.id
    | _ => false).length
  let held (c : Core) : Bool := match c.latch with
    | some w => w.launch == l.id
    | none => false
  let latches := (s.cores.filter fun c => held c.2).length
  let procs := spMap s.procs fun _ p => if p.ofLaunch l then (p.cancelled l).1 else p
  let cores := spMap s.cores fun _ c => if held c then { c with latch := none, load := none } else c
  let net := s.net.filterMap fun e => (e.2.cancelled tag l).map fun i => (e.1, i)
  let upd (x : Launch) : Launch := { x with st := 1, starting := x.starting - wakes - latches }
  let s := { s with procs := procs, cores := cores, net := net, launches := mapIf (fun x => x.id == l.id) upd s.launches }
  (s.cancelEngines l).launchAdd l.lid l.job.toNat l.vmid.toNat (-(lost : Int)) 0

/-- Ring positions of a queue slot between HEAD and TAIL. -/
def DQ.pending (q : DQ) : List Nat :=
  (List.range ((q.tail + q.size - q.head) % q.size)).map fun i => (q.head + i) % q.size

/-- Discards the launches of a queue that have not started and meet a test: they end with status cancelled (R174). -/
def State.cancelRing (s : State) (k : Nat) (p : List W64 → Bool) : State × Bool :=
  let q := s.dq k
  let hits := (q.pending.filter fun i => !q.drop.contains i).filterMap fun i =>
    match s.dqRecord q i with
    | some r => if p r then some (i, r) else none
    | none => none
  let s := forEach hits s fun s e => (s.modDq k fun q => { q with drop := q.drop ++ [e.1] }).endUnstarted e.2 q.root q.vmid 1
  (s, !hits.isEmpty)

/-- A cancel: the started launches and the records that its tests accept; did any match (R174, R398)? -/
def State.cancel (s : State) (started : Launch → Bool) (queue : DQ → Bool) (rcd : List W64 → Bool) : State × Bool :=
  let ls := s.launches.filter started
  let s := forEach ls s fun s l => s.cancelLaunch l
  let ks := (s.dqs.filter fun e => e.2.launches && queue e.2).map fun e => e.1
  let go (a : State × Bool) (k : Nat) : State × Bool :=
    let (s, b) := a.1.cancelRing k rcd
    (s, a.2 || b)
  ks.foldl go (s, !ls.isEmpty)

/-! ## CANCEL (R398) -/

/-- CANCEL waits as RETJ does, cancels, and writes whether some launch matched (R398). -/
def State.cancelOp (s : State) (r : AR) (started : Launch → Bool) (queue : DQ → Bool) (rcd : List W64 → Bool) : State :=
  if !s.me.atomics.isEmpty then s.waitAgain .fence 0 0 fun _ => none
  else
    let (s, b) := s.cancel started queue rcd
    s.wr r.d (if b then 0 else 1)

/-- Is a launch of the current thread's job? -/
def State.ownLaunch (s : State) (l : Launch) : Bool := s.myProc.ofLaunch l

/-- Is a queue slot of the current thread's job? -/
def State.ownQueue (s : State) (q : DQ) : Bool := q.job == s.myProc.job && q.vmid == s.myProc.vmid

/-- CANCEL.L: the launch with LID g[b] of the own job (R398). -/
def execCancelL (r : AR) (s : State) : Out :=
  .next (s.when r.g fun s =>
    let lid := fld 15 0 (s.rdB r.b r.x)
    s.cancelOp r (fun l => s.ownLaunch l && l.lid == lid) (fun _ => false) fun _ => false)

/-- CANCEL.G: every launch of the own job whose GRAPH equals g[b] (R398). -/
def execCancelG (r : AR) (s : State) : Out :=
  .next (s.when r.g fun s =>
    let v := s.rdB r.b r.x
    s.cancelOp r (fun l => s.ownLaunch l && recDw l.rcd 6 == v) s.ownQueue fun d => recDw d 6 == v)

/-- CANCEL.J: the own job; at M, the job g[b] (R398). -/
def execCancelJ (r : AR) (s : State) : Out :=
  .next (s.when r.g fun s =>
    let j := fld 15 0 (s.rdB r.b r.x)
    let priv := s.me.priv
    if priv = 0 || (priv = 1 && j != s.myProc.job) then s.raisePriv
    else if priv = 2 then s.cancelOp r (fun l => l.job.toNat == j) (fun q => q.job == j) fun _ => true
    else s.cancelOp r s.ownLaunch s.ownQueue fun _ => true)

end Sys2Proof.Machine
end

