-- ==== Sys2Proof/Machine/Host.lean ====
section
/-!
DEFINITION. Results that land (07 R165), devices and the host (25 R457 to R463, R377), Bronex links (25 R464 to R467), power
gating and wakes (25 R469, R470), rows and tenant power (25 R472 to R475), Chrysalis (25 R476 to R478, 14 R335), reset (25
R479), Lomter's stop and restart of slots (07 R159), and the timing replay (14 R333).
-/

namespace Sys2Proof.Machine

/-! ## Devices (R42, R377, R457, R463) -/

/-- A device access of a thread, or the host's doorbell write that waits for earlier ones of its function, reaches its page: a doorbell
page, the unassigned range, or the host, whose answer is awaited (R377, R457, R462). -/
def State.deviceArrives (s : State) (id : Nat) (who : Who) (hpa size : Nat) (write : Option W64) (sx : Bool) : State :=
  let land (v : Nat) : State := (s.dropItem id).landResult who id (.value (loadExt sx size v))
  let bell := Config.doorbellBase ≤ hpa && hpa < Config.doorbellBase + 0x10000000
  let u := (hpa - Config.doorbellBase) / 4096
  let off := hpa % 4096
  if Config.hostWindowBase ≤ hpa then { s with outbox := s.outbox ++ [.device who hpa size write sx] }
  else match write with
    | none => land (if bell && off = 4 && size = 4 then (s.headWord u).toNat else 0)
    | some v =>
      if who.slot = hostSlot && s.hostBefore (u / 1024) id then s.after .network 1 (.landingResult id)
      else
        let s := s.dropItem id
        if bell && off = 0 && size = 4 then s.ringBell u v.toNat else s

/-- LANDING_RESULT: a long-latency result returns and is held in its landing entry until the close; a device access reaches
its device (R42, R165). -/
def execLandingResult (id : Nat) (s : State) : Out :=
  .next (match s.item id with
    | some (.device who hpa size write sx) => s.deviceArrives id who hpa size write sx
    | some (.pgReply r v) =>
      match r.kind with
      | .atomic _ _ ret _ _ => s.atomicBack id r ret v
      | .tile _ _ _ => s.tileReply id r
      | _ => s
    | _ => s)

/-- HOST_WINDOW_COMPLETION: the data, or all ones and a notice to Lomter; a store that fails is discarded (R463). -/
def execHostWindowCompletion (id : Nat) (ok : Bool) (v : W64) (s : State) : Out :=
  .next (match s.item id with
    | some (.device who hpa size write sx) =>
      if hpa < Config.hostWindowBase then s else
      let s := s.dropItem id
      let s := if ok then s else s.record (.notice 463 hpa)
      match write with
      | some _ => s
      | none => s.landResult who id (.value (loadExt sx size (if ok then v.toNat else 2 ^ 64 - 1)))
    | _ => s)

/-! ## BAR2 (R459, R461) -/

/-- BAR2_ACCESS: one aligned element of a guest-physical address of the function's tenant, which its home slice performs as an engine's
element (R459, R461, R462). -/
def execBar2Access (vf : Nat) (addr : BitVec 40) (wr : Bool) (v : W64) (s : State) : Out :=
  let m := spGet 0 s.regs.vfmap (vf % 64)
  .next (if !(tb 8 m) then s.toHost .refused
    else
      let r := pgReqFor (.eng wr 8 v) noCore { lpn := Config.imagoLpn, slot := hostSlot } (fld 7 0 m) (addr.toNat / 8 * 8)
      let i : Item := .pg { r with la := vf % 64 }
      (s.launchItem i).post (i.event s.nextId))

/-! ## Bronex (R464 to R467) -/

/-- Items that wait for a route to another module (R467). -/
def State.routeless (s : State) : List (Nat × Item) :=
  s.net.filter fun e => s.timers.any fun t => t.ev == .routeWaitTimeout e.1

/-- BRONEX_LINK_UP: with the right domain the link gets its session key and its UP bit, and what waited for a route leaves
(R464, R465). -/
def execBronexLinkUp (link : Nat) (domain : BitVec 8) (s : State) : Out :=
  .next (if 36 ≤ link || domain.toNat != fld 15 8 s.regs.brxcfg then s
    else
      let regs := { s.regs with brxup := setBit link true s.regs.brxup }
      let s := { s with regs := regs, links := spPut s.links link true }
      let go := s.routeless
      let ids := go.map fun e => e.1
      { s with net := s.net.filter fun e => !ids.contains e.1, outbox := s.outbox ++ go.map fun e => e.2,
               timers := s.timers.filter fun t => !(ids.any fun i => t.ev == .routeWaitTimeout i) })

/-- BRONEX_LINK_FAIL: the link leaves the routes (R467). -/
def execBronexLinkFail (link : Nat) (s : State) : Out :=
  let regs := { s.regs with brxup := setBit link false s.regs.brxup }
  .next (if 36 ≤ link then s else { s with regs := regs, links := spDel s.links link })

/-- BRONEX_AUTH_FAIL: the flit is dropped and retried, and source 5 is raised (R467). -/
def execBronexAuthFail (_link : Nat) (s : State) : Out := .next (s.post (.chrysalisAlarm 5 []))

/-- ROUTE_WAIT_TIMEOUT: a request without a route is refused; a reply or an acknowledgement goes on waiting (R32, R467). -/
def execRouteWaitTimeout (id : Nat) (s : State) : Out :=
  let back (i : Item) : State := (s.putItem id i).post (i.event id)
  .next (match s.item id with
    | some (.win _ _ _ (.withdraw _)) => s.dropItem id
    | some (.win who _ _ _) => back (.reply who .refused)
    | some (.msg m) => back (.msgRefused m 2)
    | some (.carry c) => back (.carryRef c 5)
    | some _ => s.after .network (2 ^ 24) (.routeWaitTimeout id)
    | none => s)

/-! ## Gating and wake (R469, R470) -/

/-- Is a core idle in the sense of gating (R469)? -/
def State.gateable (s : State) (core : Nat) : Bool :=
  let c := s.core core
  let p := s.proc c.host
  tb 8 c.coreclk && (p.slots.all fun t => t.2.st == .absent && !t.2.reserved) && p.ready.isEmpty && p.arrq.isEmpty &&
    p.inCount == 0 && p.inWait.isEmpty && p.waits.isEmpty && p.contbuf.isEmpty && c.copies.isEmpty && (c.streams.all fun e => !e.2.bound) &&
    !p.mx.live && p.mx.queue.isEmpty && c.fwd.isEmpty && c.swap.isNone

/-- POWER_GATE: a core that has been idle for 2^16 cycles closes its power switch, which empties its stash (R77, R469). -/
def execPowerGate (core : Nat) (s : State) : Out :=
  let c := s.core core
  .next (if c.gated || c.idle < 2 ^ 16 || !s.gateable core then s
    else (s.emptyStash core).modCore core fun c => { c with gated := true, idle := 0 })

/-- CORE_WAKE: gating aborts and the idle count restarts, or the core powers up with its cycle count at 0 (R160, R470). -/
def execCoreWake (core : Nat) (s : State) : Out :=
  .next (s.modCore core fun c =>
    if c.gated then { c with gated := false, cycle := 0, idle := 0, wakeLatch := false } else { c with idle := 0, wakeLatch := false })

/-! ## Rows and tenant power (R472 to R475) -/

/-- The tenants that have a core in a row. -/
def State.rowTenants (s : State) (row : Nat) : List Nat :=
  ((s.procs.filter fun p => rowOf p.2.core == row && p.2.vmid != 0).map fun p => p.2.vmid).eraseDups

/-- ROW_SENSOR_READING: a row's sensors change; one that reaches RUN runs away (R472, R473). -/
def execRowSensorReading (row : Nat) (temp pwr : BitVec 12) (s : State) : Out :=
  let was := (s.row row).temp.toNat
  let lim := fld 35 24 s.regs.thermcfg
  let s := s.modRow row fun r => { r with temp := temp, pwr := pwr }
  .next (if was < lim && lim ≤ temp.toNat then s.post (.thermalRunaway row) else s)

/-- THERMAL_RUNAWAY: the row is at step 7, and source 3 is raised for the tenants with cores in it (R473, R478). -/
def execThermalRunaway (row : Nat) (s : State) : Out :=
  .next (if fld 35 24 s.regs.thermcfg ≤ (s.row row).temp.toNat then s.post (.chrysalisAlarm 3 (s.rowTenants row)) else s)

/-- A tenant's power now: over the rows, PWR times its cores in the row, over 16 (R475). -/
def State.tenantUse (s : State) (v : Nat) : Nat :=
  (s.rows.map fun r => r.2.pwr.toNat * (s.procs.filter fun p => p.2.vmid == v && rowOf p.2.core == r.1).length).sum / 16

/-- PWRT of a tenant. -/
def State.pwrtOf (s : State) (v : Nat) : W64 := spGet pwrtReset s.regs.pwrt v

/-- What a tenant wants above its floor (R475). -/
def powerWant (p : W64) (use : Nat) (held : Bool) : Nat := min (fld 31 16 p) (if held then use + 64 else use) - fld 15 0 p

/-- The grants of one tier from a surplus: all wants, or shares rounded down; and what is left (R475). -/
def grantTier (surplus : Nat) (wants : List (Nat × Nat)) : List (Nat × Nat) × Nat :=
  let sum := (wants.map fun w => w.2).sum
  if sum ≤ surplus then (wants, surplus - sum) else (wants.map fun w => (w.1, surplus * w.2 / sum), 0)

/-- The grants of the tiers in strict order. -/
def grantTiers (s : Nat) : List (List (Nat × Nat)) → List (Nat × Nat)
  | [] => []
  | w :: l => let (g, r) := grantTier s w; g ++ grantTiers r l

/-- The grants of the interval that ends (R475). -/
def State.powerGrants (s : State) : List (Nat × Nat) :=
  let surplus := fld 15 0 s.regs.modpwr - (tenants.map fun v => fld 15 0 (s.pwrtOf v)).sum
  let tier (t : Nat) : List (Nat × Nat) := (tenants.filter fun v => fld 33 32 (s.pwrtOf v) == t).map fun v =>
    (v, powerWant (s.pwrtOf v) (s.tenantUse v) (s.withheld.contains v))
  grantTiers surplus [tier 0, tier 1, tier 2, tier 3]

/-- POWER_INTERVAL: USE, the allotments and OVER (R475). -/
def execPowerInterval (s : State) : Out :=
  let gs := s.powerGrants
  let put (m : Sp W64) (v : Nat) : Sp W64 :=
    let p := s.pwrtOf v
    let use := s.tenantUse v
    let a := fld 15 0 p + ((gs.find? fun g => g.1 == v).map fun g => g.2).getD 0
    let past := a ≤ use && fld 15 0 p ≤ use
    spPut m v (setBit 56 past (setFld 55 40 (min use 65535) p))
  .next { s with regs := { s.regs with pwrt := tenants.foldl put s.regs.pwrt }, withheld := [] }

/-! ## Chrysalis (R335, R476 to R478) -/

/-- VOLTAGE_GLITCH: source 0. -/
def execVoltageGlitch (s : State) : Out := .next (s.post (.chrysalisAlarm 0 []))
/-- CLOCK_GLITCH: source 1. -/
def execClockGlitch (s : State) : Out := .next (s.post (.chrysalisAlarm 1 []))
/-- TAMPER_LOOP_OPEN: source 2. -/
def execTamperLoopOpen (s : State) : Out := .next (s.post (.chrysalisAlarm 2 []))

/-- A level-2 alarm: the cores of the tenants freeze at a rotation boundary with their chunks committed (R335). -/
def State.alarmTenants (s : State) (vs : List Nat) : State :=
  { s with procs := spMap s.procs fun _ p => if p.vmid != 0 && vs.contains p.vmid then { p with alarm := true } else p }

/-- A level-3 alarm: the keys are zeroised, uncommitted chunks and latched requests are discarded, and the module stops
(R335, R477). -/
def State.zeroise (s : State) : State :=
  let quiet (_ : Nat) (t : Slot) : Slot := { t with chunk := none, commit := none }
  let chrys := { s.chrys with attKey := false, report := none, zeroised := s.chrys.zeroised + 1 }
  let regs := { s.regs with brxup := 0 }
  { s with procs := spMap s.procs fun _ p => { p with slots := spMap p.slots quiet },
           cores := spMap s.cores fun _ c => { c with egress := [] },
           chrys := chrys, links := [], regs := regs, stopped := true, agenda := [], timers := [] }

/-- CHRYSALIS_ALARM: the log counts it, and its configured level acts (R335, R478). -/
def execChrysalisAlarm (src : Nat) (vs : List Nat) (s : State) : Out :=
  .next (if 6 ≤ src then s
    else
      let log := setFld 31 8 (min (2 ^ 24 - 1) (fld 31 8 s.regs.challog + 1)) (setFld 2 0 src s.regs.challog)
      let regs := { s.regs with challog := log }
      let s := { s with regs := regs }
      match fld (2 * src + 1) (2 * src) s.regs.chalcfg with
      | 1 => s.record (.notice 335 src)
      | 2 => s.alarmTenants vs
      | 3 => s.zeroise
      | _ => s)

/-- CHALCFG_WRITE: LOCK stays set; while it is, a write that lowers a level raises source 4 and writes nothing (R478). -/
def execChalcfgWrite (v : W64) (s : State) : Out :=
  let lower := (List.range 6).any fun k => fld (2 * k + 1) (2 * k) v < fld (2 * k + 1) (2 * k) s.regs.chalcfg
  .next (if (List.range 6).any fun k => fld (2 * k + 1) (2 * k) v == 0 then s
    else if tb 16 s.regs.chalcfg && lower then s.post (.chrysalisAlarm 4 [])
    else
      let regs := { s.regs with chalcfg := (v &&& 0x10FFF) ||| (s.regs.chalcfg &&& 0x10000) }
      { s with regs := regs })

/-- CHALLOG_CLEAR (R478). -/
def execChallogClear (s : State) : Out :=
  let regs := { s.regs with challog := 0 }
  .next { s with regs := regs }

/-- ATTESTATION_REPORT: signed with the attestation key, if Chrysalis holds one; the signature's value is open (R477; log
15). -/
def execAttestationReport (nonce : BitVec 256) (s : State) : Out :=
  .next (if !s.chrys.attKey then s
    else
      let r : Report := { hash := s.chrys.hash, version := s.chrys.version, zeroised := s.chrys.zeroised, nonce := nonce,
                          signature := Config.signature s.free }
      let chrys := { s.chrys with report := some r }
      { s.tick with chrys := chrys })

/-- CHRYSALIS_BOOT: a good signature and a version not below the fused one start Lomter; else Imago is held in reset
(R476, R477). -/
def execChrysalisBoot (sigOk : Bool) (version : W64) (hash : BitVec 256) (s : State) : Out :=
  .next (if s.chrys.booted || s.chrys.failed then s
    else if sigOk && s.chrys.fused.toNat ≤ version.toNat then
      let chrys := { s.chrys with booted := true, version := version, hash := hash, attKey := true }
      { s with chrys := chrys }
    else
      let chrys := { s.chrys with failed := true }
      { s with chrys := chrys })

/-! ## Reset (R479) -/

/-- What outlives a reset: the durable LPDDR6, the poison in it, the fused values of Chrysalis and the counters of free
values (R130, R477; log 23). -/
def State.afterReset (s : State) : State :=
  let r := State.reset
  let keep (a : Nat) : Bool := Config.hbmSize ≤ a && a < Config.doorbellBase
  let chrys := { r.chrys with fused := s.chrys.fused, zeroised := s.chrys.zeroised }
  { r with mem := s.mem.filter fun c => keep c.1, poison := s.poison.filter fun k => keep (k * 128), chrys := chrys,
           nextId := s.nextId, free := s.free }

/-- RESET (R479). -/
def execReset (s : State) : Out := .next s.afterReset

/-! ## Slots stopped by Lomter (R159), thaw (R335) -/

/-- STOP_BY_LOMTER: the slot halts with its context kept (R159). -/
def execStopByLomter (lpn slot : Nat) (s : State) : Out :=
  let w : Who := { lpn := lpn, slot := slot }
  .next (if (s.slot w).st = .absent || (s.slot w).st = .halted then s
    else (s.endChunk w).modSlot w fun t => { t with st := .halted })

/-- SLOT_RESTART: a halted slot becomes ready, or is released and becomes absent (R159). -/
def execSlotRestart (lpn slot : Nat) (release : Bool) (s : State) : Out :=
  let w : Who := { lpn := lpn, slot := slot }
  .next (if (s.slot w).st != .halted then s
    else if release then s.vacate w true
    else s.modSlot w fun t => { t with st := .ready })

/-- THAW: a core that an alarm or a checkpoint froze goes on, and so does what waited at its network interface (R129,
R335). -/
def execThaw (core : Nat) (s : State) : Out :=
  let s := s.modCore core fun c => { c with frzAlarm := false, frzCkpt := c.frzCkpt && s.ckPhase != CkPhase.idle }
  let s := s.modProc (s.core core).host fun p => { p with alarm := false }
  .next (if (s.core core).frozen then s else (s.releaseHeld core).owedSweeps core)

/-! ## Timing replay (R333) -/

/-- TIMING_REPLAY: the bundle is discarded before it writes anything and is replayed at the slot's next issue; after three
replays of one bundle the clock divider rises by one (R333, R334, R468). -/
def execTimingReplay (lpn slot : Nat) (s : State) : Out :=
  let w : Who := { lpn := lpn, slot := slot }
  let core := s.hostOf lpn
  .next (if (s.slot w).st != .ready then s
    else if (s.slot w).replays < 2 then s.modSlot w fun t => { t with replays := t.replays + 1 }
    else
      (s.modSlot w fun t => { t with replays := 0 }).modCore core fun c =>
        { c with coreclk := setFld 4 0 (min 31 (fld 4 0 c.coreclk + 1)) c.coreclk,
                 faultlog := setFld 31 16 (min 65535 (fld 31 16 c.faultlog + 1)) c.faultlog })

end Sys2Proof.Machine
end

