-- ==== Sys2Proof/Machine/Int.lean ====
section
/-!
DEFINITION. The integer, immediate, compare, predicate and select instructions of word B (09 R204 to R211).
-/

namespace Sys2Proof.Machine

/-! ## Operations at width w on numbers (R204 to R206) -/

/-- The result of an integer instruction: r mod 2^w, sign-extended from bit w − 1 (R204). -/
def intRes (w : Nat) (r : Int) : W64 := sext w (imod w r)

/-- Width selected by fn (R192, R204). -/
def fnWidth (fn : BitVec 4) : Nat := if fn = 0 then 64 else 32

/-- Shift count (R204). -/
def shiftCount (w y : Nat) : Nat := y % w

/-- Quotient truncated toward zero, with the cases of R205. -/
def divS (w x y : Nat) : Int := if y % 2 ^ w = 0 then -1 else Int.tdiv (sint w x) (sint w y)

/-- Remainder of the truncated quotient, with the cases of R205. -/
def remS (w x y : Nat) : Int := if y % 2 ^ w = 0 then (x : Int) else Int.tmod (sint w x) (sint w y)

/-- Unsigned quotient, all ones for a zero divisor (R205). -/
def divU (w x y : Nat) : Int := if y = 0 then (2 ^ w - 1 : Nat) else ((x / y : Nat) : Int)

/-- Unsigned remainder (R205). -/
def remU (x y : Nat) : Int := if y = 0 then (x : Int) else ((x % y : Nat) : Int)

/-- Rotation right by k within w bits (R204). -/
def rotr (w x k : Nat) : Nat := x / 2 ^ k + x % 2 ^ k * 2 ^ (w - k)

/-- Zero bits above the highest one bit; w for 0 (R204). -/
def clz (w x : Nat) : Nat := if x = 0 then w else w - 1 - Nat.log2 x

/-- Zero bits below the lowest one bit, looking at n more bits (R204). -/
def ctz (x : Nat) : Nat → Nat
  | 0 => 0
  | n + 1 => if x % 2 = 1 then 0 else 1 + ctz (x / 2) n

/-- One bits among the low n bits (R204). -/
def popc (x : Nat) : Nat → Nat
  | 0 => 0
  | n + 1 => x % 2 + popc (x / 2) n

/-- Position and length of EXTR and INSR from operand b (R206). -/
def fieldOf (w y : Nat) : Nat × Nat := (y % 64, min (y / 256 % 128) w)

/-- EXTR (R206). -/
def extr (w x y : Nat) : Nat :=
  let (p, n) := fieldOf w y
  x / 2 ^ p % 2 ^ n

/-- INSR: x's low bits into z at position p, cut at w − 1 (R206). -/
def insr (w x y z : Nat) : Nat :=
  let (p, n) := fieldOf w y
  let m := min n (w - p)
  if w ≤ p then z else z / 2 ^ (p + m) * 2 ^ (p + m) + x % 2 ^ m * 2 ^ p + z % 2 ^ p

/-- An integer instruction in format BR: `op w x y z` on the low w bits of a, b and d (R204). -/
def State.intBR (s : State) (r : BR) (op : Nat → Nat → Nat → Nat → Int) : State :=
  s.when r.g fun s =>
    let w := fnWidth r.fn
    let low (v : W64) : Nat := v.toNat % 2 ^ w
    s.wr r.d (intRes w (op w (low (s.rd r.a)) (low (s.rd r.b)) (low (s.rd r.d))))

/-- ADD (R204). -/
def execAdd (r : BR) (s : State) : Out := .next (s.intBR r fun _ x y _ => (x : Int) + y)

/-- SUB (R204). -/
def execSub (r : BR) (s : State) : Out := .next (s.intBR r fun _ x y _ => (x : Int) - y)

/-- MUL (R204). -/
def execMul (r : BR) (s : State) : Out := .next (s.intBR r fun _ x y _ => (x : Int) * y)

/-- MULH (R204). -/
def execMulh (r : BR) (s : State) : Out := .next (s.intBR r fun w x y _ => (sint w x * sint w y) / 2 ^ w)

/-- MULHU (R204). -/
def execMulhu (r : BR) (s : State) : Out := .next (s.intBR r fun w x y _ => ((x * y / 2 ^ w : Nat) : Int))

/-- DIV (R205). -/
def execDiv (r : BR) (s : State) : Out := .next (s.intBR r fun w x y _ => divS w x y)

/-- DIVU (R205). -/
def execDivu (r : BR) (s : State) : Out := .next (s.intBR r fun w x y _ => divU w x y)

/-- REM (R205). -/
def execRem (r : BR) (s : State) : Out := .next (s.intBR r fun w x y _ => remS w x y)

/-- REMU (R205). -/
def execRemu (r : BR) (s : State) : Out := .next (s.intBR r fun _ x y _ => remU x y)

/-- AND (R204). -/
def execAnd (r : BR) (s : State) : Out := .next (s.intBR r fun _ x y _ => ((x &&& y : Nat) : Int))

/-- OR (R204). -/
def execOr (r : BR) (s : State) : Out := .next (s.intBR r fun _ x y _ => ((x ||| y : Nat) : Int))

/-- XOR (R204). -/
def execXor (r : BR) (s : State) : Out := .next (s.intBR r fun _ x y _ => ((x ^^^ y : Nat) : Int))

/-- ANDN (R204). -/
def execAndn (r : BR) (s : State) : Out := .next (s.intBR r fun w x y _ => ((x &&& (2 ^ w - 1 - y) : Nat) : Int))

/-- SHL (R204). -/
def execShl (r : BR) (s : State) : Out := .next (s.intBR r fun w x y _ => ((x * 2 ^ shiftCount w y : Nat) : Int))

/-- SHR (R204). -/
def execShr (r : BR) (s : State) : Out := .next (s.intBR r fun w x y _ => ((x / 2 ^ shiftCount w y : Nat) : Int))

/-- SAR (R204). -/
def execSar (r : BR) (s : State) : Out := .next (s.intBR r fun w x y _ => sint w x / 2 ^ shiftCount w y)

/-- ROR (R204). -/
def execRor (r : BR) (s : State) : Out := .next (s.intBR r fun w x y _ => (rotr w x (shiftCount w y) : Nat))

/-- MIN (R204). -/
def execMin (r : BR) (s : State) : Out := .next (s.intBR r fun w x y _ => min (sint w x) (sint w y))

/-- MAX (R204). -/
def execMax (r : BR) (s : State) : Out := .next (s.intBR r fun w x y _ => max (sint w x) (sint w y))

/-- MINU (R204). -/
def execMinu (r : BR) (s : State) : Out := .next (s.intBR r fun _ x y _ => ((min x y : Nat) : Int))

/-- MAXU (R204). -/
def execMaxu (r : BR) (s : State) : Out := .next (s.intBR r fun _ x y _ => ((max x y : Nat) : Int))

/-- CLZ (R204). -/
def execClz (r : BR) (s : State) : Out := .next (s.intBR r fun w x _ _ => (clz w x : Nat))

/-- CTZ (R204). -/
def execCtz (r : BR) (s : State) : Out := .next (s.intBR r fun w x _ _ => (ctz x w : Nat))

/-- POPC (R204). -/
def execPopc (r : BR) (s : State) : Out := .next (s.intBR r fun w x _ _ => (popc x w : Nat))

/-- EXTR (R206). -/
def execExtr (r : BR) (s : State) : Out := .next (s.intBR r fun w x y _ => (extr w x y : Nat))

/-- INSR (R206). -/
def execInsr (r : BR) (s : State) : Out := .next (s.intBR r fun w x y z => (insr w x y z : Nat))

/-! ## Immediates (R207, R208) -/

/-- An instruction with a 10-bit immediate, at width 64 (R207). -/
def State.intBI (s : State) (r : BI) (op : W64 → BitVec 10 → W64) : State :=
  s.when r.g fun s => s.wr r.d (op (s.rd r.a) r.imm)

/-- Count of an immediate shift (R207). -/
def immCount (i : BitVec 10) : Nat := i.toNat % 64

/-- ADDI (R207). -/
def execAddi (r : BI) (s : State) : Out := .next (s.intBI r fun x i => x + i.signExtend 64)

/-- ANDI (R207). -/
def execAndi (r : BI) (s : State) : Out := .next (s.intBI r fun x i => x &&& i.signExtend 64)

/-- ORI (R207). -/
def execOri (r : BI) (s : State) : Out := .next (s.intBI r fun x i => x ||| i.signExtend 64)

/-- XORI (R207). -/
def execXori (r : BI) (s : State) : Out := .next (s.intBI r fun x i => x ^^^ i.signExtend 64)

/-- SHLI (R207). -/
def execShli (r : BI) (s : State) : Out := .next (s.intBI r fun x i => intRes 64 (x.toNat * 2 ^ immCount i : Nat))

/-- SHRI (R207). -/
def execShri (r : BI) (s : State) : Out := .next (s.intBI r fun x i => intRes 64 (x.toNat / 2 ^ immCount i : Nat))

/-- SARI (R207). -/
def execSari (r : BI) (s : State) : Out := .next (s.intBI r fun x i => intRes 64 (sint 64 x.toNat / 2 ^ immCount i))

/-- RORI (R207). -/
def execRori (r : BI) (s : State) : Out := .next (s.intBI r fun x i => intRes 64 (rotr 64 x.toNat (immCount i) : Nat))

/-- MOVI (R208). -/
def execMovi (r : BK) (s : State) : Out := .next (s.when r.g fun s => s.wr r.d (r.imm.signExtend 64))

/-- MOVH: d shifted up by 16 with the immediate below (R208). -/
def execMovh (r : BK) (s : State) : Out :=
  .next (s.when r.g fun s => s.wr r.d (w64 ((s.rd r.d).toNat % 2 ^ 48 * 2 ^ 16 + r.imm.toNat)))

/-! ## Compares (R193, R209) -/

/-- The test of a condition code (R193). -/
def cmpTest (cond : BitVec 4) (a b : W64) : Bool :=
  match cond.toNat with
  | 0 => a == b
  | 1 => a != b
  | 2 => a.toInt < b.toInt
  | 3 => a.toInt ≥ b.toInt
  | 4 => a.toNat < b.toNat
  | 5 => a.toNat ≥ b.toNat
  | 6 => a.toInt ≤ b.toInt
  | 7 => a.toInt > b.toInt
  | 8 => a.toNat ≤ b.toNat
  | 9 => a.toNat > b.toNat
  | 10 => a &&& b != 0
  | _ => a &&& b == 0

/-- CMP (R209). -/
def execCmp (r : BC) (s : State) : Out :=
  .next (s.when r.g fun s => s.wrPred r.pd (cmpTest r.cond (s.rd r.a) (s.rd r.b)))

/-- CMPI: field b is the signed imm5 (R193, R209). -/
def execCmpi (r : BC) (s : State) : Out :=
  .next (s.when r.g fun s => s.wrPred r.pd (cmpTest r.cond (s.rd r.a) (r.b.signExtend 64)))

/-! ## Predicates and select (R210, R211) -/

/-- A register field that names a predicate (R189, R210). -/
def predOf (r : Reg) : Sys2Proof.Pred := BitVec.ofNat 3 r.toNat

/-- A predicate operation (R210). -/
def State.predOp (s : State) (r : BR) (op : Bool → Bool → Bool) : State :=
  s.when r.g fun s => s.wrPred (predOf r.d) (op (s.guard (predOf r.a)) (s.guard (predOf r.b)))

/-- PAND (R210). -/
def execPand (r : BR) (s : State) : Out := .next (s.predOp r fun x y => x && y)

/-- PANDN (R210). -/
def execPandn (r : BR) (s : State) : Out := .next (s.predOp r fun x y => x && !y)

/-- POR (R210). -/
def execPor (r : BR) (s : State) : Out := .next (s.predOp r fun x y => x || y)

/-- PXOR (R210). -/
def execPxor (r : BR) (s : State) : Out := .next (s.predOp r fun x y => x != y)

/-- PNOT (R210). -/
def execPnot (r : BR) (s : State) : Out := .next (s.predOp r fun x _ => !x)

/-- RDPW: pw with bit 0 reading 1 (R210). -/
def execRdpw (r : BR) (s : State) : Out :=
  .next (s.when r.g fun s => s.wr r.d ((s.opw ||| 1).zeroExtend 64))

/-- WRPW writes p1 to p7 (R210). -/
def execWrpw (r : BR) (s : State) : Out :=
  .next (s.when r.g fun s =>
    let v : BitVec 8 := BitVec.ofNat 8 (s.rd r.a).toNat ||| 1
    s.modMe fun t => { t with arch := { t.arch with pw := v } })

/-- SEL: fn bits 2:0 name the selecting predicate (R211). -/
def execSel (r : BR) (s : State) : Out :=
  .next (s.when r.g fun s =>
    s.wr r.d (if s.guard (BitVec.ofNat 3 r.fn.toNat) then s.rd r.a else s.rd r.b))

end Sys2Proof.Machine
end

