-- ==== Sys2Proof/Machine/Simd.lean ====
section
/-!
DEFINITION. The SIMD instructions within a register (09 R212, R213).
-/

namespace Sys2Proof.Machine

/-- Lane width of an element type (R194, R212). -/
def elemW (fn : BitVec 4) : Nat := 8 * 2 ^ (fn.toNat / 2)

/-- Is an element type unsigned (R194)? -/
def elemU (fn : BitVec 4) : Bool := fn.toNat % 2 = 1

/-- A lane read by its type (R212). -/
def elem (u : Bool) (e x : Nat) : Int := if u then ((x % 2 ^ e : Nat) : Int) else sint e x

/-- Clamps to the range of a type (R212). -/
def satElem (u : Bool) (e : Nat) (v : Int) : Int :=
  let lo : Int := if u then 0 else -(2 ^ (e - 1))
  let hi : Int := if u then 2 ^ e - 1 else 2 ^ (e - 1) - 1
  if v < lo then lo else if v > hi then hi else v

/-- Joins lane results of width e, each taken modulo 2^e. -/
def joinLanes (e : Nat) (f : Nat → Int) : Nat → Nat
  | 0 => 0
  | n + 1 => joinLanes e f n + imod e (f n) * 2 ^ (e * n)

/-- Lane k of width e. -/
def simdLane (e k : Nat) (v : W64) : Nat := v.toNat / 2 ^ (e * k) % 2 ^ e

/-- A lane-wise instruction: `op u e x y` on the numbers of each lane (R212). -/
def State.simd (s : State) (r : BR) (op : Bool → Nat → Nat → Nat → Int) : State :=
  s.when r.g fun s =>
    let e := elemW r.fn
    s.wr r.d (w64 (joinLanes e (fun k => op (elemU r.fn) e (simdLane e k (s.rd r.a)) (simdLane e k (s.rd r.b))) (64 / e)))

/-- VADD (R212). -/
def execVadd (r : BR) (s : State) : Out := .next (s.simd r fun _ _ x y => (x : Int) + y)

/-- VADDS (R212). -/
def execVadds (r : BR) (s : State) : Out := .next (s.simd r fun u e x y => satElem u e (elem u e x + elem u e y))

/-- VSUB (R212). -/
def execVsub (r : BR) (s : State) : Out := .next (s.simd r fun _ _ x y => (x : Int) - y)

/-- VSUBS (R212). -/
def execVsubs (r : BR) (s : State) : Out := .next (s.simd r fun u e x y => satElem u e (elem u e x - elem u e y))

/-- VMUL (R212). -/
def execVmul (r : BR) (s : State) : Out := .next (s.simd r fun _ _ x y => (x : Int) * y)

/-- VMULH (R212). -/
def execVmulh (r : BR) (s : State) : Out := .next (s.simd r fun u e x y => elem u e x * elem u e y / 2 ^ e)

/-- VMIN (R212). -/
def execVmin (r : BR) (s : State) : Out := .next (s.simd r fun u e x y => min (elem u e x) (elem u e y))

/-- VMAX (R212). -/
def execVmax (r : BR) (s : State) : Out := .next (s.simd r fun u e x y => max (elem u e x) (elem u e y))

/-- VAVG (R212). -/
def execVavg (r : BR) (s : State) : Out := .next (s.simd r fun u e x y => (elem u e x + elem u e y + 1) / 2)

/-- VABSD (R212). -/
def execVabsd (r : BR) (s : State) : Out := .next (s.simd r fun u e x y => ((elem u e x - elem u e y).natAbs : Nat))

/-- VSHL (R212). -/
def execVshl (r : BR) (s : State) : Out := .next (s.simd r fun _ e x y => ((x * 2 ^ (y % e) : Nat) : Int))

/-- VSHR (R212). -/
def execVshr (r : BR) (s : State) : Out := .next (s.simd r fun u e x y => elem u e x / 2 ^ (y % e))

/-- VCMPEQ (R212). -/
def execVcmpeq (r : BR) (s : State) : Out := .next (s.simd r fun _ _ x y => if x = y then -1 else 0)

/-- VCMPGT (R212). -/
def execVcmpgt (r : BR) (s : State) : Out := .next (s.simd r fun u e x y => if elem u e x > elem u e y then -1 else 0)

/-- VSPLAT: lane 0 of a in every lane (R212). -/
def execVsplat (r : BR) (s : State) : Out :=
  .next (s.when r.g fun s =>
    let e := elemW r.fn
    s.wr r.d (w64 (joinLanes e (fun _ => (simdLane e 0 (s.rd r.a) : Nat)) (64 / e))))

/-- VPACK: the wide lanes of a, then of b, clamped to the narrow type (R213). -/
def execVpack (r : BR) (s : State) : Out :=
  .next (s.when r.g fun s =>
    let e := elemW r.fn
    let n := 32 / e
    let wide (k : Nat) : Nat := if k < n then simdLane (2 * e) k (s.rd r.a) else simdLane (2 * e) (k - n) (s.rd r.b)
    s.wr r.d (w64 (joinLanes e (fun k => satElem (elemU r.fn) e (elem (elemU r.fn) (2 * e) (wide k))) (64 / e))))

/-- VUNPK: the low narrow lanes of a, extended (R213). -/
def execVunpk (r : BR) (s : State) : Out :=
  .next (s.when r.g fun s =>
    let e := elemW r.fn
    s.wr r.d (w64 (joinLanes (2 * e) (fun k => elem (elemU r.fn) e (simdLane e k (s.rd r.a))) (32 / e))))

end Sys2Proof.Machine
end

