-- ==== Sys2Proof/Machine/Words.lean ====
section
/-!
DEFINITION. What a word of a bundle does: one call per instruction of word A and word B. An event is no word of a bundle
and does nothing there.
-/

namespace Sys2Proof.Machine

/-- The meaning of a word of the running bundle. -/
def runWord (i : Instr) (s : State) : Out :=
  match i with
  | .nop r => execNop r s
  | .halt r => execHalt r s
  | .yield r => execYield r s
  | .br r => execBr r s
  | .jmp r => execJmp r s
  | .call r => execCall r s
  | .jr r => execJr r s
  | .loop r => execLoop r s
  | .loopi r => execLoopi r s
  | .ldB r => execLdB r s
  | .ldH r => execLdH r s
  | .ldW r => execLdW r s
  | .ldD r => execLdD r s
  | .ldsB r => execLdsB r s
  | .ldsH r => execLdsH r s
  | .ldsW r => execLdsW r s
  | .st r => execSt r s
  | .ldx r => execLdx r s
  | .stx r => execStx r s
  | .ldsync r => execLdsync r s
  | .ldff r => execLdff r s
  | .stsync r => execStsync r s
  | .stfill r => execStfill r s
  | .sete r => execSete r s
  | .afaa r => execAfaa r s
  | .axchg r => execAxchg r s
  | .acas r => execAcas r s
  | .amin r => execAmin r s
  | .amax r => execAmax r s
  | .aminu r => execAminu r s
  | .amaxu r => execAmaxu r s
  | .aand r => execAand r s
  | .aor r => execAor r s
  | .afaaN r => execAfaaN r s
  | .axchgN r => execAxchgN r s
  | .acasN r => execAcasN r s
  | .aminN r => execAminN r s
  | .amaxN r => execAmaxN r s
  | .aminuN r => execAminuN r s
  | .amaxuN r => execAmaxuN r s
  | .aandN r => execAandN r s
  | .aorN r => execAorN r s
  | .spin r => execSpin r s
  | .sflush r => execSflush r s
  | .sinv r => execSinv r s
  | .pref r => execPref r s
  | .fenceH r => execFenceH r s
  | .fenceE r => execFenceE r s
  | .fenceP r => execFenceP r s
  | .chunk r => execChunk r s
  | .iflush r => execIflush r s
  | .send r => execSend r s
  | .recv r => execRecv r s
  | .peek r => execPeek r s
  | .chstat r => execChstat r s
  | .waitm r => execWaitm r s
  | .waitmI r => execWaitmI r s
  | .inb r => execInb r s
  | .msgmask r => execMsgmask r s
  | .retu r => execRetu r s
  | .spawn r => execSpawn r s
  | .tnext r => execTnext r s
  | .tpost r => execTpost r s
  | .retj r => execRetj r s
  | .sleep r => execSleep r s
  | .barw r => execBarw r s
  | .bara r => execBara r s
  | .barcfg r => execBarcfg r s
  | .cancelL r => execCancelL r s
  | .cancelG r => execCancelG r s
  | .cancelJ r => execCancelJ r s
  | .bcopy r => execBcopy r s
  | .strm r => execStrm r s
  | .strmx r => execStrmx r s
  | .mbw r => execMbw r s
  | .mbr r => execMbr r s
  | .mcfg r => execMcfg r s
  | .mzero r => execMzero r s
  | .mma r => execMma r s
  | .mend r => execMend r s
  | .msto r => execMsto r s
  | .mstat r => execMstat r s
  | .gangStart _ => .next s
  | .ganglimExpiry _ _ _ => .next s
  | .setpos r => execSetpos r s
  | .getpos r => execGetpos r s
  | .publ r => execPubl r s
  | .neigh r => execNeigh r s
  | .nextn r => execNextn r s
  | .migr r => execMigr r s
  | .whereIs r => execWhere r s
  | .anchor r => execAnchor r s
  | .peer r => execPeer r s
  | .sysr r => execSysr r s
  | .sysw r => execSysw r s
  | .tlbiVa r => execTlbiVa r s
  | .tlbiJob r => execTlbiJob r s
  | .tlbiVm r => execTlbiVm r s
  | .tlbiGpa r => execTlbiGpa r s
  | .tlbiAll r => execTlbiAll r s
  | .tlbiInvalidate _ => .next s
  | .tlbiDone _ _ => .next s
  | .svc r => execSvc r s
  | .eret r => execEret r s
  | .wake r => execWake r s
  | .add r => execAdd r s
  | .sub r => execSub r s
  | .mul r => execMul r s
  | .mulh r => execMulh r s
  | .mulhu r => execMulhu r s
  | .div r => execDiv r s
  | .divu r => execDivu r s
  | .rem r => execRem r s
  | .remu r => execRemu r s
  | .and r => execAnd r s
  | .or r => execOr r s
  | .xor r => execXor r s
  | .andn r => execAndn r s
  | .shl r => execShl r s
  | .shr r => execShr r s
  | .sar r => execSar r s
  | .ror r => execRor r s
  | .min r => execMin r s
  | .max r => execMax r s
  | .minu r => execMinu r s
  | .maxu r => execMaxu r s
  | .clz r => execClz r s
  | .ctz r => execCtz r s
  | .popc r => execPopc r s
  | .extr r => execExtr r s
  | .insr r => execInsr r s
  | .addi r => execAddi r s
  | .andi r => execAndi r s
  | .ori r => execOri r s
  | .xori r => execXori r s
  | .shli r => execShli r s
  | .shri r => execShri r s
  | .sari r => execSari r s
  | .rori r => execRori r s
  | .movi r => execMovi r s
  | .movh r => execMovh r s
  | .cmp r => execCmp r s
  | .cmpi r => execCmpi r s
  | .pand r => execPand r s
  | .pandn r => execPandn r s
  | .por r => execPor r s
  | .pxor r => execPxor r s
  | .pnot r => execPnot r s
  | .rdpw r => execRdpw r s
  | .wrpw r => execWrpw r s
  | .sel r => execSel r s
  | .vadd r => execVadd r s
  | .vadds r => execVadds r s
  | .vsub r => execVsub r s
  | .vsubs r => execVsubs r s
  | .vmul r => execVmul r s
  | .vmulh r => execVmulh r s
  | .vmin r => execVmin r s
  | .vmax r => execVmax r s
  | .vavg r => execVavg r s
  | .vabsd r => execVabsd r s
  | .vshl r => execVshl r s
  | .vshr r => execVshr r s
  | .vcmpeq r => execVcmpeq r s
  | .vcmpgt r => execVcmpgt r s
  | .vsplat r => execVsplat r s
  | .vpack r => execVpack r s
  | .vunpk r => execVunpk r s
  | .fadd r => execFadd r s
  | .fsub r => execFsub r s
  | .fmul r => execFmul r s
  | .fdiv r => execFdiv r s
  | .fsqrt r => execFsqrt r s
  | .fmin r => execFmin r s
  | .fmax r => execFmax r s
  | .fma r => execFma r s
  | .fneg r => execFneg r s
  | .fabs r => execFabs r s
  | .fcmp r => execFcmp r s
  | .fclass r => execFclass r s
  | .fcvt r => execFcvt r s
  | .bundleIssue _ _ => .next s
  | .rotationBoundary _ => .next s
  | .landingResult _ => .next s
  | .remoteReply _ => .next s
  | .timingReplay _ _ => .next s
  | .egressLatchRelease _ => .next s
  | .chunkCommit _ _ => .next s
  | .domainAcquire _ _ _ => .next s
  | .domainApply _ _ _ => .next s
  | .pinWaitLimit _ _ => .next s
  | .engineElementWrite _ => .next s
  | .engineElementRead _ => .next s
  | .engineCompletion _ => .next s
  | .inboxEntryPlace _ => .next s
  | .remoteRequest _ => .next s
  | .refusalArrival _ => .next s
  | .fullEmptyService _ _ => .next s
  | .waitListRetry _ _ => .next s
  | .busyReissue _ _ => .next s
  | .waitlimExpiry _ _ _ => .next s
  | .waitWithdrawal _ => .next s
  | .barlimExpiry _ _ _ => .next s
  | .segStageWrite _ _ => .next s
  | .segCommit _ _ => .next s
  | .coretagWrite _ => .next s
  | .xrootWrite _ => .next s
  | .lmmapWrite _ => .next s
  | .pageWalk _ => .next s
  | .parkedAnswer _ _ => .next s
  | .stashFillReply _ => .next s
  | .stashInvalidate _ _ => .next s
  | .stashRecall _ _ _ => .next s
  | .stashRevoke _ _ => .next s
  | .exclusiveGrant _ _ => .next s
  | .l2FillRequest _ => .next s
  | .l2OwnershipRequest _ => .next s
  | .l2DropNotice _ => .next s
  | .l2Writeback _ => .next s
  | .l2InvalidateAck _ => .next s
  | .l2Atomic _ => .next s
  | .omegaCombine _ _ => .next s
  | .combineSplit _ => .next s
  | .tileRequest _ => .next s
  | .tileMergeClose _ _ => .next s
  | .tilePinRelease _ _ => .next s
  | .maskScrub _ => .next s
  | .bucketRefill _ => .next s
  | .tokenRetry _ => .next s
  | .l2partWrite _ _ => .next s
  | .l2bwWrite _ _ => .next s
  | .l2statClear => .next s
  | .s2Translate _ => .next s
  | .s2UpgradeCheck _ => .next s
  | .s2BlockedRetry _ => .next s
  | .mscFill _ => .next s
  | .mscWriteback _ => .next s
  | .mscNonallocWrite _ => .next s
  | .controllerFillReturn _ _ => .next s
  | .psnansRepaired _ => .next s
  | .psnansLost _ => .next s
  | .repairTimeout _ => .next s
  | .pgblkBlock _ => .next s
  | .pgblkAbandon _ => .next s
  | .pageDrainDone _ => .next s
  | .pageCopyStart _ => .next s
  | .pageCopyDone => .next s
  | .checkpointStart => .next s
  | .powerFailInput => .next s
  | .checkpointFlush => .next s
  | .checkpointCopy => .next s
  | .checkpointSeal => .next s
  | .launchComplete _ => .next s
  | .messageArrive _ => .next s
  | .skipNoticeArrive _ => .next s
  | .messageAck _ => .next s
  | .messageRefused _ => .next s
  | .messageReoffer _ _ => .next s
  | .skipNoticeReoffer _ => .next s
  | .sendlimExpiry _ _ _ => .next s
  | .placementUpdate _ _ _ => .next s
  | .userInterruptDeliver _ _ => .next s
  | .mailboxService _ _ => .next s
  | .streamReadAhead _ _ => .next s
  | .doorbellWrite _ _ => .next s
  | .doorbellHeadRead _ => .next s
  | .dqptrWrite _ => .next s
  | .dispatch => .next s
  | .depReread _ => .next s
  | .taskRecordRetry _ => .next s
  | .remoteLaunchRecord _ _ _ _ _ _ => .next s
  | .launchWake _ => .next s
  | .launchStart _ => .next s
  | .preemptSelect _ => .next s
  | .cocoonSaveDone _ => .next s
  | .continuationRetry _ => .next s
  | .tpostRetry _ _ => .next s
  | .sleepExpiry _ _ _ => .next s
  | .carryPacketArrive _ => .next s
  | .carryAck _ => .next s
  | .carryRefused _ => .next s
  | .carryReoffer _ => .next s
  | .fieldcfgWrite _ => .next s
  | .fieldStepNotice _ _ _ => .next s
  | .fieldResidentCount _ _ _ => .next s
  | .fieldHandover _ => .next s
  | .fieldSnapshot _ => .next s
  | .fieldHaloCopy _ _ => .next s
  | .fieldStepRelease _ => .next s
  | .placementLookup _ _ => .next s
  | .forwardItem _ _ => .next s
  | .flutterSweep _ => .next s
  | .weightReport _ => .next s
  | .flutterPropose _ => .next s
  | .proposalAnswer _ _ => .next s
  | .proposalDecide _ => .next s
  | .decisionReceive _ => .next s
  | .swapFreeze _ _ => .next s
  | .swapMove _ _ => .next s
  | .swapFlip _ _ => .next s
  | .swapResume _ _ => .next s
  | .placementInvalidate _ _ => .next s
  | .forwardRetire _ _ => .next s
  | .bar2Access _ _ _ _ => .next s
  | .hostWindowCompletion _ _ _ => .next s
  | .bronexAuthFail _ => .next s
  | .bronexLinkFail _ => .next s
  | .routeWaitTimeout _ => .next s
  | .powerGate _ => .next s
  | .coreWake _ => .next s
  | .thermalRunaway _ => .next s
  | .powerInterval => .next s
  | .voltageGlitch => .next s
  | .clockGlitch => .next s
  | .tamperLoopOpen => .next s
  | .chrysalisAlarm _ _ => .next s
  | .chalcfgWrite _ => .next s
  | .challogClear => .next s
  | .attestationReport _ => .next s
  | .chrysalisBoot _ _ _ => .next s
  | .reset => .next s
  | .stopByLomter _ _ => .next s
  | .slotRestart _ _ _ => .next s
  | .thaw _ => .next s
  | .jobEnd _ => .next s
  | .bronexLinkUp _ _ => .next s
  | .rowSensorReading _ _ _ => .next s

/-- The state in which a word leaves the machine. -/
def State.word (s : State) (i : Instr) : State :=
  match runWord i s with
  | .next t => t
  | _ => s

end Sys2Proof.Machine
end

