-- ==== Sys2Proof/Machine/Issue.lean ====
section
/-!
DEFINITION. The issue of a bundle: what is checked before a bundle issues (14 R323, 11 R260, R275, 06 R138, R141, R143, R145),
the delivery of a user interrupt (11 R272), fetch (01 R20, 03 R79), decoding (08 R181), the reads of operands with their sync
bits and views (07 R166, 08 R178 to R180, 09 R214), the two words, and what follows a bundle (09 R218, 06 R134, R135).
-/

namespace Sys2Proof.Machine

/-! ## The bundle that is performed -/

/-- Begins an attempt to issue a bundle of a thread. -/
def State.start (s : State) (w : Who) : State :=
  { s with cur := w, npc := (s.slot w).arch.pc + 8, taken := false, bst := .run, bpops := [], useg := 0, leaving := none,
           alone := false }

/-- Does a masked run count, with MASK not zero or H = 1 (R275)? -/
def Slot.masked (t : Slot) : Bool := fld 8 0 t.regs.uistat != 0 || t.inUser

/-- Does a bundle about to issue take MASKOVR (R275)? -/
def Slot.maskOver (t : Slot) : Bool := t.masked && fld 63 48 t.regs.uistat == fld 15 0 t.regs.masklim

/-- Is a slot able to issue as far as what it last waited for goes, or does it wait in a way that a delivery abandons (R272)? -/
def Slot.interruptible (t : Slot) : Bool :=
  let clear := t.heldMsgs.isEmpty && t.pushq.isEmpty
  match t.wait with
  | none => clear
  | some x => x.kind.interruptible || (clear && (x.kind == .landing || x.kind == .fill || x.kind == .commit || x.kind == .refused))

/-- May a user interrupt be delivered (R272)? -/
def Slot.deliverable (t : Slot) : Bool :=
  tb 0 t.regs.uivec && !t.inUser && t.unmasked != 0 && t.ending.isNone && !t.arrived && t.interruptible

/-- Takes the first trap that is due (R322, R323). -/
def State.takeFirst (s : State) : State := s.whenSettled fun s => { s.takeDue s.cur with bst := .stop }

/-- MASKOVR, before every other trap; the value its TADDR takes is free (R275, R323; log 19). -/
def State.takeMaskOver (s : State) : State :=
  let d := mkDue cMASKOVR 0 0 (Config.freeDword s.free) s.me.arch.pc
  (if s.me.due.any fun x => x.code == cMASKOVR then s else s.tick.modMe fun t => { t with due := d :: t.due }).takeFirst

/-- Lowest set bit of a mask of nine. -/
def lowBit (m : Nat) : Nat := ((List.range 9).find? fun i => m / 2 ^ i % 2 == 1).getD 0

/-- Delivers a user interrupt: h0 holds the PC and h1 the channel, H is set and the handler is entered (R272). -/
def Slot.deliver (t : Slot) : Slot :=
  let c := lowBit t.unmasked
  let pc := w64 (t.arch.pc.toNat + (if t.arch.past then 2 ^ 20 else 0))
  { t with hbank := (t.hbank.set 0 pc).set 1 (w64 c),
           regs := { t.regs with uistat := setBit 32 true (setBit (16 + c) false t.regs.uistat) },
           arch := { t.arch with pc := BitVec.ofNat 20 (fld 19 3 t.regs.uivec * 8), past := false },
           fetch := [], wait := none, issued := none, arrived := false, sdesc := none, fence := [], st := if t.st = .waiting then .ready else t.st }

/-- The delivery, once the chunk has committed and every landing has landed; a trap that a landing brings is taken first
(R272). -/
def State.deliverNow (s : State) : State :=
  s.whenSettled fun s =>
    let s := s.modMe Slot.landAll
    if s.me.due.isEmpty then { s.modMe Slot.deliver with bst := .stop } else { s.takeDue s.cur with bst := .stop }

/-- Does a thread wait in a way that a delivery abandons (R272)? -/
def Slot.abandons (t : Slot) : Bool :=
  match t.wait with
  | some x => t.st = .waiting && x.kind.interruptible && t.latch.isNone
  | none => false

/-- USER_INTERRUPT_DELIVER (R272). -/
def execUserInterruptDeliver (lpn slot : Nat) (s : State) : Out :=
  let s := s.start { lpn := lpn, slot := slot }
  .next (if s.me.deliverable && (s.me.st == .ready || s.me.abandons) then s.deliverNow else s)

/-! ## Before a bundle -/

/-- A result that came back as a trap is due when it has come; that of a limit, at the close (R228, R323). -/
def Landing.due (n : Nat) (l : Landing) : Bool :=
  match l.res with
  | .trap code _ _ _ => code != cWAITTO || l.closeAt ≤ n
  | _ => false

/-- Closes the windows that end before the next bundle, and makes traps due that results brought (R165, R323). -/
def Slot.settleLandings (t : Slot) : Slot :=
  let t := t.land (t.arch.landing.filter (Landing.due t.arch.bno))
  t.closeWindows t.arch.bno

/-- Pushes to g30 that a commit could not send are sent before the slot goes on, bounded by SENDLIM from
their bundles' issue (R259, R260, R269). -/
def State.pushGate (s : State) (f : State → State) : State :=
  let l := s.me.pushq
  if l.isEmpty then f s
  else
    let s := (s.modMe fun t => { t with pushq := [] }).sendPushes s.cur l
    match s.me.pushq with
    | [] => f (s.endWait s.cur)
    | p :: _ =>
      let a := msgAddr (fld 26 8 s.me.regs.pipecfg) (fld 6 4 s.me.regs.pipecfg) 0
      let past := s.myProc.time - p.since
      if s.sendlim ≤ past then (s.modMe fun t => { t with pushq := t.pushq.drop 1 }).raise cSENDSTALL 0 0 a
      else s.waitAgain .send (s.sendlim - past) a (sendlimEv s.cur)

/-- The bundle before which the chunk must end: one whose access was refused takes its trap, another issues once everything before
it has committed, as a single-access chunk or waiting in place for what its access needs (R134, R141, R145, R326). -/
def State.cutGate (s : State) (f : State → State) : State :=
  let clear (s : State) : State := s.modMe fun t => { t with cut := none }
  match s.me.cut with
  | none => f s
  | some (n, x) =>
    if n < s.me.arch.bno then f (clear s)
    else if s.me.arch.bno < n then f s
    else match x with
      | .refused a seg => (clear s).raise cSEGV seg 5 a
      | .invalid r a => (clear s).raise cXLATE 0 r a
      | _ =>
        let s := s.endChunk s.cur
        if !s.me.settled then s.waitAgain .commit 0 0 fun _ => none
        else f ((clear s).modMe fun t => { t with single := x == .single, precise := true })

/-- A solo attempt acquires the domains of its last attempt before its first bundle (R143). -/
def State.soloGate (s : State) (f : State → State) : State :=
  match s.me.soloRun, s.me.chunk with
  | some held, none =>
    match (s.domsOf s.me.lastSets).find? fun d => !held.contains d with
    | some d => (s.waitAgain .commit 0 0 fun _ => none).post (.domainAcquire d s.cur.lpn s.cur.slot)
    | none => f s
  | _, _ => f s

/-! ## Operands (R166, R178 to R180, R214) -/

/-- Does a word act, its guard being true (R179)? -/
def acts (pw : BitVec 8) (i : Instr) : Bool := i.guard == 0 || pw.getLsbD i.guard.toNat

/-- The words of a bundle that act. -/
def acting (b : Bundle) (pw : BitVec 8) : List Instr := (b.a :: b.b.toList).filter (acts pw)

/-- Registers that the acting words read, with their sync bits. -/
def readsOf (b : Bundle) (pw : BitVec 8) : List (Reg × Bool) := (acting b pw).flatMap Instr.reads

/-- Registers that the acting words write, word A's first. -/
def writesOf (b : Bundle) (pw : BitVec 8) : List Reg := (acting b pw).flatMap Instr.writes

/-- Registers of synchronising reads that find F = 0 (R166); a sync bit on a view or bank register has no effect (R214). -/
def Slot.syncReads (t : Slot) (b : Bundle) : List Reg :=
  ((readsOf b t.arch.pw).filter fun e => e.2 && e.1 != 0 && t.field e.1 = .gen && !(t.arch.isF e.1)).map fun e => e.1

/-- Is a landing entry pending for a register? -/
def Slot.pendingFor (t : Slot) (r : Reg) : Bool := t.arch.landing.any fun l => l.dst = .g r

/-- What reading a field comes to: a view register's element, or nothing to check (R214, R269, R312). -/
def State.viewRead (s : State) (r : Reg) : View :=
  match s.me.field r with
  | .stream n => s.viewPop s.cur n 0
  | .up =>
    let k := fld 3 1 s.me.regs.pipecfg
    let n := s.me.tentPops 4
    if s.takeable s.cur.lpn k ≤ n then .wait (.pop 4) (Config.freeDword s.free)
    else .value ((s.msgAt s.cur.lpn k n).getD 1 0)
  | _ => .ok

/-- What the pushes of a bundle come to, each after the ones before it (R214, R312). -/
def State.viewWrites (s : State) : List Reg → List Reg → List (Reg × View)
  | _, [] => []
  | seen, r :: l =>
    let v := match s.me.field r with
      | .stream n => s.viewPush s.cur n (seen.filter fun x => x == r).length
      | _ => .ok
    (r, v) :: s.viewWrites (seen ++ [r]) l

/-- The view accesses of a bundle: one read of each register, and every push. -/
def State.views (s : State) (b : Bundle) : List (Reg × View) :=
  let pw := s.me.arch.pw
  (((readsOf b pw).map fun e => e.1).eraseDups.map fun r => (r, s.viewRead r)) ++ s.viewWrites [] (writesOf b pw)

/-- WAITTO that operand reads raise at once, with the register and the TADDR of each (R166, R312). -/
def State.emptyReads (s : State) (b : Bundle) (vs : List (Reg × View)) : List (Nat × W64) :=
  (((s.me.syncReads b).filter fun r => !(s.me.pendingFor r)).map fun r => (r.toNat, w64 (0x40 + r.toNat))) ++
  vs.filterMap fun v => match v.2 with
    | .waitto a => some (v.1.toNat, a)
    | _ => none

/-- Does a bundle push to g30? -/
def State.pushesDown (s : State) (b : Bundle) : Bool := (writesOf b s.me.arch.pw).any fun r => s.me.field r = .down

/-- A push to g30 needs a placement of DLPN (R269). -/
def State.downGate (s : State) (b : Bundle) (f : State → State) : State :=
  if !s.pushesDown b then f s
  else
    let dst := fld 26 8 s.me.regs.pipecfg
    match s.placeLookup (s.hostOf s.cur.lpn) dst with
    | .none => s.raise cSEGV 0 4 (w64 dst)
    | .ask => s.askPlace dst
    | .host _ => f s

/-- A wait of a view access, up to WAITLIM (R269, R312). -/
def State.viewWait (s : State) (k : WaitKind) (a : W64) : State :=
  let s := if k = .pop 4 then s.headRecord s.cur.lpn (fld 3 1 s.me.regs.pipecfg) else s
  if s.waitOver k || s.waitlim = 0 then s.tick.raise cWAITTO 0 0 a
  else s.tick.waitAgain k s.waitlim a (waitlimEv s.cur)

/-- The view access of a bundle that ends or delays it. -/
def blocking (vs : List (Reg × View)) : Option View :=
  (vs.map fun v => v.2).find? fun v => match v with
    | .fault _ _ _ _ _ => true
    | .wait _ _ => true
    | _ => false

/-- Synchronising reads close the entries of their registers early; one still out is waited for (R166, R167). -/
def State.syncGate (s : State) (b : Bundle) (f : State → State) : State :=
  let rs := s.me.syncReads b
  let ls := s.me.arch.landing.filter fun l => rs.any fun r => l.dst = .g r
  if ls.any Landing.open then s.waitAgain .landing 0 0 fun _ => none
  else
    let s := s.modMe fun t => t.land ls
    if s.me.due.isEmpty then f s else s.takeFirst

/-- The operands as the bundle reads them at its start (R178, R214). -/
def State.operands (s : State) (vs : List (Reg × View)) : Vector W64 32 :=
  let t := s.me
  Vector.ofFn fun i : Fin 32 =>
    let r : Reg := BitVec.ofFin i
    match t.field r with
    | .gen => t.arch.rd r
    | .bank n => t.hbank[n.toNat]'(n.isLt)
    | .down => Config.freeDword s.free
    | _ =>
      match vs.find? fun v => v.1 == r with
      | some (_, .value v) => v
      | _ => 0

/-- View registers that the bundle pops: 0 to 3 for the streams, 4 for g31. -/
def Slot.popsOf (t : Slot) (vs : List (Reg × View)) : List Nat :=
  vs.filterMap fun v => match v.2, t.field v.1 with
    | .value _, .stream n => some n
    | .value _, .up => some 4
    | _, _ => none

/-- Does a bundle pop g31? -/
def State.popsUp (s : State) (b : Bundle) : Bool := (readsOf b s.me.arch.pw).any fun e => s.me.field e.1 = .up

/-- A pop of g31 takes part in the steps on its queue: a boundary bundle, which takes the message at once, waits for a held commit;
a solo attempt must hold the domain (R140, R143, R254, R269; log 13). -/
def State.popGate (s : State) (b : Bundle) (f : State → State) : State :=
  let l := popLine s.cur.lpn (fld 3 1 s.me.regs.pipecfg)
  if !s.popsUp b then f s
  else if b.a.boundary then (if s.lineHeld l (some s.cur) then { s with bst := .stop } else f s)
  else if !s.soloMay l then s.soloWiden l
  else f s

/-- Reads the operands of a bundle, or takes the trap or begins the wait that a read asks for (R166, R178, R214, R323). -/
def State.readOperands (s : State) (b : Bundle) (f : State → State) : State :=
  let vs := s.views b
  match bestBy (fun e : Nat × W64 => e.1) (s.emptyReads b vs) with
  | some e => s.raise cWAITTO 0 0 e.2
  | none =>
    match blocking vs with
    | some (.fault n k st rs la) => s.viewFault n k st rs la
    | some (.wait k a) => s.viewWait k a
    | _ =>
      s.downGate b fun s => s.popGate b fun s => s.syncGate b fun s =>
        f { s with opnd := s.operands vs, opw := s.me.arch.pw, orm := BitVec.ofNat 3 (fld 2 0 s.me.arch.fcsr),
                   osat := tb 3 s.me.arch.fcsr, bpops := s.me.popsOf vs, free := s.free + 1 }

/-! ## After a bundle -/

/-- The offset that the fetch takes to follow another: a loop's start after the end of its body (R79). -/
def Arch.follows (a : Arch) (pc : BitVec 20) : BitVec 20 :=
  let back (lc ls : W64) : Bool := loopEndsAt ls pc && 1 < fld 31 0 lc
  if back a.lc1 a.ls1 then BitVec.ofNat 20 (fld 19 0 a.ls1)
  else if back a.lc0 a.ls0 then BitVec.ofNat 20 (fld 19 0 a.ls0)
  else pc + 8

/-- The next k offsets of a path. -/
def Arch.path (a : Arch) (pc : BitVec 20) : Nat → List (BitVec 20)
  | 0 => []
  | n + 1 => pc :: a.path (a.follows pc) n

/-- Reads the next four bundles ahead, beside what the last four bundles read (R79; log 14). -/
def State.fetchOn (s : State) : State :=
  let t := s.me
  let ahead := (t.arch.path t.arch.pc 4).map fun o => (o, w64 (s.locRead s.cur.lpn t.priv o.toNat 8), t.arch.bno - 1)
  let old := t.fetch.filter fun e => t.arch.bno ≤ e.2.2 + 4 && !(ahead.any fun x => x.1 == e.1 && x.2.1 == e.2.1)
  s.modMe fun t => { t with fetch := ahead ++ old }

/-- MC after a bundle (R275). -/
def countMasked (was : Bool) (t : Slot) : W64 :=
  let v := t.regs.uistat
  if !t.masked then setFld 63 48 0 v else if was then setFld 63 48 (fld 63 48 v + 1) v else v

/-- Where the thread goes on: the target of a taken transfer, a loop's start, or the next bundle (R218). An SVC that is
still due makes no end check. -/
def State.nextPc (s : State) : Arch × BitVec 20 × Bool :=
  let a := s.me.arch
  let last := a.pc == 0xFFFF8
  if s.taken then (a, s.npc, false)
  else if s.me.due.any fun d => d.code == cSVC then (a, a.pc + 8, last)
  else match a.endChecks a.pc with
    | (a, some p) => (a, p, false)
    | (a, none) => (a, a.pc + 8, last)

/-- A thread whose HALT or RETJ is done ends, once the pushes of that bundle have been sent (R198, R269, R390). -/
def State.endThread (s : State) (w : Who) : State :=
  let t := s.slot w
  if !t.pushq.isEmpty then s else
  match t.ending with
  | none => s
  | some .halt => s.vacate w true
  | some (.retired old c) => s.retire w old c

/-- The bundle is done: the PC moves on, counts advance, and its chunk goes on or ends; what it popped and pushed takes
effect at once in a boundary operation; a resume issue is over, unless this bundle armed it (R134, R135, R144, R218, R275, R325). -/
def State.finish (s : State) (boundary was re : Bool) (a0 : Arch) : State :=
  let (arch, pc, past) := s.nextPc
  let time := s.myProc.time
  let s := s.modMe fun t =>
    { t with arch := { arch with pc := pc, past := past, bno := arch.bno + 1 },
             regs := { t.regs with uistat := countMasked was t },
             wait := none, issued := none, arrived := false, sdesc := none, fence := [], latch := none, resume := t.resume && !re, replays := 0, grants := [], single := false, precise := false,
             lastIssue := some time }
  let s :=
    if boundary || s.alone then
      let c := match s.me.chunk with
        | some c => c
        | none => s.me.newChunk
      (s.modMe fun t => { t with chunk := none }).commitViews s.cur { c with pops := c.pops ++ s.bpops }
    else
      let s := s.modMe fun t =>
        { t with chunk := t.chunk.map fun c => { c with pops := c.pops ++ s.bpops, count := c.count + 1 } }
      if s.me.chunk.any fun c => 256 ≤ c.count || c.last then s.endChunk s.cur else s
  let s := s.fetchOn.endThread s.cur
  match s.leaving with
  | none => s
  | some d =>
    let ctx := s.me.carried s.me.arch.pc d.pos d.bound
    ({ s with leaving := none }.modMe fun t => { t with arch := a0 }).departWith s.cur d ctx

/-! ## The two words -/

/-- A slot with the view and loop registers of another. -/
def Slot.withViews (t o : Slot) : Slot :=
  { t with regs := { t.regs with pipecfg := o.regs.pipecfg, strview := o.regs.strview },
           arch := { t.arch with lc0 := o.arch.lc0, ls0 := o.arch.ls0, lc1 := o.arch.lc1, ls1 := o.arch.ls1 } }

/-- A register after the bundle of a SYSW: what the SYSW wrote, if it changed it. -/
def sysKeep (old new v : W64) : W64 := if new = old then v else new

/-- The view and loop registers after the bundle of a SYSW. -/
def Slot.sysViews (t old new : Slot) : Slot :=
  { t with regs := { t.regs with pipecfg := sysKeep old.regs.pipecfg new.regs.pipecfg t.regs.pipecfg,
                                 strview := sysKeep old.regs.strview new.regs.strview t.regs.strview },
           arch := { t.arch with lc0 := sysKeep old.arch.lc0 new.arch.lc0 t.arch.lc0, ls0 := sysKeep old.arch.ls0 new.arch.ls0 t.arch.ls0,
                                 lc1 := sysKeep old.arch.lc1 new.arch.lc1 t.arch.lc1, ls1 := sysKeep old.arch.ls1 new.arch.ls1 t.arch.ls1 } }

/-- What a SYSW writes to the loop and view registers takes effect from the next bundle: the rest of its own bundle, the end check
and the pops included, goes by their old values (R214, R219, R269). -/
def State.afterSysw (s : State) (a : Instr) (old : Slot) (f : State → State) : State :=
  match a with
  | .sysw _ =>
    let new := s.me
    (f (s.modMe fun t => t.withViews old)).modMe fun t => t.sysViews old new
  | _ => f s

/-- Word B, and the end of the bundle (R178); `old` is the slot before word A. -/
def State.wordB (s : State) (b : Bundle) (was re : Bool) (old : Slot) : State :=
  s.afterSysw b.a old fun s =>
    (match b.b with
      | some i => s.word i
      | none => s).finish b.a.boundary was re old.arch

/-- Word A, then word B unless word A trapped, parked, left or waits (R178). -/
def State.perform (s : State) (b : Bundle) : State :=
  let old := s.me
  let s := s.word b.a
  if s.bst = .run then s.wordB b old.masked old.resume old else s

/-- The segment check of word A's ordinary access, for a read of one byte of it; `none` for another word. -/
def State.accessSeek (s : State) (i : Instr) : Option (Seg × Seek) :=
  let am (r : AM) (n : Nat) : Option (Seg × Seek) := some (r.seg, s.seek r.seg (s.offAM r n) 1 0 false)
  match i with
  | .ldB r => am r 1
  | .ldH r => am r 2
  | .ldW r => am r 4
  | .ldD r => am r 8
  | .ldsB r => am r 1
  | .ldsH r => am r 2
  | .ldsW r => am r 4
  | .ldx r => some (r.seg, s.seek r.seg (s.offAX r) 1 0 false)
  | .st r => some (r.seg, s.seek r.seg (s.offAS r (2 ^ r.f.toNat)) 1 0 false)
  | .stx r => some (r.seg, s.seek r.seg (s.offAX r) 1 0 false)
  | _ => none

/-- Is a paged address of memory type 2, as its translation stands (R42, R48)? -/
def State.isDevice (s : State) (la : Nat) : Bool :=
  let p := s.myProc
  match s.leaf1 p la with
  | .ok l => l.mt = 2 && (match s2Check p.vmid l.gpa l.mt false (s.s2Find p.vmid l.gpa) with
    | .ok (_, mt) => mt = 2
    | .error _ => false)
  | _ => false

/-- Would word A's access stand in a chunk of its own: one of memory type 2, or through M to another process (R135)? -/
def State.accessAlone (s : State) (i : Instr) : Bool :=
  match s.accessSeek i with
  | some (_, .paged la) => s.isDevice la
  | some (g, .window la) => lpnOf la != s.cur.lpn && segHas (s.seg s.cur g.toNat) rM
  | _ => false

/-- A boundary operation stands in a chunk of its own, a false guard or not: everything before it has committed; another bundle
joins the running chunk or opens one (R132, R135, R144, R179). -/
def State.chunkGate (s : State) (b : Bundle) (f : State → State) : State :=
  if b.a.boundary then s.whenSettled f
  else if !(acts s.me.arch.pw b.a) && { s with opnd := s.operands [] }.accessAlone b.a then
    s.whenSettled fun s => f { s with alone := true }
  else f (s.modMe Slot.openChunk)

/-- The dword that a thread issues: that of the slice instruction in progress, or the one at its PC (R79, R345). -/
def State.fetchWord (s : State) (w : Who) : W64 :=
  match s.opOf w with
  | some q => q.bundle
  | none => s.bundleAt w

/-- The bundle at the PC issues for the first time: its limits count from now (R68, R144). -/
def State.firstIssue (s : State) : State :=
  let now := s.myProc.time
  s.modMe fun t => { t with issued := some (t.issued.getD now) }

/-- Fetches and decodes the bundle at the PC and performs it (R20, R79, R181). -/
def State.issueBundle (s : State) : State :=
  let w := s.cur
  let t := s.me
  let la (o : Nat) : W64 := w64 (winAddr w.lpn o)
  if t.arch.past then s.raise cSEGV 0 7 (la (2 ^ 20))
  else if !segHas (s.seg w 0) rX then s.raise cSEGV 0 7 (la t.arch.pc.toNat)
  else if t.priv != 2 && hwArea s.myProc.lmmap t.arch.pc.toNat then s.raise cSEGV 0 7 (la t.arch.pc.toNat)
  else if s.locBad w.lpn t.priv t.arch.pc.toNat 8 then s.raise cPOISON 0 0 (la t.arch.pc.toNat)
  else
    let v := s.fetchWord w
    let s := { s with bword := v }
    match decodeBundle v with
    | none => s.illop
    | some b => s.chunkGate b fun s => s.firstIssue.readOperands b fun s => s.perform b

/-- The bundle whose word A was completed in place goes on with word B (R67, R178, R226). -/
def State.resumeLatch (s : State) (l : Latch) : State :=
  let s := { s with bword := l.bundle, opnd := l.opnd, opw := l.pw, orm := l.rm, bpops := l.pops,
                    osat := tb 3 s.me.arch.fcsr }
  match decodeBundle l.bundle with
  | some b => s.wordB b s.me.masked s.me.resume s.me
  | none => s

/-- What stands between a slot and its next bundle, in the order of the priorities of R323. -/
def State.preamble (s : State) : State :=
  if s.me.chunk.any fun c => c.ended then s.waitAgain .commit 0 0 fun _ => none
  else if s.me.maskOver then s.takeMaskOver
  else if s.me.windowWaits s.me.arch.bno then s.waitAgain .landing 0 0 fun _ => none
  else
    let s := s.modMe Slot.settleLandings
    if !s.me.due.isEmpty then s.takeFirst
    else if s.me.deliverable then s.deliverNow
    else if !s.me.heldMsgs.isEmpty then s.waitAgain .refused 0 0 fun _ => none
    else s.pushGate fun s =>
      if s.me.deliverable then s.deliverNow
      else if s.me.ending.isSome && !s.me.inTrap then s.endThread s.cur else s.cutGate fun s => s.soloGate State.issueBundle

/-- What an issue meets in its core's arrays: a corrected error is counted; a double-bit one in the slot's registers or context store halts
the slot with a record, which carries no cause code (R159, R480; log 55). -/
def State.arrayErrors (s : State) (w : Who) : State :=
  let core := s.hostOf w.lpn
  let e := ErrAt.slot core w.slot
  let s := (s.countSoft core e).countSoft core (.core core)
  if s.errs.contains e then (({ s with errs := s.errs.filter fun x => x != e } : State).endChunk w).halt w 0 else s

/-- A slot issues: it goes on with a slice instruction or with a completed word A, or issues its next bundle. A slot that Lomter stopped and
restarted while its word A waited in place, or while its access was parked, waits for the same event again (R159, R160, R345). -/
def State.issue (s : State) (w : Who) : State :=
  let s := (s.arrayErrors w).start w
  if s.me.st == .halted then s
  else if s.me.park.isSome then s.modMe fun t => { t with st := .parked }
  else if s.inSlice w then s.issueBundle
  else match s.me.latch, s.me.wait with
    | some l, none => s.resumeLatch l
    | some _, some _ => s.modMe fun t => { t with st := .waiting }
    | none, _ => s.preamble

/-! ## Which slot issues (R160 to R162, R471) -/

/-- Does a core issue nothing: frozen, about to freeze, gated, or Imago before its boot (R129, R335, R446, R476)? -/
def State.quiet (s : State) (core : Nat) : Bool :=
  let c := s.core core
  c.frozen || c.gated || (c.swap.isSome && c.save.isNone) || (s.proc c.host).alarm || (core == Config.imago && !s.chrys.booted) ||
    (core != Config.imago && s.ckPhase != .idle)

/-- Does a thread's instruction go on before its save: it is in a slice instruction, its word A is being completed, it waits for a full
wait list, or it has departed (R246, R365, R395)? -/
def State.saveLater (s : State) (w : Who) : Bool :=
  let t := s.slot w
  t.latch.isSome || s.inSlice w || (t.wait.any fun x => x.kind == WaitKind.carry || x.kind == WaitKind.word || x.kind == WaitKind.barrier)

/-- Is a slot able to issue (R159, R164)? -/
def State.able (s : State) (w : Who) : Bool :=
  let t := s.slot w
  let saving := (s.core (s.hostOf w.lpn)).save == some w.slot && !s.saveLater w
  t.st == .ready && t.yields == 0 && !t.doomed && !saving && !(t.latch.isNone && t.windowWaits t.arch.bno)

/-- Is a position of a core's cycle blanked by throttling (R471)? -/
def State.blanked (s : State) (core : Nat) : Bool := (s.core core).cycle / 16 % 8 < s.rowStep (rowOf core)

/-- BUNDLE_ISSUE: a slot that is able to issue issues one bundle (R160). -/
def execBundleIssue (core slot : Nat) (s : State) : Out :=
  let w : Who := { lpn := (s.core core).host, slot := slot }
  .next (if !s.quiet core && !s.blanked core && s.able w then s.issue w else s)

end Sys2Proof.Machine
end

