-- ==== Sys2Proof/Machine/Preempt.lean ====
section
/-!
DEFINITION. Timer pre-emption (18 R394, R395, 06 R146, 07 R168, 10 R246, 11 R276): the selection of a slot and the save of its
Cocoon.
-/

namespace Sys2Proof.Machine

/-- Priority level of a slot. -/
def Slot.level (t : Slot) : Nat := t.pri.toNat

/-- Is a slot from 0 to 14 a candidate (R394)? -/
def Proc.candidate (p : Proc) (n : Nat) : Bool :=
  let t := p.slot n
  let limit := fld 31 0 t.regs.quantum
  limit != 0 && limit ≤ fld 63 32 t.regs.quantum && !t.inTrap && !t.inUser &&
    (t.st == SlotSt.ready || t.st == SlotSt.waiting || t.st == SlotSt.parked) &&
    (match chooseReady p.ready with
      | some r => r.level ≤ t.level
      | none => false) &&
    (List.range 15).any fun m => m != n && tb (16 + m) p.taskcfg && !(p.slot m).reserved

/-- The candidates of a core, while no save is in progress. -/
def State.candidates (s : State) (core : Nat) : List Nat :=
  let c := s.core core
  if c.save.isSome || c.frozen then [] else (List.range 15).filter (s.proc c.host).candidate

/-- The selected slot leaves the rotation. -/
def State.toSaving (s : State) (w : Who) : State :=
  if s.saveLater w || (s.slot w).st == SlotSt.absent || (s.slot w).st == SlotSt.halted then s
  else s.modSlot w fun t => { t with st := .saving }

/-- PREEMPT_SELECT: the candidate with the largest RUN, the lowest slot among equals, enters saving (R394). -/
def execPreemptSelect (core : Nat) (s : State) : Out :=
  let p := s.proc (s.core core).host
  .next (match bestBy (fun n => (2 ^ 32 - 1 - fld 63 32 (p.slot n).regs.quantum) * 16 + n) (s.candidates core) with
    | none => s
    | some n => (s.modCore core fun c => { c with save := some n }).toSaving { lpn := (s.core core).host, slot := n })

/-- The record that brings a saved slot back (R383, R395). -/
def resumeRecord (n : Nat) (t : Slot) : Ready :=
  { rcd := Vector.ofFn fun i : Fin 8 => if i.val = 0 then w64 (t.level * 2 ^ 20 + 2 ^ 22) else 0,
    level := t.level, resume := some n, age := 0, aged := none }

/-- What is left of a SLEEP that waits (R396). -/
def Slot.sleepNow (now : Nat) (t : Slot) : Option Nat :=
  match t.wait with
  | some x => if x.kind == WaitKind.sleep then some (x.limit - (now - x.since)) else t.sleepLeft
  | none => t.sleepLeft

/-- The save itself: the Cocoon is written, the slot is absent and reserved, and its resume record is appended (R395). -/
def State.saveSlot (s : State) (core : Nat) (w : Who) : State :=
  let now := (s.proc w.lpn).time
  let s := s.cocoonSave w
  let s := s.modSlot w fun t =>
    { t with st := .absent, reserved := true, sleepLeft := t.sleepNow now, stage := none, fetch := [], grants := [],
             wait := none, resume := false, issued := none, arrived := false, sdesc := none, fence := [] }
  (s.modProc w.lpn fun p => { p with ready := p.ready ++ [resumeRecord w.slot (p.slot w.slot)] }).modCore core fun c =>
    { c with save := none }

/-- Goes on with a save, once the slot's chunks have committed, its landings have landed, its traps have been taken and no
refused message or unsent push is held (R146, R168, R276). -/
def State.goSave (s : State) (core : Nat) (w : Who) : State :=
  let s := s.endChunk w
  let t := s.slot w
  if !t.settled || t.arch.landing.any Landing.open then s
  else
    let s := s.modSlot w Slot.landAll
    let t := s.slot w
    if t.due.any fun d => !d.deferred then s.takeDue w
    else if !t.heldMsgs.isEmpty then s
    else if !t.pushq.isEmpty then (s.modSlot w fun t => { t with pushq := [] }).sendPushes w t.pushq
    else if !t.settled then s
    else s.saveSlot core w

/-- COCOON_SAVE_DONE: the save of a core completes as soon as it may; a slot that has ended is not saved (R395). -/
def execCocoonSaveDone (core : Nat) (s : State) : Out :=
  .next (match (s.core core).save with
    | none => s
    | some n =>
      let w : Who := { lpn := (s.core core).host, slot := n }
      let st := (s.slot w).st
      if st == SlotSt.absent || st == SlotSt.halted then s.modCore core fun c => { c with save := none }
      else if s.saveLater w then s
      else (s.toSaving w).goSave core w)

end Sys2Proof.Machine
end

