-- ==== Sys2Proof/Machine/Clock.lean ====
section
/-!
DEFINITION. The clocks (log 2): a core's cycle with its position and its issuer (07 R159 to R162), the rotation boundary (07
R159, 18 R385, 22 R417), what falls due in a cycle (18 R394, 23 R436, R439, 25 R469), and the network's cycle.
-/

namespace Sys2Proof.Machine

/-! ## Timers -/

/-- Does a clock count the cycles of a core that hosts a process? -/
def Clock.ofCore (core host : Nat) : Clock → Bool
  | .core c => c == core
  | .proc l => l == host
  | .network => false

/-- Is it the clock of the network? -/
def Clock.ofNetwork : Clock → Bool
  | .network => true
  | _ => false

/-- A timer after a cycle of its clock. -/
def Timer.down (p : Clock → Bool) (t : Timer) : Timer := if p t.clock then { t with left := t.left - 1 } else t

/-- Does a timer end with this cycle? -/
def Timer.ends (p : Clock → Bool) (t : Timer) : Bool := p t.clock && t.left ≤ 1

/-- The timers of a clock count down, and those that end put their events on the agenda, in order. -/
def State.tickTimers (s : State) (p : Clock → Bool) : State :=
  let due := (s.timers.filter (Timer.ends p)).map fun t => t.ev
  let keep := (s.timers.filter fun t => !(t.ends p)).map (Timer.down p)
  { s with timers := keep, agenda := s.agenda ++ due }

/-! ## The rotation boundary -/

/-- A starting slot enters the rotation, or is parked again (R159, R397). -/
def Slot.entered (t : Slot) : Slot :=
  if t.st == SlotSt.starting then { t with st := if t.park.isSome then .parked else .ready } else t

/-- The earliest queued packet that has a usable slot starts in it (R417). -/
def State.startQueued (s : State) (lpn : Nat) : State :=
  let p := s.proc lpn
  match p.arrq.find? fun c => (p.usable c.ctx.bound).isSome with
  | none => s
  | some c =>
    match p.usable c.ctx.bound with
    | none => s
    | some n => (s.modProc lpn fun p => { p with arrq := dropFirst (fun x => x == c) p.arrq }).startArrival lpn n c

/-- The take of a boundary with AUTO = 1 (R385). -/
def State.autoTake (s : State) (lpn : Nat) : State := if tb 0 (s.proc lpn).taskcfg then (s.take lpn).1 else s

/-- A core that a level-2 alarm stops: once its chunks have committed it freezes, and its engine operations stop (R335). -/
def State.alarmStop (s : State) (core : Nat) : State :=
  let lpn := (s.core core).host
  if !(s.proc lpn).alarm || (s.core core).swap.isSome then s
  else
    let s := forEach allSlots s fun s n => s.endChunk { lpn := lpn, slot := n }
    if !(allSlots.all fun n => (s.slot { lpn := lpn, slot := n }).settled) then s
    else
      let s := s.modProc lpn fun p => { p with alarm := false, mx := { p.mx with queue := p.mx.queue.map fun q => { q with halt := true } } }
      let s := s.modCore core fun c => { c with frzAlarm := true }
      let s := forEach ((s.core core).copies.filter fun c => c.stop.isNone) s fun s c => s.askStop c.id 8
      forEach [0, 1, 2, 3] s fun s n => s.endSoon core n 8

/-- What a rotation boundary does on a core (R159, R335, R385, R417, R129, R379). -/
def State.boundary (s : State) (core : Nat) : State :=
  if (s.core core).frozen || (s.core core).gated then s
  else
    let lpn := (s.core core).host
    let s := s.modProc lpn fun p => { p with slots := spMap p.slots fun _ t => t.entered }
    let s := if s.quiet core then s else (s.startQueued lpn).autoTake lpn
    let s := if s.latchReady core then s.post (.launchStart core) else s
    let s := s.alarmStop core
    if s.ckPhase == CkPhase.stop && core != Config.imago then s.ckStop core else s

/-- ROTATION_BOUNDARY: a cycle of a core at position 0 (R159). -/
def execRotationBoundary (core : Nat) (s : State) : Out :=
  .next (if (s.core core).cycle % 16 = 0 then s.boundary core else s)

/-! ## A core's cycle -/

/-- What the home position of a slot does to it: a cancelled thread is removed, a YIELD runs out, and a thread whose closing
window lacks its result waits (R159, R165, R174, R199). -/
def State.homePosition (s : State) (w : Who) : State :=
  let t := s.slot w
  if t.doomed then (if (s.core (s.hostOf w.lpn)).frozen then s else s.removeThread w)
  else
    let s := if t.yields = 0 then s else s.modSlot w fun t => { t with yields := t.yields - 1 }
    if t.st == SlotSt.ready && t.latch.isNone && !s.inSlice w && t.windowWaits t.arch.bno then s.startWait w .landing 0 0 fun _ => none
    else s

/-- May a slot issue at its partner's home position (R161)? -/
def State.mayBorrow (s : State) (w : Who) : Bool :=
  s.able w && (match (s.slot w).lastIssue with
    | some t => t + 8 ≤ (s.proc w.lpn).time
    | none => true)

/-- The slot that issues at the position of a core's cycle (R160, R161, R471). -/
def State.issuer (s : State) (core : Nat) : Option Who :=
  let c := s.core core
  let p := c.cycle % 16
  let home : Who := { lpn := c.host, slot := p }
  let partner : Who := { lpn := c.host, slot := (p + 8) % 16 }
  if s.quiet core || s.blanked core then none
  else if s.able home then some home
  else if s.mayBorrow partner then some partner
  else none

/-- RUN counts a cycle of a thread (R394). -/
def Slot.ran (t : Slot) : Slot :=
  if t.st == SlotSt.absent then t
  else { t with regs := { t.regs with quantum := setFld 63 32 (min (2 ^ 32 - 1) (fld 63 32 t.regs.quantum + 1)) t.regs.quantum } }

/-- A cycle of a process (log 2). -/
def Proc.tick (p : Proc) : Proc := { p with time := p.time + 1, slots := spMap p.slots fun _ t => t.ran }

/-- The idle count of a core (R469). -/
def State.countIdle (s : State) (core : Nat) : State :=
  if !s.gateable core then s.modCore core fun c => { c with idle := 0 }
  else
    let s := s.modCore core fun c => { c with idle := c.idle + 1 }
    if (s.core core).idle = 2 ^ 16 then s.post (.powerGate core) else s

/-- Events that fall in the cycle after this one: a selection or a save of a slot, and Flutter's sweep and proposal (R394,
R395, R436, R439). -/
def State.dueEvents (s : State) (core : Nat) : List Ev :=
  let c := s.core core
  let t := c.cycle + 1
  (if (s.candidates core).isEmpty then [] else [.preemptSelect core]) ++
  (if c.save.isSome && t % 16 == 0 then [.cocoonSaveDone core] else []) ++
  (if t % 2 ^ fld 12 8 c.anperiod == 0 then [.flutterSweep core] else []) ++
  (if t % 2 ^ fld 4 0 c.anperiod == 0 then [.flutterPropose core] else [])

/-- The end of a core's cycle: what counts cycles counts it. -/
def State.closeCycle (s : State) (core : Nat) : State :=
  let s := s.modProc (s.core core).host Proc.tick
  let s := s.postAll (s.dueEvents core)
  (s.countIdle core).modCore core fun c => { c with cycle := c.cycle + 1 }

/-- The start of a core's cycle: its timers, the boundary, and the slot whose home position it is. -/
def State.openCycle (s : State) (core : Nat) : State :=
  let c := s.core core
  let s := s.tickTimers (Clock.ofCore core c.host)
  let s := if c.cycle % 16 = 0 then s.boundary core else s
  s.homePosition { lpn := (s.core core).host, slot := c.cycle % 16 }

/-- One cycle of a core: at its position at most one slot issues one bundle (R160). -/
def State.coreCycle (s : State) (core : Nat) : State :=
  let s := s.openCycle core
  (match s.issuer core with
    | some w => s.issue w
    | none => s).closeCycle core

/-! ## The network's cycle -/

/-- What falls due in a cycle of the 2.0 GHz clock beside the refills: the scrub of every slice, a dispatch, and the end of a power
interval (R102, R378, R475). -/
def State.networkEvents (s : State) (n : Nat) : List Ev :=
  (if n % 64 == 0 then s.slices.map fun x => .maskScrub x.1 else []) ++
  (if n % 64 == 0 && s.ckPhase == CkPhase.idle && (s.dqs.any fun q => q.2.holds) then [.dispatch] else []) ++
  (if n % 2 ^ 20 == 0 then [.powerInterval] else [])

/-- One cycle of the network's clock; every 1,024 of them the buckets of every slice are refilled (R104). -/
def State.networkCycle (s : State) : State :=
  let n := s.clk + 1
  let s := s.tickTimers Clock.ofNetwork
  let s := { s with clk := n }.postAll (s.networkEvents n)
  if n % 1024 == 0 then s.refillAll else s

/-- The next cycle: that of the next powered core in turn, or, after the last one, of the network (log 2). -/
def State.cycle (s : State) : State :=
  match s.liveCores.find? fun c => s.turn ≤ c && !(s.core c).gated with
  | some c => { s.coreCycle c with turn := c + 1 }
  | none => { s.networkCycle with turn := 0 }

end Sys2Proof.Machine
end

