-- ==== Sys2Proof/Machine/Agenda.lean ====
section
/-!
DEFINITION. The event of the agenda's head: one call of the meaning that the event's row has in `exec` (log 2).
-/

namespace Sys2Proof.Machine

/-- The meaning of an event. -/
def runEv (e : Ev) (s : State) : Out :=
  match e with
  | .gangStart row => execGangStart row s
  | .ganglimExpiry lpn slot id => execGanglimExpiry lpn slot id s
  | .tlbiInvalidate core => execTlbiInvalidate core s
  | .tlbiDone lpn slot => execTlbiDone lpn slot s
  | .bundleIssue core slot => execBundleIssue core slot s
  | .rotationBoundary core => execRotationBoundary core s
  | .landingResult id => execLandingResult id s
  | .remoteReply id => execRemoteReply id s
  | .timingReplay lpn slot => execTimingReplay lpn slot s
  | .egressLatchRelease core => execEgressLatchRelease core s
  | .chunkCommit lpn slot => execChunkCommit lpn slot s
  | .domainAcquire dom lpn slot => execDomainAcquire dom lpn slot s
  | .domainApply dom lpn slot => execDomainApply dom lpn slot s
  | .pinWaitLimit lpn slot => execPinWaitLimit lpn slot s
  | .engineElementWrite id => execEngineElementWrite id s
  | .engineElementRead id => execEngineElementRead id s
  | .engineCompletion id => execEngineCompletion id s
  | .inboxEntryPlace lpn => execInboxEntryPlace lpn s
  | .remoteRequest id => execRemoteRequest id s
  | .refusalArrival id => execRefusalArrival id s
  | .fullEmptyService lpn off => execFullEmptyService lpn off s
  | .waitListRetry lpn slot => execWaitListRetry lpn slot s
  | .busyReissue lpn slot => execBusyReissue lpn slot s
  | .waitlimExpiry lpn slot id => execWaitlimExpiry lpn slot id s
  | .waitWithdrawal id => execWaitWithdrawal id s
  | .barlimExpiry lpn slot id => execBarlimExpiry lpn slot id s
  | .segStageWrite n v => execSegStageWrite n v s
  | .segCommit n v => execSegCommit n v s
  | .coretagWrite v => execCoretagWrite v s
  | .xrootWrite v => execXrootWrite v s
  | .lmmapWrite v => execLmmapWrite v s
  | .pageWalk row => execPageWalk row s
  | .parkedAnswer seq inv => execParkedAnswer seq inv s
  | .stashFillReply id => execStashFillReply id s
  | .stashInvalidate core sec => execStashInvalidate core sec s
  | .stashRecall core sec inv => execStashRecall core sec inv s
  | .stashRevoke core sec => execStashRevoke core sec s
  | .exclusiveGrant core sec => execExclusiveGrant core sec s
  | .l2FillRequest id => execL2FillRequest id s
  | .l2OwnershipRequest id => execL2OwnershipRequest id s
  | .l2DropNotice id => execL2DropNotice id s
  | .l2Writeback id => execL2Writeback id s
  | .l2InvalidateAck id => execL2InvalidateAck id s
  | .l2Atomic id => execL2Atomic id s
  | .omegaCombine first second => execOmegaCombine first second s
  | .combineSplit id => execCombineSplit id s
  | .tileRequest id => execTileRequest id s
  | .tileMergeClose slice line => execTileMergeClose slice line s
  | .tilePinRelease core line => execTilePinRelease core line s
  | .maskScrub slice => execMaskScrub slice s
  | .bucketRefill slice => execBucketRefill slice s
  | .tokenRetry slice => execTokenRetry slice s
  | .l2partWrite vmid v => execL2partWrite vmid v s
  | .l2bwWrite vmid v => execL2bwWrite vmid v s
  | .l2statClear => execL2statClear s
  | .s2Translate id => execS2Translate id s
  | .s2UpgradeCheck id => execS2UpgradeCheck id s
  | .s2BlockedRetry id => execS2BlockedRetry id s
  | .mscFill id => execMscFill id s
  | .mscWriteback id => execMscWriteback id s
  | .mscNonallocWrite id => execMscNonallocWrite id s
  | .controllerFillReturn id lost => execControllerFillReturn id lost s
  | .psnansRepaired seq => execPsnansRepaired seq s
  | .psnansLost seq => execPsnansLost seq s
  | .repairTimeout seq => execRepairTimeout seq s
  | .pgblkBlock v => execPgblkBlock v s
  | .pgblkAbandon v => execPgblkAbandon v s
  | .pageDrainDone block => execPageDrainDone block s
  | .pageCopyStart v => execPageCopyStart v s
  | .pageCopyDone => execPageCopyDone s
  | .checkpointStart => execCheckpointStart s
  | .powerFailInput => execPowerFailInput s
  | .checkpointFlush => execCheckpointFlush s
  | .checkpointCopy => execCheckpointCopy s
  | .checkpointSeal => execCheckpointSeal s
  | .launchComplete id => execLaunchComplete id s
  | .messageArrive id => execMessageArrive id s
  | .skipNoticeArrive id => execSkipNoticeArrive id s
  | .messageAck id => execMessageAck id s
  | .messageRefused id => execMessageRefused id s
  | .messageReoffer lpn slot => execMessageReoffer lpn slot s
  | .skipNoticeReoffer id => execSkipNoticeReoffer id s
  | .sendlimExpiry lpn slot id => execSendlimExpiry lpn slot id s
  | .placementUpdate core lpn host => execPlacementUpdate core lpn host s
  | .userInterruptDeliver lpn slot => execUserInterruptDeliver lpn slot s
  | .mailboxService lpn n => execMailboxService lpn n s
  | .streamReadAhead core n => execStreamReadAhead core n s
  | .doorbellWrite queue v => execDoorbellWrite queue v s
  | .doorbellHeadRead queue => execDoorbellHeadRead queue s
  | .dqptrWrite v => execDqptrWrite v s
  | .dispatch => execDispatch s
  | .depReread queue => execDepReread queue s
  | .taskRecordRetry queue => execTaskRecordRetry queue s
  | .remoteLaunchRecord rec_ job vmid root lid pg => execRemoteLaunchRecord rec_ job vmid root lid pg s
  | .launchWake id => execLaunchWake id s
  | .launchStart core => execLaunchStart core s
  | .preemptSelect core => execPreemptSelect core s
  | .cocoonSaveDone core => execCocoonSaveDone core s
  | .continuationRetry lpn => execContinuationRetry lpn s
  | .tpostRetry lpn slot => execTpostRetry lpn slot s
  | .sleepExpiry lpn slot id => execSleepExpiry lpn slot id s
  | .carryPacketArrive id => execCarryPacketArrive id s
  | .carryAck id => execCarryAck id s
  | .carryRefused id => execCarryRefused id s
  | .carryReoffer id => execCarryReoffer id s
  | .fieldcfgWrite v => execFieldcfgWrite v s
  | .fieldStepNotice core owner gen => execFieldStepNotice core owner gen s
  | .fieldResidentCount core src n => execFieldResidentCount core src n s
  | .fieldHandover core => execFieldHandover core s
  | .fieldSnapshot core => execFieldSnapshot core s
  | .fieldHaloCopy core src => execFieldHaloCopy core src s
  | .fieldStepRelease owner => execFieldStepRelease owner s
  | .placementLookup core lpn => execPlacementLookup core lpn s
  | .forwardItem id core => execForwardItem id core s
  | .flutterSweep core => execFlutterSweep core s
  | .weightReport id => execWeightReport id s
  | .flutterPropose core => execFlutterPropose core s
  | .proposalAnswer core src => execProposalAnswer core src s
  | .proposalDecide core => execProposalDecide core s
  | .decisionReceive core => execDecisionReceive core s
  | .swapFreeze x y => execSwapFreeze x y s
  | .swapMove x y => execSwapMove x y s
  | .swapFlip x y => execSwapFlip x y s
  | .swapResume x y => execSwapResume x y s
  | .placementInvalidate core lpn => execPlacementInvalidate core lpn s
  | .forwardRetire core lpn => execForwardRetire core lpn s
  | .bar2Access vf addr wr v => execBar2Access vf addr wr v s
  | .hostWindowCompletion id ok v => execHostWindowCompletion id ok v s
  | .bronexAuthFail link => execBronexAuthFail link s
  | .bronexLinkFail link => execBronexLinkFail link s
  | .routeWaitTimeout id => execRouteWaitTimeout id s
  | .powerGate core => execPowerGate core s
  | .coreWake core => execCoreWake core s
  | .thermalRunaway row => execThermalRunaway row s
  | .powerInterval => execPowerInterval s
  | .voltageGlitch => execVoltageGlitch s
  | .clockGlitch => execClockGlitch s
  | .tamperLoopOpen => execTamperLoopOpen s
  | .chrysalisAlarm src tenants => execChrysalisAlarm src tenants s
  | .chalcfgWrite v => execChalcfgWrite v s
  | .challogClear => execChallogClear s
  | .attestationReport nonce => execAttestationReport nonce s
  | .chrysalisBoot sigOk version hash => execChrysalisBoot sigOk version hash s
  | .reset => execReset s
  | .stopByLomter lpn slot => execStopByLomter lpn slot s
  | .slotRestart lpn slot release => execSlotRestart lpn slot release s
  | .thaw core => execThaw core s
  | .jobEnd job => execJobEnd job s
  | .bronexLinkUp link domain => execBronexLinkUp link domain s
  | .rowSensorReading row temp pwr => execRowSensorReading row temp pwr s

/-- What a step does: the event at the head of the agenda, or, when none is due, the next cycle in turn. A module that a level-3
alarm has stopped answers nothing until reset (R335; log 2). -/
def State.advance1 (s : State) : Out :=
  if s.stopped && !(s.agenda.contains Ev.reset) then .fault .moduleStopped
  else match s.agenda with
    | e :: l => runEv e { s with agenda := l }
    | [] => .next s.cycle

/-! ## Placing a word from outside (log 3) -/

/-- A slot that is ready to issue the bundle at an offset; its registers are at their reset values. -/
def Slot.readyAt (pc : Nat) : Slot := { Slot.init with st := .ready, arch := { Arch.init with pc := BitVec.ofNat 20 pc } }

/-- Offset at which a placed word stands: the first of the image region (R59). -/
def placedAt : Nat := 0x4000

/-- The machine with one bundle stored in the local memory of the process on core 0, and that process's slot 0 ready to issue it
in the next step: no event is due, core 0 is at its position 0 and issues (log 3). -/
def State.placeBundle (s : State) (v : W64) : State :=
  let lpn := (s.core 0).host
  let s := s.modProc lpn fun p =>
    { p with core := 0, slots := [(0, Slot.readyAt placedAt)], alarm := false, arrq := [], ready := [],
             mx := { p.mx with queue := p.mx.queue.filter fun q => q.who.slot != 0 } }
  let s := s.modCore 0 fun c =>
    { c with cycle := 16 * s.rowStep 0, frzSwap := false, frzCkpt := false, frzAlarm := false, gated := false, swap := none, save := none,
             latch := none }
  { s.hwWrite lpn placedAt v with agenda := [], timers := [], turn := 0, stopped := false, ckPhase := .idle }

end Sys2Proof.Machine
end

