-- ==== Sys2Proof/Machine/Dispatch.lean ====
section
/-!
DEFINITION. One arm per instruction of the opcode table, each one call of its meaning.
-/

namespace Sys2Proof.Machine

def exec (i : Instr) (s : State) : Host.Outcome State Fault Refusal :=
  match i with
  | .nop r => Sys2Proof.Machine.execNop r s
  | .halt r => Sys2Proof.Machine.execHalt r s
  | .yield r => Sys2Proof.Machine.execYield r s
  | .br r => Sys2Proof.Machine.execBr r s
  | .jmp r => Sys2Proof.Machine.execJmp r s
  | .call r => Sys2Proof.Machine.execCall r s
  | .jr r => Sys2Proof.Machine.execJr r s
  | .loop r => Sys2Proof.Machine.execLoop r s
  | .loopi r => Sys2Proof.Machine.execLoopi r s
  | .ldB r => Sys2Proof.Machine.execLdB r s
  | .ldH r => Sys2Proof.Machine.execLdH r s
  | .ldW r => Sys2Proof.Machine.execLdW r s
  | .ldD r => Sys2Proof.Machine.execLdD r s
  | .ldsB r => Sys2Proof.Machine.execLdsB r s
  | .ldsH r => Sys2Proof.Machine.execLdsH r s
  | .ldsW r => Sys2Proof.Machine.execLdsW r s
  | .st r => Sys2Proof.Machine.execSt r s
  | .ldx r => Sys2Proof.Machine.execLdx r s
  | .stx r => Sys2Proof.Machine.execStx r s
  | .ldsync r => Sys2Proof.Machine.execLdsync r s
  | .ldff r => Sys2Proof.Machine.execLdff r s
  | .stsync r => Sys2Proof.Machine.execStsync r s
  | .stfill r => Sys2Proof.Machine.execStfill r s
  | .sete r => Sys2Proof.Machine.execSete r s
  | .afaa r => Sys2Proof.Machine.execAfaa r s
  | .axchg r => Sys2Proof.Machine.execAxchg r s
  | .acas r => Sys2Proof.Machine.execAcas r s
  | .amin r => Sys2Proof.Machine.execAmin r s
  | .amax r => Sys2Proof.Machine.execAmax r s
  | .aminu r => Sys2Proof.Machine.execAminu r s
  | .amaxu r => Sys2Proof.Machine.execAmaxu r s
  | .aand r => Sys2Proof.Machine.execAand r s
  | .aor r => Sys2Proof.Machine.execAor r s
  | .afaaN r => Sys2Proof.Machine.execAfaaN r s
  | .axchgN r => Sys2Proof.Machine.execAxchgN r s
  | .acasN r => Sys2Proof.Machine.execAcasN r s
  | .aminN r => Sys2Proof.Machine.execAminN r s
  | .amaxN r => Sys2Proof.Machine.execAmaxN r s
  | .aminuN r => Sys2Proof.Machine.execAminuN r s
  | .amaxuN r => Sys2Proof.Machine.execAmaxuN r s
  | .aandN r => Sys2Proof.Machine.execAandN r s
  | .aorN r => Sys2Proof.Machine.execAorN r s
  | .spin r => Sys2Proof.Machine.execSpin r s
  | .sflush r => Sys2Proof.Machine.execSflush r s
  | .sinv r => Sys2Proof.Machine.execSinv r s
  | .pref r => Sys2Proof.Machine.execPref r s
  | .fenceH r => Sys2Proof.Machine.execFenceH r s
  | .fenceE r => Sys2Proof.Machine.execFenceE r s
  | .fenceP r => Sys2Proof.Machine.execFenceP r s
  | .chunk r => Sys2Proof.Machine.execChunk r s
  | .iflush r => Sys2Proof.Machine.execIflush r s
  | .send r => Sys2Proof.Machine.execSend r s
  | .recv r => Sys2Proof.Machine.execRecv r s
  | .peek r => Sys2Proof.Machine.execPeek r s
  | .chstat r => Sys2Proof.Machine.execChstat r s
  | .waitm r => Sys2Proof.Machine.execWaitm r s
  | .waitmI r => Sys2Proof.Machine.execWaitmI r s
  | .inb r => Sys2Proof.Machine.execInb r s
  | .msgmask r => Sys2Proof.Machine.execMsgmask r s
  | .retu r => Sys2Proof.Machine.execRetu r s
  | .spawn r => Sys2Proof.Machine.execSpawn r s
  | .tnext r => Sys2Proof.Machine.execTnext r s
  | .tpost r => Sys2Proof.Machine.execTpost r s
  | .retj r => Sys2Proof.Machine.execRetj r s
  | .sleep r => Sys2Proof.Machine.execSleep r s
  | .barw r => Sys2Proof.Machine.execBarw r s
  | .bara r => Sys2Proof.Machine.execBara r s
  | .barcfg r => Sys2Proof.Machine.execBarcfg r s
  | .cancelL r => Sys2Proof.Machine.execCancelL r s
  | .cancelG r => Sys2Proof.Machine.execCancelG r s
  | .cancelJ r => Sys2Proof.Machine.execCancelJ r s
  | .bcopy r => Sys2Proof.Machine.execBcopy r s
  | .strm r => Sys2Proof.Machine.execStrm r s
  | .strmx r => Sys2Proof.Machine.execStrmx r s
  | .mbw r => Sys2Proof.Machine.execMbw r s
  | .mbr r => Sys2Proof.Machine.execMbr r s
  | .mcfg r => Sys2Proof.Machine.execMcfg r s
  | .mzero r => Sys2Proof.Machine.execMzero r s
  | .mma r => Sys2Proof.Machine.execMma r s
  | .mend r => Sys2Proof.Machine.execMend r s
  | .msto r => Sys2Proof.Machine.execMsto r s
  | .mstat r => Sys2Proof.Machine.execMstat r s
  | .gangStart row => Sys2Proof.Machine.execGangStart row s
  | .ganglimExpiry lpn slot id => Sys2Proof.Machine.execGanglimExpiry lpn slot id s
  | .setpos r => Sys2Proof.Machine.execSetpos r s
  | .getpos r => Sys2Proof.Machine.execGetpos r s
  | .publ r => Sys2Proof.Machine.execPubl r s
  | .neigh r => Sys2Proof.Machine.execNeigh r s
  | .nextn r => Sys2Proof.Machine.execNextn r s
  | .migr r => Sys2Proof.Machine.execMigr r s
  | .whereIs r => Sys2Proof.Machine.execWhere r s
  | .anchor r => Sys2Proof.Machine.execAnchor r s
  | .peer r => Sys2Proof.Machine.execPeer r s
  | .sysr r => Sys2Proof.Machine.execSysr r s
  | .sysw r => Sys2Proof.Machine.execSysw r s
  | .tlbiVa r => Sys2Proof.Machine.execTlbiVa r s
  | .tlbiJob r => Sys2Proof.Machine.execTlbiJob r s
  | .tlbiVm r => Sys2Proof.Machine.execTlbiVm r s
  | .tlbiGpa r => Sys2Proof.Machine.execTlbiGpa r s
  | .tlbiAll r => Sys2Proof.Machine.execTlbiAll r s
  | .tlbiInvalidate core => Sys2Proof.Machine.execTlbiInvalidate core s
  | .tlbiDone lpn slot => Sys2Proof.Machine.execTlbiDone lpn slot s
  | .svc r => Sys2Proof.Machine.execSvc r s
  | .eret r => Sys2Proof.Machine.execEret r s
  | .wake r => Sys2Proof.Machine.execWake r s
  | .add r => Sys2Proof.Machine.execAdd r s
  | .sub r => Sys2Proof.Machine.execSub r s
  | .mul r => Sys2Proof.Machine.execMul r s
  | .mulh r => Sys2Proof.Machine.execMulh r s
  | .mulhu r => Sys2Proof.Machine.execMulhu r s
  | .div r => Sys2Proof.Machine.execDiv r s
  | .divu r => Sys2Proof.Machine.execDivu r s
  | .rem r => Sys2Proof.Machine.execRem r s
  | .remu r => Sys2Proof.Machine.execRemu r s
  | .and r => Sys2Proof.Machine.execAnd r s
  | .or r => Sys2Proof.Machine.execOr r s
  | .xor r => Sys2Proof.Machine.execXor r s
  | .andn r => Sys2Proof.Machine.execAndn r s
  | .shl r => Sys2Proof.Machine.execShl r s
  | .shr r => Sys2Proof.Machine.execShr r s
  | .sar r => Sys2Proof.Machine.execSar r s
  | .ror r => Sys2Proof.Machine.execRor r s
  | .min r => Sys2Proof.Machine.execMin r s
  | .max r => Sys2Proof.Machine.execMax r s
  | .minu r => Sys2Proof.Machine.execMinu r s
  | .maxu r => Sys2Proof.Machine.execMaxu r s
  | .clz r => Sys2Proof.Machine.execClz r s
  | .ctz r => Sys2Proof.Machine.execCtz r s
  | .popc r => Sys2Proof.Machine.execPopc r s
  | .extr r => Sys2Proof.Machine.execExtr r s
  | .insr r => Sys2Proof.Machine.execInsr r s
  | .addi r => Sys2Proof.Machine.execAddi r s
  | .andi r => Sys2Proof.Machine.execAndi r s
  | .ori r => Sys2Proof.Machine.execOri r s
  | .xori r => Sys2Proof.Machine.execXori r s
  | .shli r => Sys2Proof.Machine.execShli r s
  | .shri r => Sys2Proof.Machine.execShri r s
  | .sari r => Sys2Proof.Machine.execSari r s
  | .rori r => Sys2Proof.Machine.execRori r s
  | .movi r => Sys2Proof.Machine.execMovi r s
  | .movh r => Sys2Proof.Machine.execMovh r s
  | .cmp r => Sys2Proof.Machine.execCmp r s
  | .cmpi r => Sys2Proof.Machine.execCmpi r s
  | .pand r => Sys2Proof.Machine.execPand r s
  | .pandn r => Sys2Proof.Machine.execPandn r s
  | .por r => Sys2Proof.Machine.execPor r s
  | .pxor r => Sys2Proof.Machine.execPxor r s
  | .pnot r => Sys2Proof.Machine.execPnot r s
  | .rdpw r => Sys2Proof.Machine.execRdpw r s
  | .wrpw r => Sys2Proof.Machine.execWrpw r s
  | .sel r => Sys2Proof.Machine.execSel r s
  | .vadd r => Sys2Proof.Machine.execVadd r s
  | .vadds r => Sys2Proof.Machine.execVadds r s
  | .vsub r => Sys2Proof.Machine.execVsub r s
  | .vsubs r => Sys2Proof.Machine.execVsubs r s
  | .vmul r => Sys2Proof.Machine.execVmul r s
  | .vmulh r => Sys2Proof.Machine.execVmulh r s
  | .vmin r => Sys2Proof.Machine.execVmin r s
  | .vmax r => Sys2Proof.Machine.execVmax r s
  | .vavg r => Sys2Proof.Machine.execVavg r s
  | .vabsd r => Sys2Proof.Machine.execVabsd r s
  | .vshl r => Sys2Proof.Machine.execVshl r s
  | .vshr r => Sys2Proof.Machine.execVshr r s
  | .vcmpeq r => Sys2Proof.Machine.execVcmpeq r s
  | .vcmpgt r => Sys2Proof.Machine.execVcmpgt r s
  | .vsplat r => Sys2Proof.Machine.execVsplat r s
  | .vpack r => Sys2Proof.Machine.execVpack r s
  | .vunpk r => Sys2Proof.Machine.execVunpk r s
  | .fadd r => Sys2Proof.Machine.execFadd r s
  | .fsub r => Sys2Proof.Machine.execFsub r s
  | .fmul r => Sys2Proof.Machine.execFmul r s
  | .fdiv r => Sys2Proof.Machine.execFdiv r s
  | .fsqrt r => Sys2Proof.Machine.execFsqrt r s
  | .fmin r => Sys2Proof.Machine.execFmin r s
  | .fmax r => Sys2Proof.Machine.execFmax r s
  | .fma r => Sys2Proof.Machine.execFma r s
  | .fneg r => Sys2Proof.Machine.execFneg r s
  | .fabs r => Sys2Proof.Machine.execFabs r s
  | .fcmp r => Sys2Proof.Machine.execFcmp r s
  | .fclass r => Sys2Proof.Machine.execFclass r s
  | .fcvt r => Sys2Proof.Machine.execFcvt r s
  | .bundleIssue core slot => Sys2Proof.Machine.execBundleIssue core slot s
  | .rotationBoundary core => Sys2Proof.Machine.execRotationBoundary core s
  | .landingResult id => Sys2Proof.Machine.execLandingResult id s
  | .remoteReply id => Sys2Proof.Machine.execRemoteReply id s
  | .timingReplay lpn slot => Sys2Proof.Machine.execTimingReplay lpn slot s
  | .egressLatchRelease core => Sys2Proof.Machine.execEgressLatchRelease core s
  | .chunkCommit lpn slot => Sys2Proof.Machine.execChunkCommit lpn slot s
  | .domainAcquire dom lpn slot => Sys2Proof.Machine.execDomainAcquire dom lpn slot s
  | .domainApply dom lpn slot => Sys2Proof.Machine.execDomainApply dom lpn slot s
  | .pinWaitLimit lpn slot => Sys2Proof.Machine.execPinWaitLimit lpn slot s
  | .engineElementWrite id => Sys2Proof.Machine.execEngineElementWrite id s
  | .engineElementRead id => Sys2Proof.Machine.execEngineElementRead id s
  | .engineCompletion id => Sys2Proof.Machine.execEngineCompletion id s
  | .inboxEntryPlace lpn => Sys2Proof.Machine.execInboxEntryPlace lpn s
  | .remoteRequest id => Sys2Proof.Machine.execRemoteRequest id s
  | .refusalArrival id => Sys2Proof.Machine.execRefusalArrival id s
  | .fullEmptyService lpn off => Sys2Proof.Machine.execFullEmptyService lpn off s
  | .waitListRetry lpn slot => Sys2Proof.Machine.execWaitListRetry lpn slot s
  | .busyReissue lpn slot => Sys2Proof.Machine.execBusyReissue lpn slot s
  | .waitlimExpiry lpn slot id => Sys2Proof.Machine.execWaitlimExpiry lpn slot id s
  | .waitWithdrawal id => Sys2Proof.Machine.execWaitWithdrawal id s
  | .barlimExpiry lpn slot id => Sys2Proof.Machine.execBarlimExpiry lpn slot id s
  | .segStageWrite n v => Sys2Proof.Machine.execSegStageWrite n v s
  | .segCommit n v => Sys2Proof.Machine.execSegCommit n v s
  | .coretagWrite v => Sys2Proof.Machine.execCoretagWrite v s
  | .xrootWrite v => Sys2Proof.Machine.execXrootWrite v s
  | .lmmapWrite v => Sys2Proof.Machine.execLmmapWrite v s
  | .pageWalk row => Sys2Proof.Machine.execPageWalk row s
  | .parkedAnswer seq inv => Sys2Proof.Machine.execParkedAnswer seq inv s
  | .stashFillReply id => Sys2Proof.Machine.execStashFillReply id s
  | .stashInvalidate core sec => Sys2Proof.Machine.execStashInvalidate core sec s
  | .stashRecall core sec inv => Sys2Proof.Machine.execStashRecall core sec inv s
  | .stashRevoke core sec => Sys2Proof.Machine.execStashRevoke core sec s
  | .exclusiveGrant core sec => Sys2Proof.Machine.execExclusiveGrant core sec s
  | .l2FillRequest id => Sys2Proof.Machine.execL2FillRequest id s
  | .l2OwnershipRequest id => Sys2Proof.Machine.execL2OwnershipRequest id s
  | .l2DropNotice id => Sys2Proof.Machine.execL2DropNotice id s
  | .l2Writeback id => Sys2Proof.Machine.execL2Writeback id s
  | .l2InvalidateAck id => Sys2Proof.Machine.execL2InvalidateAck id s
  | .l2Atomic id => Sys2Proof.Machine.execL2Atomic id s
  | .omegaCombine first second => Sys2Proof.Machine.execOmegaCombine first second s
  | .combineSplit id => Sys2Proof.Machine.execCombineSplit id s
  | .tileRequest id => Sys2Proof.Machine.execTileRequest id s
  | .tileMergeClose slice line => Sys2Proof.Machine.execTileMergeClose slice line s
  | .tilePinRelease core line => Sys2Proof.Machine.execTilePinRelease core line s
  | .maskScrub slice => Sys2Proof.Machine.execMaskScrub slice s
  | .bucketRefill slice => Sys2Proof.Machine.execBucketRefill slice s
  | .tokenRetry slice => Sys2Proof.Machine.execTokenRetry slice s
  | .l2partWrite vmid v => Sys2Proof.Machine.execL2partWrite vmid v s
  | .l2bwWrite vmid v => Sys2Proof.Machine.execL2bwWrite vmid v s
  | .l2statClear => Sys2Proof.Machine.execL2statClear s
  | .s2Translate id => Sys2Proof.Machine.execS2Translate id s
  | .s2UpgradeCheck id => Sys2Proof.Machine.execS2UpgradeCheck id s
  | .s2BlockedRetry id => Sys2Proof.Machine.execS2BlockedRetry id s
  | .mscFill id => Sys2Proof.Machine.execMscFill id s
  | .mscWriteback id => Sys2Proof.Machine.execMscWriteback id s
  | .mscNonallocWrite id => Sys2Proof.Machine.execMscNonallocWrite id s
  | .controllerFillReturn id lost => Sys2Proof.Machine.execControllerFillReturn id lost s
  | .psnansRepaired seq => Sys2Proof.Machine.execPsnansRepaired seq s
  | .psnansLost seq => Sys2Proof.Machine.execPsnansLost seq s
  | .repairTimeout seq => Sys2Proof.Machine.execRepairTimeout seq s
  | .pgblkBlock v => Sys2Proof.Machine.execPgblkBlock v s
  | .pgblkAbandon v => Sys2Proof.Machine.execPgblkAbandon v s
  | .pageDrainDone block => Sys2Proof.Machine.execPageDrainDone block s
  | .pageCopyStart v => Sys2Proof.Machine.execPageCopyStart v s
  | .pageCopyDone => Sys2Proof.Machine.execPageCopyDone s
  | .checkpointStart => Sys2Proof.Machine.execCheckpointStart s
  | .powerFailInput => Sys2Proof.Machine.execPowerFailInput s
  | .checkpointFlush => Sys2Proof.Machine.execCheckpointFlush s
  | .checkpointCopy => Sys2Proof.Machine.execCheckpointCopy s
  | .checkpointSeal => Sys2Proof.Machine.execCheckpointSeal s
  | .launchComplete id => Sys2Proof.Machine.execLaunchComplete id s
  | .messageArrive id => Sys2Proof.Machine.execMessageArrive id s
  | .skipNoticeArrive id => Sys2Proof.Machine.execSkipNoticeArrive id s
  | .messageAck id => Sys2Proof.Machine.execMessageAck id s
  | .messageRefused id => Sys2Proof.Machine.execMessageRefused id s
  | .messageReoffer lpn slot => Sys2Proof.Machine.execMessageReoffer lpn slot s
  | .skipNoticeReoffer id => Sys2Proof.Machine.execSkipNoticeReoffer id s
  | .sendlimExpiry lpn slot id => Sys2Proof.Machine.execSendlimExpiry lpn slot id s
  | .placementUpdate core lpn host => Sys2Proof.Machine.execPlacementUpdate core lpn host s
  | .userInterruptDeliver lpn slot => Sys2Proof.Machine.execUserInterruptDeliver lpn slot s
  | .mailboxService lpn n => Sys2Proof.Machine.execMailboxService lpn n s
  | .streamReadAhead core n => Sys2Proof.Machine.execStreamReadAhead core n s
  | .doorbellWrite queue v => Sys2Proof.Machine.execDoorbellWrite queue v s
  | .doorbellHeadRead queue => Sys2Proof.Machine.execDoorbellHeadRead queue s
  | .dqptrWrite v => Sys2Proof.Machine.execDqptrWrite v s
  | .dispatch => Sys2Proof.Machine.execDispatch s
  | .depReread queue => Sys2Proof.Machine.execDepReread queue s
  | .taskRecordRetry queue => Sys2Proof.Machine.execTaskRecordRetry queue s
  | .remoteLaunchRecord rec_ job vmid root lid pg => Sys2Proof.Machine.execRemoteLaunchRecord rec_ job vmid root lid pg s
  | .launchWake id => Sys2Proof.Machine.execLaunchWake id s
  | .launchStart core => Sys2Proof.Machine.execLaunchStart core s
  | .preemptSelect core => Sys2Proof.Machine.execPreemptSelect core s
  | .cocoonSaveDone core => Sys2Proof.Machine.execCocoonSaveDone core s
  | .continuationRetry lpn => Sys2Proof.Machine.execContinuationRetry lpn s
  | .tpostRetry lpn slot => Sys2Proof.Machine.execTpostRetry lpn slot s
  | .sleepExpiry lpn slot id => Sys2Proof.Machine.execSleepExpiry lpn slot id s
  | .carryPacketArrive id => Sys2Proof.Machine.execCarryPacketArrive id s
  | .carryAck id => Sys2Proof.Machine.execCarryAck id s
  | .carryRefused id => Sys2Proof.Machine.execCarryRefused id s
  | .carryReoffer id => Sys2Proof.Machine.execCarryReoffer id s
  | .fieldcfgWrite v => Sys2Proof.Machine.execFieldcfgWrite v s
  | .fieldStepNotice core owner gen => Sys2Proof.Machine.execFieldStepNotice core owner gen s
  | .fieldResidentCount core src n => Sys2Proof.Machine.execFieldResidentCount core src n s
  | .fieldHandover core => Sys2Proof.Machine.execFieldHandover core s
  | .fieldSnapshot core => Sys2Proof.Machine.execFieldSnapshot core s
  | .fieldHaloCopy core src => Sys2Proof.Machine.execFieldHaloCopy core src s
  | .fieldStepRelease owner => Sys2Proof.Machine.execFieldStepRelease owner s
  | .placementLookup core lpn => Sys2Proof.Machine.execPlacementLookup core lpn s
  | .forwardItem id core => Sys2Proof.Machine.execForwardItem id core s
  | .flutterSweep core => Sys2Proof.Machine.execFlutterSweep core s
  | .weightReport id => Sys2Proof.Machine.execWeightReport id s
  | .flutterPropose core => Sys2Proof.Machine.execFlutterPropose core s
  | .proposalAnswer core src => Sys2Proof.Machine.execProposalAnswer core src s
  | .proposalDecide core => Sys2Proof.Machine.execProposalDecide core s
  | .decisionReceive core => Sys2Proof.Machine.execDecisionReceive core s
  | .swapFreeze x y => Sys2Proof.Machine.execSwapFreeze x y s
  | .swapMove x y => Sys2Proof.Machine.execSwapMove x y s
  | .swapFlip x y => Sys2Proof.Machine.execSwapFlip x y s
  | .swapResume x y => Sys2Proof.Machine.execSwapResume x y s
  | .placementInvalidate core lpn => Sys2Proof.Machine.execPlacementInvalidate core lpn s
  | .forwardRetire core lpn => Sys2Proof.Machine.execForwardRetire core lpn s
  | .bar2Access vf addr wr v => Sys2Proof.Machine.execBar2Access vf addr wr v s
  | .hostWindowCompletion id ok v => Sys2Proof.Machine.execHostWindowCompletion id ok v s
  | .bronexAuthFail link => Sys2Proof.Machine.execBronexAuthFail link s
  | .bronexLinkFail link => Sys2Proof.Machine.execBronexLinkFail link s
  | .routeWaitTimeout id => Sys2Proof.Machine.execRouteWaitTimeout id s
  | .powerGate core => Sys2Proof.Machine.execPowerGate core s
  | .coreWake core => Sys2Proof.Machine.execCoreWake core s
  | .thermalRunaway row => Sys2Proof.Machine.execThermalRunaway row s
  | .powerInterval => Sys2Proof.Machine.execPowerInterval s
  | .voltageGlitch => Sys2Proof.Machine.execVoltageGlitch s
  | .clockGlitch => Sys2Proof.Machine.execClockGlitch s
  | .tamperLoopOpen => Sys2Proof.Machine.execTamperLoopOpen s
  | .chrysalisAlarm src tenants => Sys2Proof.Machine.execChrysalisAlarm src tenants s
  | .chalcfgWrite v => Sys2Proof.Machine.execChalcfgWrite v s
  | .challogClear => Sys2Proof.Machine.execChallogClear s
  | .attestationReport nonce => Sys2Proof.Machine.execAttestationReport nonce s
  | .chrysalisBoot sigOk version hash => Sys2Proof.Machine.execChrysalisBoot sigOk version hash s
  | .reset => Sys2Proof.Machine.execReset s
  | .stopByLomter lpn slot => Sys2Proof.Machine.execStopByLomter lpn slot s
  | .slotRestart lpn slot release => Sys2Proof.Machine.execSlotRestart lpn slot release s
  | .thaw core => Sys2Proof.Machine.execThaw core s
  | .jobEnd job => Sys2Proof.Machine.execJobEnd job s
  | .bronexLinkUp link domain => Sys2Proof.Machine.execBronexLinkUp link domain s
  | .rowSensorReading row temp pwr => Sys2Proof.Machine.execRowSensorReading row temp pwr s

end Sys2Proof.Machine
end

