-- ==== Sys2Proof/Machine/Step.lean ====
section
/-!
DEFINITION. The step of the machine, and the placing of a word where the next step fetches.
-/

namespace Sys2Proof.Machine

/-- One step: the event at the head of the agenda, or the next cycle (log 2). -/
def step (s : State) : Host.Outcome State Fault Refusal := s.advance1

/-- The machine with a word of the opcode table stored where its next step fetches (log 3, log 4). -/
def State.withFetchWord (s : State) (_nbits w : Nat) : State := s.placeBundle (tableDword w)

end Sys2Proof.Machine
end

