-- ==== Sys2Proof/Safety.lean ====
section
/-!
DEFINITION. What claims about this machine are made of: when an instruction completes, what leaves the rest of the machine
alone, what a written register, predicate or push leaves behind, what a taken trap leaves behind, and the invariant that
every step keeps. A run is safe while `step` answers a next state; the only stop is a module that a level-3 alarm has
stopped.
-/

namespace Sys2Proof.Machine

/-! ## Completion -/

/-- The instruction completes: `exec` answers a next state, and `P` holds of that state. -/
def Completes (i : Instr) (s : State) (P : State → Prop) : Prop := ∃ t, exec i s = .next t ∧ P t

/-- A guarded word completes: with a true guard `P` holds of the next state, with a false one nothing has changed (R179). -/
def Guarded (i : Instr) (g : Sys2Proof.Pred) (s : State) (P : State → Prop) : Prop :=
  Completes i s fun t => (s.guard g = true → P t) ∧ (s.guard g = false → t = s)

/-- The machine has not stopped, so that a step answers a next state (R335). -/
def State.Live (s : State) : Prop := s.stopped = false

/-! ## Frames -/

/-- Every piece of state but the processes is as before: memory, full bits, poison, caches, networks, module registers. -/
def SameButProcs (s t : State) : Prop := { t with procs := [] } = { s with procs := [] }

/-- Every byte of memory reads as before. -/
def SameMem (s t : State) : Prop := ∀ a, memGet t.mem a = memGet s.mem a

/-- Everything outside the running thread's slot is as before: every other slot of every process, every process's own
registers, and all the rest of the machine with every byte of its memory. -/
structure OnlyMe (s t : State) : Prop where
  rest : SameButProcs s t
  mem : SameMem s t
  slots : ∀ w : Who, w ≠ s.cur → t.slot w = s.slot w
  procs : ∀ l, { t.proc l with slots := [] } = { s.proc l with slots := [] }

/-- Of a slot only general register r has changed: it holds v and is full; g0 keeps reading 0 (R166, R201). -/
structure OnlyReg (x y : Slot) (r : Reg) (v : W64) : Prop where
  regs : ∀ q : Reg, y.arch.rd q = if q = r ∧ r ≠ 0 then v else x.arch.rd q
  full : ∀ q : Reg, y.arch.isF q = (x.arch.isF q || (q == r && r != 0))
  rest : { y with arch := { y.arch with regs := x.arch.regs, full := x.arch.full } } = x

/-- The pushes a slot's running chunk holds. -/
def Slot.pushed (x : Slot) : List Push :=
  match x.chunk with
  | some c => c.pushes
  | none => []

/-- Of a slot only its running chunk has changed: it holds one more push (R137, R214). -/
structure OnlyPush (x y : Slot) (n : Nat) (v : W64) : Prop where
  pushes : y.pushed = x.pushed ++ [{ view := n, val := v, pc := x.arch.pc, since := x.issued.getD (x.lastIssue.getD 0) }]
  rest : { y with chunk := x.chunk } = x

/-- A value has been written to a register field and nothing else has changed. The field leads to a general register, to
the handler bank while H = 1, or to a view register: a push to s0 to s3 or to g30, and g31, which discards (R214, R268,
R272; log 19). -/
def Wrote (s t : State) (r : Reg) (v : W64) : Prop :=
  OnlyMe s t ∧
  match s.me.field r with
  | .gen => OnlyReg s.me t.me r v
  | .bank n => t.me = { s.me with hbank := s.me.hbank.set n.toNat v (n.isLt) }
  | .stream n => OnlyPush s.me t.me n v
  | .down => OnlyPush s.me t.me 4 v
  | .up => t.me = s.me

/-- A predicate has been written and nothing else has changed; p0 stays as it was (R189, R209). -/
structure WrotePred (s t : State) (p : Sys2Proof.Pred) (b : Bool) : Prop where
  only : OnlyMe s t
  preds : ∀ q : Sys2Proof.Pred, t.me.arch.pw.getLsbD q.toNat = if q = p ∧ p ≠ 0 then b else s.me.arch.pw.getLsbD q.toNat
  rest : { t.me with arch := { t.me.arch with pw := s.me.arch.pw } } = s.me

/-! ## Traps (R320, R322) -/

/-- Nothing of the thread is uncommitted or still to land, and no trap is due: a trap is taken at once. -/
structure Slot.Quiet (x : Slot) : Prop where
  chunk : x.chunk = none
  commit : x.commit = none
  landing : x.arch.landing = []
  due : x.due = []
  running : x.st ≠ SlotSt.halted

/-- What taking a trap leaves of a slot (R322): the cause word with its code, segment and reason, the address, the PC and
TPROG 0; with EN = 1 PC ← OFF × 8, SP ← PRIV, T ← 1 and PRIV ← max(PRIV, EP); with EN = 0 the slot is halted. The registers,
predicates and loop registers are as before. -/
structure TookTrap (x y : Slot) (code seg reason : Nat) (addr : W64) : Prop where
  cause : y.regs.tcause = w64 (code + seg * 256 + reason * 2048)
  addr : y.regs.taddr = addr
  pc : y.regs.tpc = x.arch.pc.zeroExtend 64
  prog : y.regs.tprog = 0
  enter : tb 0 x.regs.trapvec = true →
    y.arch.pc.toNat = fld 19 3 x.regs.trapvec * 8 ∧ fld 4 3 y.regs.slotctl = fld 1 0 x.regs.slotctl ∧ y.inTrap = true ∧
    y.priv = max x.priv (fld 2 1 x.regs.trapvec)
  halt : tb 0 x.regs.trapvec = false → y.st = SlotSt.halted ∧ y.regs.slotctl = x.regs.slotctl
  regs : y.arch.regs = x.arch.regs ∧ y.arch.full = x.arch.full ∧ y.arch.pw = x.arch.pw ∧ y.hbank = x.hbank

/-! ## Values by width (R192, R204) -/

/-- An operation at the width that fn selects: 64, or 32 with the result sign-extended (R192, R204). -/
def atWidth (r : BR) (s : State) (op : {w : Nat} → BitVec w → BitVec w → BitVec w) : W64 :=
  if r.fn = 0 then op (s.rd r.a) (s.rd r.b) else (op ((s.rd r.a).setWidth 32) ((s.rd r.b).setWidth 32)).signExtend 64

/-- The length of a run of bits that a test accepts, going up from i within n bits. -/
def runLength (p : Nat → Bool) (i : Nat) : Nat → Nat
  | 0 => 0
  | n + 1 => if p i then 1 + runLength p (i + 1) n else 0

/-- The mask of n ones from position p within w bits, cut at w − 1 (R206). -/
def maskAt (w p n : Nat) : BitVec w := ((1#w <<< n) - 1#w) <<< p

/-- Lane k of width e of a dword (R212). -/
def laneOf (e k : Nat) (v : W64) : BitVec e := v.extractLsb' (e * k) e

/-- A lane's value by the signedness of its type (R212). -/
def laneVal (u : Bool) {e : Nat} (x : BitVec e) : Int := if u then (x.toNat : Int) else x.toInt

/-- The nearest value of the type to an integer (R212, R213). -/
def clampLane (u : Bool) (e : Nat) (v : Int) : BitVec e :=
  BitVec.ofInt e (max (if u then 0 else -(2 ^ (e - 1) : Int)) (min v (if u then 2 ^ e - 1 else 2 ^ (e - 1) - 1)))

/-- The test of each condition code of CMP and CMPI, on dwords (R193). -/
def condHolds (c : BitVec 4) (x y : W64) : Prop :=
  (c = 0 ∧ x = y) ∨ (c = 1 ∧ x ≠ y) ∨ (c = 2 ∧ x.toInt < y.toInt) ∨ (c = 3 ∧ y.toInt ≤ x.toInt) ∨
  (c = 4 ∧ x.toNat < y.toNat) ∨ (c = 5 ∧ y.toNat ≤ x.toNat) ∨ (c = 6 ∧ x.toInt ≤ y.toInt) ∨ (c = 7 ∧ y.toInt < x.toInt) ∨
  (c = 8 ∧ x.toNat ≤ y.toNat) ∨ (c = 9 ∧ y.toNat < x.toNat) ∨ (c = 10 ∧ x &&& y ≠ 0) ∨ (c = 11 ∧ x &&& y = 0)

/-- A lane-wise result: v is written to d, and each of its lanes is `op` of the lanes of a and b (R212). -/
def WroteLanes (s t : State) (r : BR) (op : {e : Nat} → BitVec e → BitVec e → BitVec e) : Prop :=
  ∃ v : W64, Wrote s t r.d v ∧
    ∀ k, k < 64 / elemW r.fn → laneOf (elemW r.fn) k v = op (laneOf (elemW r.fn) k (s.rd r.a)) (laneOf (elemW r.fn) k (s.rd r.b))

/-! ## Float results (R287 to R293) -/

/-- Flags have been ORed into FCSR and nothing else has changed (R289). -/
structure RaisedFlags (s t : State) (fl : Nat) : Prop where
  only : OnlyMe s t
  fcsr : t.me.arch.fcsr = s.me.arch.fcsr ||| w64 fl
  rest : { t.me with arch := { t.me.arch with fcsr := s.me.arch.fcsr } } = s.me

/-- A float instruction's result: d receives the lanes' results with zeros above them, and FCSR the flags that any lane
raises; `op k` is the result and the flags of lane k (R287, R292). -/
def WroteFloat (s t : State) (r : BR) (op : Nat → Nat × Nat) : Prop :=
  let w := (fnFmt r.fn).width
  let n := fnLanes r.fn
  ∃ (m : State) (v : W64) (fl : Nat), Wrote s m r.d v ∧ RaisedFlags m t fl ∧
    (∀ k, k < n → v.toNat / 2 ^ (w * k) % 2 ^ w = (op k).1 % 2 ^ w) ∧ v.toNat < 2 ^ (w * n) ∧
    (∀ i, fl.testBit i = (List.range n).any fun k => (op k).2.testBit i)

/-- A two-operand lane: a NaN operand gives the canonical NaN, a signalling one NV too; otherwise the exact result is rounded
once (R280, R286, R287). `exact` gives the exact value and the flags of an invalid operation or a division by zero. -/
def roundedLane (f : Fmt) (rm : Nat) (sat : Bool) (exact : FV → FV → FV × Nat) (x y : Nat) : Nat × Nat :=
  let a := f.decode x
  let b := f.decode y
  if a.isNan || b.isNan then ((round f rm sat (.nan false)).1, (round f rm sat (.nan false)).2 ||| (if a.isSig || b.isSig then fNV else 0))
  else ((round f rm sat (exact a b).1).1, (round f rm sat (exact a b).1).2 ||| (exact a b).2)

/-! ## Transfers (R215, R216) -/

/-- The target check passes: the offset is in 0 to 0xF_FFF8 and, below M, outside the hardware areas (R216). -/
def TargetOk (s : State) (tgt : Int) : Prop :=
  0 ≤ tgt ∧ tgt ≤ 0xFFFF8 ∧ (s.me.priv = 2 ∨ hwArea s.myProc.lmmap tgt.toNat = false)

/-- The bundle will continue at a target: its next PC is set, its fetch buffer is empty, and nothing else has changed (R215). -/
structure Jumped (s t : State) (tgt : Nat) : Prop where
  only : OnlyMe s { t with npc := s.npc, taken := s.taken }
  npc : t.npc.toNat = tgt / 8 * 8
  taken : t.taken = true
  slot : t.me = { s.me with fetch := [] }

/-! ## The matrix slice (16) -/

/-- No slice instruction is in progress or waiting and no gang is joined, no swap of the core is accepted, and the bundle is no resume issue. -/
structure IdleSlice (s : State) : Prop where
  queue : s.myProc.mx.queue = []
  join : s.myProc.mx.join = none
  swap : s.myCore.swap = none
  fresh : s.me.resume = false

/-- The rules of a configuration word (R346, R347). -/
def GoodConfig (v : W64) : Prop :=
  let cls (n : Nat) : Nat := if n ≤ 2 then 2 else if n ≤ 5 then 0 else 1
  1 ≤ fld 3 0 v ∧ fld 3 0 v ≤ 7 ∧ 1 ≤ fld 7 4 v ∧ fld 7 4 v ≤ 7 ∧ cls (fld 3 0 v) = cls (fld 7 4 v) ∧
    (tb 17 v = true → fld 16 8 v = 0) ∧ fld 19 18 v ≠ 3 ∧ (cls (fld 3 0 v) = 2 → tb 20 v = false ∧ tb 21 v = false) ∧ fld 63 22 v = 0

/-- A tile access lies in the plain part of the own local memory and may be made (R17, R350). -/
structure OwnTile (s : State) (x : Rd) (need o : Nat) : Prop where
  rights : segHas (s.seg s.cur x.seg) need = true
  size : 1 ≤ x.size
  limit : x.off.toNat + x.size - 1 ≤ segLimit (s.seg s.cur x.seg)
  address : segBase (s.seg s.cur x.seg) + x.off.toNat = winAddr s.cur.lpn o
  low : 0x4000 ≤ o
  high : o + x.size ≤ imageTop s.myProc.lmmap
  lpn : s.cur.lpn < 2 ^ 19
  hosted : s.myCore.host = s.cur.lpn
  whole : s.locBad s.cur.lpn s.me.priv o x.size = false

/-- What a tile access reads: its bytes in memory, little-endian. -/
def tileValue (s : State) (x : Rd) : Nat := memRead s.mem (segBase (s.seg s.cur x.seg) + x.off.toNat) x.size

/-- The eight dwords of a descriptor in the own local memory. -/
def descAt (s : State) (o : Nat) : List W64 := (List.range 8).map fun i => w64 (s.locRead s.cur.lpn s.me.priv (o + 8 * i) 8)

/-- Row i of an MSTO's destination (R359). -/
def mstoDest (d : List W64) (i : Nat) : Rd :=
  { seg := fld 6 4 (d.getD 0 0), off := d.getD 1 0 + w64 i * (BitVec.ofNat 32 (fld 31 0 (d.getD 2 0))).signExtend 64,
    size := 8 * (Fmt.ofCode (fld 3 0 (d.getD 0 0))).width }

/-- A trap with progress: P = 1 and TPROG (R324). -/
structure TookPartTrap (x y : Slot) (code : Nat) (addr prog : W64) : Prop where
  cause : y.regs.tcause = w64 (code + 32768)
  addr : y.regs.taddr = addr
  pc : y.regs.tpc = x.arch.pc.zeroExtend 64
  prog : y.regs.tprog = prog
  regs : y.arch.regs = x.arch.regs ∧ y.arch.full = x.arch.full ∧ y.arch.pw = x.arch.pw

/-! ## System registers (R329) -/

/-- The SYSW of a value passes every check of R329: the register exists, the privilege may read it and may write some field of
it, no reserved bit is set, and neither the register's own rules nor its privilege rules refuse the value. -/
def SyswOk (s : State) (n : Nat) (v : W64) : Prop :=
  ∃ a, regAccess n = some a ∧ a.read ≤ s.me.priv ∧ a.write s.me.priv ≠ 0 ∧ v &&& ~~~(w64 a.fields) = 0 ∧
    s.regIllop n v (mergeReg (a.write s.me.priv) (s.readReg n) v) = false ∧ s.regPriv n v = false

/-- Registers that a write sets and that have no row of their own among the events: slot, core and module range. -/
def plainRegs : List Nat :=
  [0x000, 0x008, 0x009, 0x00A, 0x00B, 0x00C, 0x00D, 0x00E, 0x010, 0x011, 0x012, 0x013, 0x014, 0x016, 0x017, 0x018, 0x019, 0x01A,
   0x020, 0x021, 0x022, 0x023, 0x102, 0x105, 0x106, 0x108, 0x114, 0x115, 0x116, 0x118, 0x201, 0x202, 0x203, 0x204, 0x205, 0x206,
   0x220, 0x301, 0x302, 0x303, 0x400, 0x401, 0x410, 0x411, 0x440, 0x452, 0x470, 0x480, 0x481, 0x482, 0x483, 0x485, 0x486]

/-! ## Accesses to the own local memory (R16, R18, R136) -/

/-- The segment check of an access passes and leads to offset o of the own local memory: the segment has the rights, covers the
access, and its base and the offset meet there, aligned to the size (R9, R18). -/
structure OwnAccess (s : State) (n : Seg) (off : W64) (size need o : Nat) : Prop where
  rights : segHas (s.seg s.cur n.toNat) need = true
  limit : off.toNat + size - 1 ≤ segLimit (s.seg s.cur n.toNat)
  address : segBase (s.seg s.cur n.toNat) + off.toNat = winAddr s.cur.lpn o
  fits : o + size ≤ 2 ^ 20
  aligned : o % size = 0
  lpn : s.cur.lpn < 2 ^ 19
  hosted : s.myCore.host = s.cur.lpn

/-- The chunk has room for a line, and the thread runs neither a solo attempt nor a single-access chunk, and has not just migrated for
the access (R28, R134, R143, R145). -/
structure Room (s : State) (l : Line) (wr : Bool) : Prop where
  solo : s.me.solo = none
  settled : s.me.arrived = false
  single : s.me.single = false
  room : s.myChunk.roomFor l wr = true

/-- A byte of the own local memory as the running thread sees it: 0 in a hardware area below M, else the newest of its chunk's stores
that covers it, else the byte that stands there (R63, R136). -/
def State.seenByte (s : State) (o : Nat) : Byte :=
  if s.me.priv ≠ 2 ∧ hwArea s.myProc.lmmap o = true then 0 else
  match (match s.me.chunk with
    | some c => c.stores
    | none => []).reverse.findSome? fun st : Store => st.byteAt false s.cur.lpn o with
  | some b => b
  | none => s.locByte s.cur.lpn s.me.priv o

/-- The long-latency result v has entered the landing buffer with the window la; its destination is not full until it lands; no
general register's value and no predicate has changed (R164 to R166). -/
structure LandEntry (s t : State) (d : Reg) (la : Nat) (v : W64) : Prop where
  entry : ∃ e : Landing, t.me.arch.landing = s.me.arch.landing ++ [e] ∧ e.dst = s.me.dst d ∧ e.closeAt = s.me.arch.bno + la + 1 ∧
    e.res = .value v ∧ e.pc = s.me.arch.pc
  full : ∀ q : Reg, t.me.arch.isF q = (s.me.arch.isF q && !(q == d && q != 0 && s.me.field d == .gen))
  regs : t.me.arch.regs = s.me.arch.regs
  pw : t.me.arch.pw = s.me.arch.pw

/-- The same, and no byte of memory and no other slot has changed. -/
structure Landing1 (s t : State) (d : Reg) (la : Nat) (v : W64) : Prop extends LandEntry s t d la v where
  mem : SameMem s t
  slots : ∀ w : Who, w ≠ s.cur → t.slot w = s.slot w

/-- Byte i of a dword. -/
def byteOf (v : W64) (i : Nat) : Byte := v.extractLsb' (8 * i) 8

/-- A value of n bytes extended to a dword: by zero, or by its top bit (R224). -/
def ExtendedFrom (sx : Bool) (n : Nat) (v : W64) : Prop :=
  ∀ i, 8 * n ≤ i → i < 64 → v.getLsbD i = (sx && v.getLsbD (8 * n - 1))

/-- Every byte of memory is as before but the n bytes of the own local memory from offset o, which hold v, little-endian. -/
def StoredOwn (s t : State) (o n : Nat) (v : Nat) : Prop :=
  ∀ a, memGet t.mem a = if winAddr s.cur.lpn o ≤ a ∧ a < winAddr s.cur.lpn o + n then
    BitVec.ofNat 8 (v / 2 ^ (8 * (a - winAddr s.cur.lpn o))) else memGet s.mem a

/-- A word of the own local memory below the hardware areas, whole and poison-free, that no commit in progress holds: full/empty
operations and atomics act on it at once (R63, R140, R480). -/
structure FreeWord (s : State) (o n : Nat) : Prop where
  low : o < imageTop s.myProc.lmmap
  high : 0x4000 ≤ o
  good : s.locBad s.cur.lpn s.me.priv o n = false
  held : (s.dom (s.domOf (locLine s.cur.lpn o))).held = []
  quiet : s.me.Quiet

/-- The full bit of the word at o has become b, and every other word's full bit is as before. -/
def FullBit (s t : State) (o : Nat) (b : Bool) : Prop :=
  ∀ a, a < 2 ^ 20 → t.isFull s.cur.lpn 2 a = if a / 8 = o / 8 then b else s.isFull s.cur.lpn 2 a

/-- The n bytes of the own local memory from offset o as a little-endian number. -/
def ownWord (s : State) (o n : Nat) : Nat := memRead s.mem (winAddr s.cur.lpn o) n

/-! ## Runs of registers, waits, messages (R188, R228, R248 to R258) -/

/-- Values have been written to registers one after the other, and nothing else has changed. -/
def WroteAll (s t : State) : List (Reg × W64) → Prop
  | [] => t = s
  | (r, v) :: l => ∃ m, Wrote s m r v ∧ WroteAll m t l

/-- The running thread, which waited for nothing, has left the rotation: its bundle is performed anew once it is woken, and its
limit and the TADDR of the trap that ends the wait are recorded. No register, no byte of memory and no other slot has changed. -/
structure WaitsAgain (s t : State) (k : WaitKind) (limit : Nat) (addr : W64) : Prop where
  st : t.me.st = .waiting
  wait : t.me.wait = some { kind := k, id := s.nextId, since := s.me.issued.getD s.myProc.time, limit := limit, addr := addr }
  arch : t.me.arch = s.me.arch
  bst : t.bst = .stop
  mem : t.mem = s.mem
  slots : ∀ w : Who, w ≠ s.cur → t.slot w = s.slot w

/-- What RECV and PEEK write: the header to a, then the payload to d to d + n, with 0 beyond the message's length (R254). -/
def msgWrites (s : State) (r : AK) (off : Nat) : List (Reg × W64) :=
  let h := s.hwRead s.cur.lpn off
  (r.a, h) :: (List.range (r.n.toNat + 1)).map fun i =>
    (r.d + BitVec.ofNat 5 i, if i ≤ fld 36 34 h then s.hwRead s.cur.lpn (off + 8 * (i + 1)) else 0)

/-- Offset of the head message of a channel's queue (R248, R250). -/
def headOff (s : State) (k : Nat) : Nat :=
  chQBASE (s.chA s.cur.lpn k) + 72 * (chHEAD (s.chB s.cur.lpn k) % max 1 (chQCAP (s.chA s.cur.lpn k)))

/-- Every byte of memory reads as before but n bytes of the own local memory from offset o. -/
def SameMemBut (s t : State) (lpn o n : Nat) : Prop :=
  ∀ a, a < winAddr lpn o ∨ winAddr lpn o + n ≤ a → memGet t.mem a = memGet s.mem a

/-- No other thread of the process has an uncommitted chunk. -/
def OnlyThread (s : State) : Prop :=
  ∀ w : Who, w.lpn = s.cur.lpn → w ≠ s.cur → (s.slot w).chunk = none ∧ (s.slot w).commit = none

/-- A queue slot of local memory that no hardware area overlaps, and that the reorder buffer, which is empty, does not claim. -/
structure PlainQueue (s : State) (lpn off : Nat) : Prop where
  low : 0x4000 ≤ off
  high : off + 72 ≤ imageTop (s.proc lpn).lmmap
  reorder : fld 31 20 (s.roA lpn) = 0
  spill : (s.proc lpn).spill = []

/-- An item is in flight in the module, or has left it. -/
def OnTheWay (t : State) (i : Item) : Prop := (∃ e ∈ t.net, e.2 = i) ∨ i ∈ t.outbox

/-- The send entry i of a process has one message less outstanding, and is otherwise as before (R249). -/
def OutFell (s t : State) (lpn i : Nat) : Prop :=
  seqOUT (t.seqAt lpn i) = seqOUT (s.seqAt lpn i) - 1 ∧ fld 35 0 (t.seqAt lpn i) = fld 35 0 (s.seqAt lpn i) ∧
    seqWT (t.seqAt lpn i) = seqWT (s.seqAt lpn i)

/-- The entry of a process's sequence table with a key: in the table, or the only such one in the spill area (R258, R447). -/
def SeqEntry (s : State) (lpn key : Nat) (e : W64) : Prop :=
  (∃ i, s.seqFind lpn key = some i ∧ e = s.seqAt lpn i) ∨
  (s.seqFind lpn key = none ∧ Spilled.entry e ∈ (s.proc lpn).spill ∧ e.toNat % 2 ^ 24 = key ∧
    ∀ y, Spilled.entry y ∈ (s.proc lpn).spill → y.toNat % 2 ^ 24 = key → y = e)

/-- Neither the table nor the spill area holds an entry with a key. -/
def NoSeqEntry (s : State) (lpn key : Nat) : Prop :=
  s.seqFind lpn key = none ∧ ∀ y, Spilled.entry y ∈ (s.proc lpn).spill → y.toNat % 2 ^ 24 ≠ key

/-- The segment check of an access passes and leads to address la of the paged region, aligned to the size; sg0 of Imago leads to its
own local memory (R18; log 11). -/
structure PagedAccess (s : State) (n : Seg) (off : W64) (size need la : Nat) : Prop where
  rights : segHas (s.seg s.cur n.toNat) need = true
  limit : off.toNat + size - 1 ≤ segLimit (s.seg s.cur n.toNat)
  address : segBase (s.seg s.cur n.toNat) + off.toNat = la
  outside : n = 0 → s.myCore.host ≠ Config.imagoLpn
  fits : la + size - 1 < 2 ^ 55
  aligned : la % size = 0

/-- The core of the running thread holds the line of la in its stash under a key, and no other entry bears the key. -/
structure InStash (s : State) (la key : Nat) (l : StashLine) : Prop where
  hit : s.stashHit s.myProc.core la = some (key, l)
  only : (s.core s.myProc.core).stash.find? (fun e => e.1 == key) = some (key, l)
  line : s.stashLine s.myProc.core l.vmid l.gtag = some (key, l)

/-- The L2 holds in the line's home what a write-back of the stash line l leaves there (R73, R95). -/
def WrittenBack (s t : State) (l : StashLine) : Prop :=
  ∀ m, s.l2Find l.vmid l.gtag = some m → ∃ m', t.l2Find l.vmid l.gtag = some m' ∧
    ∀ k, k < 2 → m'.sec k = match l.sec k with
      | .dirty => SecSt.dirty
      | .poisoned => SecSt.poisoned
      | _ => m.sec k

/-- A record joined the tail of a process's ready queue: the record of the own local memory at o, with DST, LID and HERE stamped,
under its level (R383, R384, R388). -/
def Queued (s t : State) (lpn o lid dst : Nat) : Prop :=
  let dw (i : Nat) : W64 := w64 (s.locRead s.cur.lpn s.me.priv (o + 8 * i) 8)
  ∃ x, (t.proc lpn).ready = (s.proc lpn).ready ++ [x] ∧ x.resume = none ∧ x.level = fld 21 20 (dw 0) ∧ x.age = 0 ∧
    fld 58 40 x.rcd[0] = dst ∧ fld 39 24 x.rcd[0] = lid ∧ tb 23 x.rcd[0] = false ∧ fld 22 0 x.rcd[0] = fld 22 0 (dw 0) ∧
    ∀ i, 1 ≤ i → ∀ h : i < 8, x.rcd[i] = dw i

/-- A task record in the own local memory at o that SPAWN and TPOST accept (R383). -/
structure GoodRecord (s : State) (o : Nat) : Prop where
  whole : s.locBad s.cur.lpn s.me.priv o 64 = false
  zero : fld 63 59 (w64 (s.locRead s.cur.lpn s.me.priv o 8)) = 0
  entry : fld 2 0 (w64 (s.locRead s.cur.lpn s.me.priv o 8)) = 0
  res : tb 22 (w64 (s.locRead s.cur.lpn s.me.priv o 8)) = false
  last : fld 6 3 (w64 (s.locRead s.cur.lpn s.me.priv (o + 56) 8)) = 0

/-- The running thread, which waited for nothing, waits in place under a limit: word A is complete when it is served, and word B
follows. No register has changed. -/
structure WaitsHere (s t : State) (k : WaitKind) (limit : Nat) (addr : W64) (d : Reg) : Prop where
  st : t.me.st = .waiting
  wait : t.me.wait = some { kind := k, id := s.nextId, since := s.me.issued.getD s.myProc.time, limit := limit, addr := addr }
  latch : ∃ l, t.me.latch = some l ∧ l.d = d ∧ l.bundle = s.bword ∧ l.opnd = s.opnd ∧ l.pc = s.me.arch.pc
  arch : t.me.arch = s.me.arch
  bst : t.bst = .hold

/-- A barrier record after an arrival of weight w (R243): the arrivals beyond the completed generations are counted. -/
def Bar.after (b : Bar) (w : Nat) : Bar :=
  { count := b.count, arr := BitVec.ofNat 16 ((b.arr.toNat + w) % b.count.toNat),
    gen := b.gen + BitVec.ofNat 16 ((b.arr.toNat + w) / b.count.toNat) }

/-- The generation to which the last unit of an arrival of weight w belongs (R243). -/
def Bar.lastGen (b : Bar) (w : Nat) : W64 := (b.gen + BitVec.ofNat 16 ((b.arr.toNat + w - 1) / b.count.toNat)).zeroExtend 64

/-- Of the process's barrier records only record i has changed, to b; memory, the running thread and its slot are as before. -/
def OnlyBar (s t : State) (i : Nat) (b : Bar) : Prop :=
  (∀ k, t.myProc.bar k = if k = i then b else s.myProc.bar k) ∧ t.me = s.me ∧ t.cur = s.cur ∧ SameMem s t

/-- A plain word of the local memory of a process that no commit holds. -/
structure PlainWord (s : State) (lpn off : Nat) : Prop where
  low : 0x4000 ≤ off
  high : off + 8 ≤ imageTop (s.proc lpn).lmmap
  aligned : off % 8 = 0
  held : (s.dom (s.domOf (locLine lpn off))).held = []

/-- A cancel of the launches that a test accepts (R174, R398): each ends with status cancelled, every thread of it is removed at its
next position, and its task records leave the ready queues; no register of any thread has changed. -/
def Cancelled (s m : State) (p : Launch → Bool) : Prop :=
  (∀ l ∈ s.launches, p l = true → ∃ l' ∈ m.launches, l'.id = l.id ∧ l'.st = 1) ∧
  (∀ l ∈ s.launches, p l = true → ∀ w : Who, (s.proc w.lpn).job = l.job.toNat → (s.proc w.lpn).vmid = l.vmid.toNat →
    (s.slot w).st ≠ .absent → fld 15 0 (s.slot w).regs.launch = l.lid → (m.slot w).doomed = true) ∧
  (∀ l ∈ s.launches, p l = true → ∀ n, (s.proc n).job = l.job.toNat → (s.proc n).vmid = l.vmid.toNat →
    ∀ x ∈ (m.proc n).ready, x.resume = none → fld 39 24 x.rcd[0] ≠ l.lid) ∧
  (∀ w : Who, (m.slot w).arch = (s.slot w).arch ∧ (m.slot w).regs = (s.slot w).regs)

/-- A TLBI has left its core: the thread waits in place, and every core and row port and every stage-two unit that may hold anything is
still to act (R55; the others have nothing to remove and have acknowledged). -/
def Broadcasts (s t : State) (kind vmid job addr : Nat) : Prop :=
  WaitsHere s t .tlbi 0 0 0 ∧ SameMem s t ∧
  ∃ b : Tlbi, t.tlbis = s.tlbis ++ [b] ∧ b.who = s.cur ∧ b.kind = kind ∧ b.vmid = vmid ∧ b.job = job ∧ b.addr = addr ∧
    (∀ c ∈ s.cores, c.1 ∈ b.left ∧ 10000 + rowOf c.1 ∈ b.left) ∧ (∀ q ∈ s.ports, 10000 + q.1 ∈ b.left) ∧
    (∀ q ∈ s.bases, 20000 + q.1 ∈ b.left)

/-- The segment check of an engine's access passes and leads to offset o of its process's plain local memory (R18, R306). -/
structure EngineAccess (s : State) (c : Copy) (dst : Bool) (k size need o : Nat) : Prop where
  rights : segHas (c.seg (descSeg c.desc dst)) need = true
  limit : (elemOff c.desc dst k).toNat + size - 1 ≤ segLimit (c.seg (descSeg c.desc dst))
  address : segBase (c.seg (descSeg c.desc dst)) + (elemOff c.desc dst k).toNat = winAddr c.who.lpn o
  low : 0x4000 ≤ o
  high : o + size ≤ imageTop (s.proc c.who.lpn).lmmap
  aligned : o % size = 0
  lpn : c.who.lpn < 2 ^ 19
  hosted : (s.core (s.hostOf c.who.lpn)).host = c.who.lpn
  whole : s.locBad c.who.lpn c.priv o size = false
  held : (s.dom (s.domOf (locLine c.who.lpn o))).held = []
  going : s.ckPhase = .idle ∧ (s.core (s.hostOf c.who.lpn)).frzAlarm = false

/-- A completion entry of an operation waits for its place in the inbox: its TAG, KIND, STATUS, STR, SIDE, REASON, V and PROG (R309). -/
def Completed (s t : State) (c : Copy) (kind status str side reason prog : Nat) : Prop :=
  ∃ e, (t.proc c.who.lpn).inWait = (s.proc c.who.lpn).inWait ++ [e] ∧ e.id = c.id ∧ e.lid = c.lid ∧
    fld 15 0 e.w0 = c.tag.toNat ∧ fld 19 16 e.w0 = kind ∧ fld 23 20 e.w0 = status ∧ fld 25 24 e.w0 = str ∧ fld 26 26 e.w0 = side ∧
    fld 29 27 e.w0 = reason ∧ fld 62 30 e.w0 = 0 ∧ tb 63 e.w0 = true ∧ e.w1 = w64 prog

/-- The operation that a transfer instruction of slot 15 starts (R24, R306). -/
structure Started (s : State) (c : Copy) (tag : W64) (o : Nat) : Prop where
  id : c.id = s.nextId
  tag : c.tag.toNat = fld 15 0 tag
  desc : ∀ i, ∀ h : i < 8, c.desc[i] = w64 (s.locRead s.cur.lpn s.me.priv (o + 8 * i) 8)
  sg : c.sg = s.me.sg
  priv : c.priv = s.me.priv
  tags : c.vmid = s.myProc.vmid ∧ c.job = s.myProc.job ∧ c.lid = fld 15 0 s.me.regs.launch
  who : c.who = s.cur
  idle : c.got = none ∧ c.stop = none ∧ c.asked = none ∧ c.park = none

/-- A transfer instruction of slot 15 reaches its descriptor at o: no swap of the core is accepted, it has not read the descriptor
before, and no word of it is poisoned. -/
structure AtDescriptor (s : State) (a : W64) (o : Nat) : Prop where
  slot : s.cur.slot = 15
  swap : s.myCore.swap = none
  unread : s.me.sdesc = none
  access : OwnAccess s 0 a 64 1 o
  whole : s.locBad s.cur.lpn s.me.priv o 64 = false

/-! ## Positions, migration, placement (22, 23) -/

/-- The thread may migrate at once: nothing of it is uncommitted or to land, no acknowledgement is awaited and no refused message held (R414). -/
structure Carriable (x : Slot) : Prop where
  quiet : x.Quiet
  atomics : x.atomics = []
  held : x.heldMsgs = []

/-- The bundle ends with a migration to a process; nothing of the thread or of memory has changed yet (R415, R416). -/
def Leaves (s t : State) (why : CarryWhy) (dst : Nat) (pos : BitVec 60) (bound : Bool) : Prop :=
  (∃ d, t.leaving = some d ∧ d.dst = dst ∧ d.why = why ∧ d.pos = pos ∧ d.bound = bound) ∧ t.me = s.me ∧ t.mem = s.mem

/-- The squared distance of two positions, exact (R427). -/
def distance2 (a b : BitVec 60) : Int :=
  let d (i : Nat) : Int := ((a.extractLsb' (20 * i) 20).toNat : Int) - (b.extractLsb' (20 * i) 20).toNat
  d 0 ^ 2 + d 1 ^ 2 + d 2 ^ 2

/-- The hops between two cores of the module (R437). -/
def routeHops (e a b : Nat) : Nat :=
  let d (x y : Nat) : Nat := ((x : Int) - y).natAbs
  d (meshX a) (meshX b) + d (meshY a) (meshY b) + e * (d (meshX a / 16) (meshX b / 16) + d (meshY a / 32) (meshY b / 32))

/-- The trap of this thread's bundle: nothing more of the bundle is performed (R322). -/
def Trapped (s t : State) (code seg reason : Nat) (addr : W64) : Prop :=
  t.bst = .stop ∧ TookTrap s.me t.me code seg reason addr

/-- The bin of a position in a field (R420). -/
def posBin (cfg : W64) (pos : BitVec 60) : Nat × Nat :=
  let w := (fld 20 15 cfg + 1) * (fld 14 11 cfg + 1)
  let h := (fld 27 21 cfg + 1) * (fld 14 11 cfg + 1)
  (min ((pos.extractLsb' 0 20).toNat / 2 ^ fld 5 1 cfg) (w - 1), min ((pos.extractLsb' 20 20).toNat / 2 ^ fld 10 6 cfg) (h - 1))

/-- The table entry of a position's bin, when the core has read it in this step (R420). -/
def CachedOwner (p : Proc) (pos : BitVec 60) (n : Nat) : Prop :=
  let i := (posBin p.fieldcfg pos).2 * ((fld 20 15 p.fieldcfg + 1) * (fld 14 11 p.fieldcfg + 1)) + (posBin p.fieldcfg pos).1
  spHas p.ftabs i = true ∧ spGet 0 p.ftabs i = n

/-- The core has read every entry of its field's table in this step (R420). -/
def TableKnown (p : Proc) : Prop := ∀ i, i < fieldNBX p.fieldcfg * fieldNBY p.fieldcfg → spHas p.ftabs i = true

/-- The owner of bin i as such a core knows it. -/
def ownerOf (p : Proc) (i : Nat) : Nat := spGet 0 p.ftabs i

/-- Two bins of a field are 4-adjacent (R429). -/
def nextTo (cfg : W64) (i j : Nat) : Prop :=
  let x (k : Nat) : Int := ((k % fieldNBX cfg : Nat) : Int)
  let y (k : Nat) : Int := ((k / fieldNBX cfg : Nat) : Int)
  (x i - x j).natAbs + (y i - y j).natAbs = 1

/-- Residents of a core in bin i (R421, R430). -/
def residentsIn (p : Proc) (i : Nat) : Nat := (p.residents.filter fun x => binIndex p.fieldcfg (binOf p.fieldcfg x) == i).length

/-- The bin that a core hands away and its new owner by the rule of R430. -/
structure HandsAway (p : Proc) (me i n : Nat) : Prop where
  inside : i < fieldNBX p.fieldcfg * fieldNBY p.fieldcfg
  mine : ownerOf p i = me
  edge : ∃ j, j < fieldNBX p.fieldcfg * fieldNBY p.fieldcfg ∧ ownerOf p j ≠ me ∧ nextTo p.fieldcfg i j
  most : ∀ k, k < fieldNBX p.fieldcfg * fieldNBY p.fieldcfg → ownerOf p k = me →
    (∃ j, j < fieldNBX p.fieldcfg * fieldNBY p.fieldcfg ∧ ownerOf p j ≠ me ∧ nextTo p.fieldcfg k j) →
    residentsIn p k < residentsIn p i ∨ (residentsIn p k = residentsIn p i ∧ i ≤ k)
  near : n ≠ me ∧ ∃ j, j < fieldNBX p.fieldcfg * fieldNBY p.fieldcfg ∧ ownerOf p j = n ∧ nextTo p.fieldcfg i j
  below : spGet 0 p.nbrs (fieldCore p.fieldcfg n) < fld 3 0 p.crowd
  fewest : ∀ m j, m ≠ me → j < fieldNBX p.fieldcfg * fieldNBY p.fieldcfg → ownerOf p j = m → nextTo p.fieldcfg i j →
    spGet 0 p.nbrs (fieldCore p.fieldcfg n) < spGet 0 p.nbrs (fieldCore p.fieldcfg m) ∨
    (spGet 0 p.nbrs (fieldCore p.fieldcfg n) = spGet 0 p.nbrs (fieldCore p.fieldcfg m) ∧ n ≤ m)

/-- A carry packet waits at its origin for its answer, with nothing of the thread uncommitted or to land (R416). -/
structure AtOrigin (s : State) (c : Carry) (x : Wait) : Prop where
  quiet : (s.slot c.origin).Quiet
  trap : (s.slot c.origin).inTrap = false
  wait : (s.slot c.origin).wait = some x
  kind : x.kind = .carry
  st : (s.slot c.origin).st = .waiting
  pc : c.pc = (s.slot c.origin).arch.pc
  seg : c.seg < 8

/-! ## Flutter (23) -/

/-- One shift of the draw's register (R441). -/
def drawShift (s : Nat) : Nat := if s % 2 = 1 then (s / 2) ^^^ 0x80200003 else s / 2

/-- The 16 bits that the next draw of a core returns (R441). -/
def drawn (c : Core) : Nat :=
  if tb 1 c.anmode then fld 15 0 (spGet 0 c.andraw (fld 51 48 c.anstat))
  else (List.range 16).foldl (fun v _ => drawShift v) (fld 31 0 c.anseed) % 65536

/-- A core has taken a draw: with DET = 1 IDX has moved on, with DET = 0 ANSEED; no other register of Flutter has changed but the
count of ANSTAT whose lowest bit is `counted`, which rose by one (R441, R443). -/
def DrewAndCounted (x y : Core) (drew : Bool) (counted : Option Nat) : Prop :=
  fld 31 0 y.anseed = (if drew && !tb 1 x.anmode then (List.range 16).foldl (fun v _ => drawShift v) (fld 31 0 x.anseed) else fld 31 0 x.anseed) ∧
  fld 51 48 y.anstat = (if drew && tb 1 x.anmode then (fld 51 48 x.anstat + 1) % 16 else fld 51 48 x.anstat) ∧
  (∀ lo, lo = 0 ∨ lo = 16 ∨ lo = 32 → fld (lo + 15) lo y.anstat =
    (if counted = some lo then (fld (lo + 15) lo x.anstat + 1) % 65536 else fld (lo + 15) lo x.anstat)) ∧
  y.anmode = x.anmode ∧ y.antemp = x.antemp

/-- Decide(ΔC) for a temperature and a draw (R441). -/
def accepts (dc : Int) (t d : Nat) : Prop :=
  dc ≤ 0 ∨ (0 < t ∧ 16 * dc.toNat / t < 256 ∧
    d < [65535, 62757, 60097, 57549, 55109, 52773, 50535, 48393, 46341, 44376, 42495, 40693, 38968, 37316, 35734, 34219].getD
      (16 * dc.toNat / t % 16) 0 / 2 ^ (16 * dc.toNat / t / 16))

/-- A process has nothing that keeps its core from freezing: no uncommitted chunk, no awaited landing, no save, no commit in the domain (R146). -/
structure Freezable (s : State) (core : Nat) : Prop where
  slots : ∀ e ∈ (s.proc (s.core core).host).slots, e.2.chunk = none ∧ e.2.commit = none ∧ e.2.arch.landing = []
  save : (s.core core).save = none
  held : (s.dom (s.coreDom core)).held = []

/-- The cores that a cacher record names (R94, R433). -/
def Cached (d : Dir) (c : Nat) : Prop := c ∈ d.cores

/-! ## The way of a paged request (02, 04, 05) -/

/-- Nothing stands in the way of a request at its home slice: no block slot covers its page, its sector is not in repair wait and its
line is not busy; its translation stands, and the module meets no error in passing (R57, R95, R120, R123, R124). -/
structure ClearPath (s : State) (r : PgReq) : Prop where
  current : r.stale = false
  sound : s.errs = [] ∧ s.soft = []
  block : s.blockOf r.vmid r.gpa = none
  repair : ∀ x ∈ s.repairs, ¬ (x.vmid = r.vmid ∧ x.gpa / 128 = r.gpa / 128)
  busy : ∀ l, s.l2Find r.vmid (r.gpa / 256) = some l → l.busy = none

/-- The L2 line of a request, with the request's sector present. -/
def L2Has (s : State) (r : PgReq) (l : L2Line) : Prop :=
  s.l2Find r.vmid (r.gpa / 256) = some l ∧ l.sec (r.gpa / 128 % 2) ≠ .absent

/-- The request's sector is absent from its slice. -/
def L2Lacks (s : State) (r : PgReq) : Prop := ∀ l, s.l2Find r.vmid (r.gpa / 256) = some l → l.sec (r.gpa / 128 % 2) = .absent

/-- No other core owns the line or holds it exclusively (R95). -/
def NoOwner (l : L2Line) (core : Nat) : Prop := ∀ c, l.dir = .o c ∨ l.dir = .x c → c = core

/-- A fill for a load or a store. -/
def PgReq.IsFill (r : PgReq) : Prop := ∃ b, r.kind = .fill b ∨ r.kind = .home b

/-- A fill would need no victim in the slice (R96). -/
def FreeWay (s : State) (r : PgReq) : Prop :=
  (∃ l, s.l2Find r.vmid (r.gpa / 256) = some l) ∨ ∃ w, s.l2Way r.vmid (r.gpa / 256) = some (w, none)

/-- A thread waits for a fill. -/
def AwaitsFill (s : State) (w : Who) : Prop := (s.slot w).st = .waiting ∧ ∃ x, (s.slot w).wait = some x ∧ x.kind = .fill

/-- A thread has been parked on a translation fault: its record, with its kind and level, has joined Imago's fault queue (R50, R326). -/
def ParkedOn (s t : State) (w : Who) (f : XFault) (la : Nat) : Prop :=
  (t.slot w).st = .parked ∧ (t.slot w).park = some s.imago.seq ∧
  ∃ d, t.imago.faults = s.imago.faults ++ [(s.imago.seq, .fault d)] ∧ fld 2 0 (d.getD 0 0) = f.kind % 8 ∧
    fld 5 3 (d.getD 0 0) = f.level % 8 ∧ fld 62 59 (d.getD 0 0) = w.slot % 16 ∧ d.getD 1 0 = w64 (la % 2 ^ 56) ∧
    d.getD 2 0 = w64 (f.gpa % 2 ^ 48) ∧ d.getD 3 0 = s.imago.seq.zeroExtend 64

/-- Nothing of a thread is uncommitted. -/
def Settled (s : State) (w : Who) : Prop := (s.slot w).chunk = none ∧ (s.slot w).commit = none

/-- Every table entry of a list is a line of its slice that no core owns, so that reading it moves nothing (R38, R95). -/
def ReadInPlace (s : State) (vmid : Nat) (l : List Nat) : Prop :=
  ∀ a ∈ l, ∃ x, s.l2Find vmid (a / 256) = some x ∧ x.sec (a / 128 % 2) ≠ .absent ∧ x.dir = .u

/-- What a store at the home needs to know of its page: its right W (R47). -/
def KnownW (r : PgReq) (w2 : Bool) : Prop := r.kind = .home true → r.vmid = 0 ∨ w2 = true

/-- A commit's core has the sector of an ownership request, or the slice has it and its right W is known (R47, R95). -/
def OwnsData (s : State) (r : PgReq) : Prop :=
  (∃ key x, s.stashLine r.core r.vmid (r.gpa / 256) = some (key, x) ∧ x.sec (r.gpa / 128 % 2) ≠ .absent) ∨
    ((s.l2Sec r.vmid r.gpa ≠ .absent ∨ r.hpa ≠ none) ∧ s.w2Ok r = true)

/-- The slice instruction of a thread waits for a tile request. -/
def AskedFor (s : State) (w : Who) (id : Nat) : Prop := ∃ q ∈ (s.proc w.lpn).mx.queue, q.who = w ∧ id ∈ q.wants

/-- Tokens of a VMID's bucket at a slice (R104). -/
def State.tokens (s : State) (k vmid : Nat) : Int := spGet (s.bwDepth vmid : Int) (s.slice k).buckets vmid

/-- The stash of a core holds line n of VMID v under one key, in no other entry. -/
structure StashHolds (s : State) (core v n key : Nat) (l : StashLine) : Prop where
  found : s.stashLine core v n = some (key, l)
  one : ∀ e ∈ (s.core core).stash, e.1 = key ∨ (e.2.vmid = v ∧ e.2.gtag = n) → e = (key, l)

/-- No stash holds a line twice, nor two lines under one key. -/
def OneCopy (s : State) (v n : Nat) : Prop :=
  ∀ c, ∀ e ∈ (s.core c).stash, e.2.vmid = v → e.2.gtag = n → ∀ f ∈ (s.core c).stash, f.1 = e.1 ∨ (f.2.vmid = v ∧ f.2.gtag = n) → f = e

/-- The core answers invalidations from its own stash: it is neither gated nor frozen by a swap (R77). -/
def Answers (s : State) (core : Nat) : Prop := (s.core core).gated = false ∧ (s.core core).frzSwap = false

/-! ## Events as instructions -/

/-- The instruction whose meaning an event of the agenda has: that of the same name and operands (log 2). -/
def Ev.Is (e : Ev) (i : Instr) : Prop :=
  match e with
  | .gangStart row => i = .gangStart row
  | .ganglimExpiry lpn slot id => i = .ganglimExpiry lpn slot id
  | .tlbiInvalidate core => i = .tlbiInvalidate core
  | .tlbiDone lpn slot => i = .tlbiDone lpn slot
  | .bundleIssue core slot => i = .bundleIssue core slot
  | .rotationBoundary core => i = .rotationBoundary core
  | .landingResult id => i = .landingResult id
  | .remoteReply id => i = .remoteReply id
  | .timingReplay lpn slot => i = .timingReplay lpn slot
  | .egressLatchRelease core => i = .egressLatchRelease core
  | .chunkCommit lpn slot => i = .chunkCommit lpn slot
  | .domainAcquire dom lpn slot => i = .domainAcquire dom lpn slot
  | .domainApply dom lpn slot => i = .domainApply dom lpn slot
  | .pinWaitLimit lpn slot => i = .pinWaitLimit lpn slot
  | .engineElementWrite id => i = .engineElementWrite id
  | .engineElementRead id => i = .engineElementRead id
  | .engineCompletion id => i = .engineCompletion id
  | .inboxEntryPlace lpn => i = .inboxEntryPlace lpn
  | .remoteRequest id => i = .remoteRequest id
  | .refusalArrival id => i = .refusalArrival id
  | .fullEmptyService lpn off => i = .fullEmptyService lpn off
  | .waitListRetry lpn slot => i = .waitListRetry lpn slot
  | .busyReissue lpn slot => i = .busyReissue lpn slot
  | .waitlimExpiry lpn slot id => i = .waitlimExpiry lpn slot id
  | .waitWithdrawal id => i = .waitWithdrawal id
  | .barlimExpiry lpn slot id => i = .barlimExpiry lpn slot id
  | .segStageWrite n v => i = .segStageWrite n v
  | .segCommit n v => i = .segCommit n v
  | .coretagWrite v => i = .coretagWrite v
  | .xrootWrite v => i = .xrootWrite v
  | .lmmapWrite v => i = .lmmapWrite v
  | .pageWalk row => i = .pageWalk row
  | .parkedAnswer seq inv => i = .parkedAnswer seq inv
  | .stashFillReply id => i = .stashFillReply id
  | .stashInvalidate core sec => i = .stashInvalidate core sec
  | .stashRecall core sec inv => i = .stashRecall core sec inv
  | .stashRevoke core sec => i = .stashRevoke core sec
  | .exclusiveGrant core sec => i = .exclusiveGrant core sec
  | .l2FillRequest id => i = .l2FillRequest id
  | .l2OwnershipRequest id => i = .l2OwnershipRequest id
  | .l2DropNotice id => i = .l2DropNotice id
  | .l2Writeback id => i = .l2Writeback id
  | .l2InvalidateAck id => i = .l2InvalidateAck id
  | .l2Atomic id => i = .l2Atomic id
  | .omegaCombine first second => i = .omegaCombine first second
  | .combineSplit id => i = .combineSplit id
  | .tileRequest id => i = .tileRequest id
  | .tileMergeClose slice line => i = .tileMergeClose slice line
  | .tilePinRelease core line => i = .tilePinRelease core line
  | .maskScrub slice => i = .maskScrub slice
  | .bucketRefill slice => i = .bucketRefill slice
  | .tokenRetry slice => i = .tokenRetry slice
  | .l2partWrite vmid v => i = .l2partWrite vmid v
  | .l2bwWrite vmid v => i = .l2bwWrite vmid v
  | .l2statClear => i = .l2statClear
  | .s2Translate id => i = .s2Translate id
  | .s2UpgradeCheck id => i = .s2UpgradeCheck id
  | .s2BlockedRetry id => i = .s2BlockedRetry id
  | .mscFill id => i = .mscFill id
  | .mscWriteback id => i = .mscWriteback id
  | .mscNonallocWrite id => i = .mscNonallocWrite id
  | .controllerFillReturn id lost => i = .controllerFillReturn id lost
  | .psnansRepaired seq => i = .psnansRepaired seq
  | .psnansLost seq => i = .psnansLost seq
  | .repairTimeout seq => i = .repairTimeout seq
  | .pgblkBlock v => i = .pgblkBlock v
  | .pgblkAbandon v => i = .pgblkAbandon v
  | .pageDrainDone block => i = .pageDrainDone block
  | .pageCopyStart v => i = .pageCopyStart v
  | .pageCopyDone => i = .pageCopyDone
  | .checkpointStart => i = .checkpointStart
  | .powerFailInput => i = .powerFailInput
  | .checkpointFlush => i = .checkpointFlush
  | .checkpointCopy => i = .checkpointCopy
  | .checkpointSeal => i = .checkpointSeal
  | .launchComplete id => i = .launchComplete id
  | .messageArrive id => i = .messageArrive id
  | .skipNoticeArrive id => i = .skipNoticeArrive id
  | .messageAck id => i = .messageAck id
  | .messageRefused id => i = .messageRefused id
  | .messageReoffer lpn slot => i = .messageReoffer lpn slot
  | .skipNoticeReoffer id => i = .skipNoticeReoffer id
  | .sendlimExpiry lpn slot id => i = .sendlimExpiry lpn slot id
  | .placementUpdate core lpn host => i = .placementUpdate core lpn host
  | .userInterruptDeliver lpn slot => i = .userInterruptDeliver lpn slot
  | .mailboxService lpn n => i = .mailboxService lpn n
  | .streamReadAhead core n => i = .streamReadAhead core n
  | .doorbellWrite queue v => i = .doorbellWrite queue v
  | .doorbellHeadRead queue => i = .doorbellHeadRead queue
  | .dqptrWrite v => i = .dqptrWrite v
  | .dispatch => i = .dispatch
  | .depReread queue => i = .depReread queue
  | .taskRecordRetry queue => i = .taskRecordRetry queue
  | .remoteLaunchRecord rec_ job vmid root lid pg => i = .remoteLaunchRecord rec_ job vmid root lid pg
  | .launchWake id => i = .launchWake id
  | .launchStart core => i = .launchStart core
  | .preemptSelect core => i = .preemptSelect core
  | .cocoonSaveDone core => i = .cocoonSaveDone core
  | .continuationRetry lpn => i = .continuationRetry lpn
  | .tpostRetry lpn slot => i = .tpostRetry lpn slot
  | .sleepExpiry lpn slot id => i = .sleepExpiry lpn slot id
  | .carryPacketArrive id => i = .carryPacketArrive id
  | .carryAck id => i = .carryAck id
  | .carryRefused id => i = .carryRefused id
  | .carryReoffer id => i = .carryReoffer id
  | .fieldcfgWrite v => i = .fieldcfgWrite v
  | .fieldStepNotice core owner gen => i = .fieldStepNotice core owner gen
  | .fieldResidentCount core src n => i = .fieldResidentCount core src n
  | .fieldHandover core => i = .fieldHandover core
  | .fieldSnapshot core => i = .fieldSnapshot core
  | .fieldHaloCopy core src => i = .fieldHaloCopy core src
  | .fieldStepRelease owner => i = .fieldStepRelease owner
  | .placementLookup core lpn => i = .placementLookup core lpn
  | .forwardItem id core => i = .forwardItem id core
  | .flutterSweep core => i = .flutterSweep core
  | .weightReport id => i = .weightReport id
  | .flutterPropose core => i = .flutterPropose core
  | .proposalAnswer core src => i = .proposalAnswer core src
  | .proposalDecide core => i = .proposalDecide core
  | .decisionReceive core => i = .decisionReceive core
  | .swapFreeze x y => i = .swapFreeze x y
  | .swapMove x y => i = .swapMove x y
  | .swapFlip x y => i = .swapFlip x y
  | .swapResume x y => i = .swapResume x y
  | .placementInvalidate core lpn => i = .placementInvalidate core lpn
  | .forwardRetire core lpn => i = .forwardRetire core lpn
  | .bar2Access vf addr wr v => i = .bar2Access vf addr wr v
  | .hostWindowCompletion id ok v => i = .hostWindowCompletion id ok v
  | .bronexAuthFail link => i = .bronexAuthFail link
  | .bronexLinkFail link => i = .bronexLinkFail link
  | .routeWaitTimeout id => i = .routeWaitTimeout id
  | .powerGate core => i = .powerGate core
  | .coreWake core => i = .coreWake core
  | .thermalRunaway row => i = .thermalRunaway row
  | .powerInterval => i = .powerInterval
  | .voltageGlitch => i = .voltageGlitch
  | .clockGlitch => i = .clockGlitch
  | .tamperLoopOpen => i = .tamperLoopOpen
  | .chrysalisAlarm src tenants => i = .chrysalisAlarm src tenants
  | .chalcfgWrite v => i = .chalcfgWrite v
  | .challogClear => i = .challogClear
  | .attestationReport nonce => i = .attestationReport nonce
  | .chrysalisBoot sigOk version hash => i = .chrysalisBoot sigOk version hash
  | .reset => i = .reset
  | .stopByLomter lpn slot => i = .stopByLomter lpn slot
  | .slotRestart lpn slot release => i = .slotRestart lpn slot release
  | .thaw core => i = .thaw core
  | .jobEnd job => i = .jobEnd job
  | .bronexLinkUp link domain => i = .bronexLinkUp link domain
  | .rowSensorReading row temp pwr => i = .rowSensorReading row temp pwr

/-! ## Commits and returns (06, 07) -/

/-- A committing chunk that wrote one line of a local memory by one aligned store to plain bytes, and has no view access. -/
structure OneStore (s : State) (c : Chunk) (st : Store) : Prop where
  stores : c.stores = [st]
  line : c.writes = [.loc st.space (st.addr / 256)]
  own : st.paged = false
  size : st.size = 1 ∨ st.size = 2 ∨ st.size = 4 ∨ st.size = 8
  aligned : st.addr % st.size = 0
  low : 0x4000 ≤ st.addr
  high : st.addr + st.size ≤ imageTop (s.proc st.space).lmmap
  views : c.pushes = [] ∧ c.pops = []

/-- A commit of these lines conflicts with another one that a domain holds or queues: both name a line that one of them writes, or
the other is a solo attempt, which lets no other party write (R140, R143). -/
def ConflictsWith (rs ws : List Line) (k : Held) : Prop :=
  (k.solo = true ∧ ws ≠ []) ∨ ∃ l, (l ∈ ws ∧ (l ∈ k.reads ∨ l ∈ k.writes)) ∨ (l ∈ k.writes ∧ l ∈ rs)

/-- A landing entry of a thread, the first with an identity, which names no element of an engine and no probe of a matrix store. -/
structure Awaits (s : State) (w : Who) (id : Nat) (e : Landing) : Prop where
  entry : (s.slot w).arch.landing.find? (fun l => l.id == id) = some e
  copies : s.copyOf id = none
  streams : s.streamOf id = none
  probes : s.probes id w = false

/-- The result of a landing entry has come, and is held there until its window closes; no register has changed (R165). -/
def Returned (s t : State) (w : Who) (id : Nat) (r : Landed) : Prop :=
  (t.slot w).arch = { (s.slot w).arch with landing := (s.slot w).arch.landing.map fun l => if l.id = id then { l with res := r } else l } ∧
    t.mem = s.mem

/-! ## The issue of a bundle (07, 08, 14) -/

/-- A thread that is ready, with nothing that stands between it and its next bundle: nothing uncommitted or to land, no trap, delivery,
held message, push or earlier part of a bundle, and no error in what its issue reads; no register view and no handler bank is on. -/
structure ReadyToIssue (s : State) (w : Who) : Prop where
  quiet : (s.slot w).Quiet
  fresh : (s.slot w).wait = none ∧ (s.slot w).latch = none ∧ (s.slot w).fetch = [] ∧ (s.slot w).heldMsgs = [] ∧ (s.slot w).pushq = [] ∧
    (s.slot w).cut = none ∧ (s.slot w).solo = none ∧ (s.slot w).park = none ∧ (s.slot w).ending = none
  sound : s.errs = [] ∧ s.soft = []
  slice : s.inSlice w = false
  mask : (s.slot w).maskOver = false
  user : (s.slot w).deliverable = false
  views : ∀ r : Reg, (s.slot w).field r = .gen
  past : (s.slot w).arch.past = false
  area : (s.slot w).priv = 2 ∨ hwArea (s.proc w.lpn).lmmap (s.slot w).arch.pc.toNat = false
  whole : s.locBad w.lpn (s.slot w).priv (s.slot w).arch.pc.toNat 8 = false

/-- The bundle's dword at a thread's PC (R20, R181). -/
def State.dwordAtPc (s : State) (w : Who) : W64 := w64 (s.locRead w.lpn (s.slot w).priv (s.slot w).arch.pc.toNat 8)

/-- The state in which the words of a bundle are performed: the thread is the running one, its operands and predicates are those of
the bundle's start, its next PC is the next bundle's, and its chunk is open unless the bundle stands in a chunk of its own: as a boundary
operation, or as an access with a false guard that would (R132, R144, R178, R179, R246). Limits count from the bundle's first issue
(R68). Nothing else has changed. -/
structure Prepared (s m : State) (w : Who) (b : Bundle) (v : W64) : Prop where
  cur : m.cur = w
  word : m.bword = v
  opnd : ∀ r : Reg, m.rd r = if r = 0 then 0 else (s.slot w).arch.rd r
  preds : m.opw = (s.slot w).arch.pw
  round : m.orm.toNat = fld 2 0 (s.slot w).arch.fcsr ∧ m.osat = tb 3 (s.slot w).arch.fcsr
  alone : m.alone = true → b.a.boundary = false ∧ acts (s.slot w).arch.pw b.a = false
  next : m.npc = (s.slot w).arch.pc + 8 ∧ m.taken = false ∧ m.bst = .run ∧ m.leaving = none
  slot : m.slot w = { (if b.a.boundary || m.alone then s.slot w else (s.slot w).openChunk) with
    issued := some ((s.slot w).issued.getD (s.proc w.lpn).time) }
  slots : ∀ x : Who, x ≠ w → m.slot x = s.slot x
  procs : ∀ l, { m.proc l with slots := [] } = { s.proc l with slots := [] }
  rest : { m with procs := [], cur := s.cur, bword := s.bword, opnd := s.opnd, opw := s.opw, orm := s.orm, npc := s.npc, taken := s.taken,
                  bst := s.bst, bpops := s.bpops, alone := s.alone, osat := s.osat, useg := s.useg, leaving := s.leaving, free := s.free } = { s with procs := [] }

/-! ## Pre-emption (18 R394) -/

/-- RUN of a slot (R394). -/
def runOf (t : Slot) : Nat := fld 63 32 t.regs.quantum

/-- A slot is a candidate while the ready queue holds just record r (R394). -/
structure IsCandidate (p : Proc) (r : Ready) (n : Nat) : Prop where
  slot : n < 15
  limit : fld 31 0 (p.slot n).regs.quantum ≠ 0 ∧ fld 31 0 (p.slot n).regs.quantum ≤ runOf (p.slot n)
  bits : (p.slot n).inTrap = false ∧ (p.slot n).inUser = false
  st : (p.slot n).st = .ready ∨ (p.slot n).st = .waiting ∨ (p.slot n).st = .parked
  level : r.level ≤ (p.slot n).pri.toNat
  room : ∃ m, m < 15 ∧ m ≠ n ∧ tb (16 + m) p.taskcfg = true ∧ (p.slot m).reserved = false

/-! ## The dispenser and launches (18) -/

/-- No cache holds a sector: what the dispenser reads and writes stands in memory. -/
structure NothingCached (s : State) : Prop where
  sectors : s.secs = []
  stashes : ∀ e ∈ s.cores, e.2.stash = []

/-- A launch record has no pointer but perhaps that of one of its dwords. -/
def OnlyPointer (r : List W64) (i : Nat) : Prop := ∀ k, k = 6 ∨ k = 7 ∨ k = 8 → k ≠ i → r.getD k 0 = 0

/-- The head record of hardware queue slot k, the only slot: the slot is served, its ring holds record r, and no cancel covers it. -/
structure OnlyHead (s : State) (k : Nat) (q : DQ) (r : List W64) : Prop where
  one : s.dqs = [(k, q)]
  index : k < 1024
  enabled : tb 32 q.cfg = true
  holds : fld 15 0 q.ptr % 2 ^ fld 31 28 q.cfg ≠ fld 31 16 q.ptr % 2 ^ fld 31 28 q.cfg
  record : s.dqRecord q (fld 15 0 q.ptr % 2 ^ fld 31 28 q.cfg) = some r
  kept : q.drop = []

/-- HEAD of a slot has moved on by one record, in its ring; TAIL and the mapping are as before (R376). -/
def HeadMoved (s t : State) (k : Nat) : Prop :=
  let q := s.dq k
  let p := (t.dq k).ptr
  fld 15 0 p = (fld 15 0 q.ptr + 1) % 2 ^ fld 31 28 q.cfg ∧ fld 63 16 p = fld 63 16 q.ptr ∧ (t.dq k).cfg = q.cfg ∧ (t.dq k).dep = none

/-- A launch has begun: it has the lowest LID that no launch of its job uses, it waits for its cores, its job counts it, and a wake with
its record is on its way to each of its cores (R379, R171, R173). -/
def Begun (s t : State) (r : List W64) (job : BitVec 16) (vmid : BitVec 8) (lid : Nat) (cs : List Nat) (foreign : Bool) : Prop :=
  (∃ l, t.launches = s.launches ++ [l] ∧ l.lid = lid ∧ l.job = job ∧ l.vmid = vmid ∧ l.rcd = r ∧ l.st = 0 ∧ l.counter = 0 ∧
    l.engines = 0 ∧ l.starting = cs.length ∧ l.foreign = foreign ∧
    ∀ c ∈ cs, ∃ i x, t.item i = some (.wake c x) ∧ x.lid = lid ∧ x.job = job ∧ x.vmid = vmid ∧ x.rcd = r ∧ x.launch = l.id ∧
      .launchWake i ∈ t.agenda) ∧
  spGet 0 t.jobs (vmid.toNat * 65536 + job.toNat) = spGet 0 s.jobs (vmid.toNat * 65536 + job.toNat) + 1

/-! ## The invariant of every step -/

/-- The memory is in its canonical form. -/
def State.Inv (s : State) : Prop := Memory.wf s.mem = true

end Sys2Proof.Machine
end

