-- ==== Sys2Proof/Certificates/Slice0/Obligations.lean ====
section
/-!
DEFINITION. The statements for the provers. Each docstring cites the rules of spec/ that the statement formalises; a
statement that rests on a choice of this model names its log entry. A statement over several families is the conjunction of
its clauses, each a definition of its own.
-/

open Sys2Proof Sys2Proof.Machine

/-- ADD, SUB, MUL, MULH, MULHU, DIV, DIVU, REM, REMU complete in every state: at width 64 or 32 they write the sum, the
difference, the low or high half of the product, the quotient truncated toward zero or the remainder, with all ones and x
for a zero divisor; a false guard leaves everything as it is (R204, R205). -/
def Clause.IntegerArithmetic : Prop :=
  ∀ (r : BR) (s : State),
    Guarded (.add r) r.g s (fun t => Wrote s t r.d (atWidth r s fun x y => x + y)) ∧
    Guarded (.sub r) r.g s (fun t => Wrote s t r.d (atWidth r s fun x y => x - y)) ∧
    Guarded (.mul r) r.g s (fun t => Wrote s t r.d (atWidth r s fun x y => x * y)) ∧
    Guarded (.mulh r) r.g s (fun t => Wrote s t r.d
      (atWidth r s fun {w} x y => BitVec.ofInt w (x.toInt * y.toInt / 2 ^ w))) ∧
    Guarded (.mulhu r) r.g s (fun t => Wrote s t r.d
      (atWidth r s fun {w} x y => BitVec.ofNat w (x.toNat * y.toNat / 2 ^ w))) ∧
    Guarded (.div r) r.g s (fun t => Wrote s t r.d
      (atWidth r s fun {w} x y => if y = 0#w then BitVec.allOnes w else BitVec.sdiv x y)) ∧
    Guarded (.divu r) r.g s (fun t => Wrote s t r.d
      (atWidth r s fun {w} x y => if y = 0#w then BitVec.allOnes w else x / y)) ∧
    Guarded (.rem r) r.g s (fun t => Wrote s t r.d
      (atWidth r s fun {w} x y => if y = 0#w then x else BitVec.srem x y)) ∧
    Guarded (.remu r) r.g s (fun t => Wrote s t r.d
      (atWidth r s fun {w} x y => if y = 0#w then x else x % y))

/-- AND, OR, XOR, ANDN, the shifts, ROR and the four minima and maxima complete in every state with the value of the R204
table at width 64 or 32; shift counts are y mod w; a false guard leaves everything as it is (R204). -/
def Clause.IntegerLogic : Prop :=
  ∀ (r : BR) (s : State),
    Guarded (.and r) r.g s (fun t => Wrote s t r.d (atWidth r s fun x y => x &&& y)) ∧
    Guarded (.or r) r.g s (fun t => Wrote s t r.d (atWidth r s fun x y => x ||| y)) ∧
    Guarded (.xor r) r.g s (fun t => Wrote s t r.d (atWidth r s fun x y => x ^^^ y)) ∧
    Guarded (.andn r) r.g s (fun t => Wrote s t r.d (atWidth r s fun x y => x &&& ~~~y)) ∧
    Guarded (.shl r) r.g s (fun t => Wrote s t r.d (atWidth r s fun {w} x y => x <<< (y.toNat % w))) ∧
    Guarded (.shr r) r.g s (fun t => Wrote s t r.d (atWidth r s fun {w} x y => x >>> (y.toNat % w))) ∧
    Guarded (.sar r) r.g s (fun t => Wrote s t r.d (atWidth r s fun {w} x y => BitVec.sshiftRight x (y.toNat % w))) ∧
    Guarded (.ror r) r.g s (fun t => Wrote s t r.d (atWidth r s fun {w} x y => x.rotateRight (y.toNat % w))) ∧
    Guarded (.min r) r.g s (fun t => Wrote s t r.d (atWidth r s fun x y => if x.toInt ≤ y.toInt then x else y)) ∧
    Guarded (.max r) r.g s (fun t => Wrote s t r.d (atWidth r s fun x y => if x.toInt ≤ y.toInt then y else x)) ∧
    Guarded (.minu r) r.g s (fun t => Wrote s t r.d (atWidth r s fun x y => if x.toNat ≤ y.toNat then x else y)) ∧
    Guarded (.maxu r) r.g s (fun t => Wrote s t r.d (atWidth r s fun x y => if x.toNat ≤ y.toNat then y else x))

/-- CLZ, CTZ and POPC count bits within the width; EXTR takes a field of x and INSR puts one into d, cut at w − 1 (R204,
R206). -/
def Clause.IntegerBits : Prop :=
  ∀ (r : BR) (s : State),
    Guarded (.clz r) r.g s (fun t => Wrote s t r.d (atWidth r s fun {w} x _ =>
      BitVec.ofNat w (runLength (fun i => !x.getLsbD (w - 1 - i)) 0 w))) ∧
    Guarded (.ctz r) r.g s (fun t => Wrote s t r.d (atWidth r s fun {w} x _ =>
      BitVec.ofNat w (runLength (fun i => !x.getLsbD i) 0 w))) ∧
    Guarded (.popc r) r.g s (fun t => Wrote s t r.d (atWidth r s fun {w} x _ =>
      BitVec.ofNat w ((List.range w).countP fun i => x.getLsbD i))) ∧
    Guarded (.extr r) r.g s (fun t => Wrote s t r.d (atWidth r s fun {w} x y =>
      (x >>> (y.toNat % 64)) &&& maskAt w 0 (min (y.toNat / 256 % 128) w))) ∧
    Guarded (.insr r) r.g s (fun t => Wrote s t r.d (atWidth r s fun {w} x y =>
      let m := maskAt w (y.toNat % 64) (min (y.toNat / 256 % 128) w)
      ((s.rd r.d).setWidth w &&& ~~~m) ||| ((x <<< (y.toNat % 64)) &&& m)))

/-- The integer register words: arithmetic, logic and shifts, bit counts and fields (the clauses say what each does and cite its rules). -/
def Obligations.IntegerWords : Prop :=
  Clause.IntegerArithmetic ∧ Clause.IntegerLogic ∧ Clause.IntegerBits

/-- The instructions with an immediate complete in every state: ADDI, ANDI, ORI and XORI with the sign-extended imm10, the
shifts by imm[5:0], MOVI with the sign-extended imm16, and MOVH, which shifts d up by 16 (R207, R208). -/
def Clause.Immediates : Prop :=
  (∀ (r : BI) (s : State),
    Guarded (.addi r) r.g s (fun t => Wrote s t r.d (s.rd r.a + r.imm.signExtend 64)) ∧
    Guarded (.andi r) r.g s (fun t => Wrote s t r.d (s.rd r.a &&& r.imm.signExtend 64)) ∧
    Guarded (.ori r) r.g s (fun t => Wrote s t r.d (s.rd r.a ||| r.imm.signExtend 64)) ∧
    Guarded (.xori r) r.g s (fun t => Wrote s t r.d (s.rd r.a ^^^ r.imm.signExtend 64)) ∧
    Guarded (.shli r) r.g s (fun t => Wrote s t r.d (s.rd r.a <<< (r.imm.toNat % 64))) ∧
    Guarded (.shri r) r.g s (fun t => Wrote s t r.d (s.rd r.a >>> (r.imm.toNat % 64))) ∧
    Guarded (.sari r) r.g s (fun t => Wrote s t r.d ((s.rd r.a).sshiftRight (r.imm.toNat % 64))) ∧
    Guarded (.rori r) r.g s (fun t => Wrote s t r.d ((s.rd r.a).rotateRight (r.imm.toNat % 64)))) ∧
  (∀ (r : BK) (s : State),
    Guarded (.movi r) r.g s (fun t => Wrote s t r.d (r.imm.signExtend 64)) ∧
    Guarded (.movh r) r.g s (fun t => Wrote s t r.d ((s.rd r.d <<< 16) ||| r.imm.zeroExtend 64)))

/-- CMP and CMPI write the test of their condition to pd; the predicate operations write their result to p[d]; RDPW and
WRPW move pw, whose bit 0 reads 1; SEL takes a or b by the predicate that fn names. A false guard leaves everything as it
is, and a write of p0 is discarded (R193, R209 to R211). -/
def Clause.PredicateResults : Prop :=
  (∀ (r : BC) (s : State), r.cond.toNat < 12 →
    Guarded (.cmp r) r.g s (fun t => ∃ b, (b = true ↔ condHolds r.cond (s.rd r.a) (s.rd r.b)) ∧ WrotePred s t r.pd b) ∧
    Guarded (.cmpi r) r.g s (fun t => ∃ b, (b = true ↔ condHolds r.cond (s.rd r.a) (r.b.signExtend 64)) ∧ WrotePred s t r.pd b)) ∧
  (∀ (r : BR) (s : State),
    let p (q : Reg) : Bool := q.toNat % 8 == 0 || s.opw.getLsbD (q.toNat % 8)
    let d : Sys2Proof.Pred := r.d.setWidth 3
    Guarded (.pand r) r.g s (fun t => WrotePred s t d (p r.a && p r.b)) ∧
    Guarded (.pandn r) r.g s (fun t => WrotePred s t d (p r.a && !p r.b)) ∧
    Guarded (.por r) r.g s (fun t => WrotePred s t d (p r.a || p r.b)) ∧
    Guarded (.pxor r) r.g s (fun t => WrotePred s t d (xor (p r.a) (p r.b))) ∧
    Guarded (.pnot r) r.g s (fun t => WrotePred s t d (!p r.a)) ∧
    Guarded (.rdpw r) r.g s (fun t => Wrote s t r.d ((s.opw ||| 1#8).zeroExtend 64)) ∧
    Guarded (.wrpw r) r.g s (fun t => OnlyMe s t ∧ t.me.arch.pw = ((s.rd r.a).setWidth 8 ||| 1#8) ∧
      { t.me with arch := { t.me.arch with pw := s.me.arch.pw } } = s.me) ∧
    Guarded (.sel r) r.g s (fun t => Wrote s t r.d (if r.fn.toNat % 8 == 0 || s.opw.getLsbD (r.fn.toNat % 8) then s.rd r.a else s.rd r.b)))

/-- Immediates, conditional selects and the words that write predicates (the clauses say what each does and cite its rules). -/
def Obligations.ImmediateAndPredicateWords : Prop :=
  Clause.Immediates ∧ Clause.PredicateResults

/-- The lane instructions complete in every state with an element type i8 to n32: each lane of the result is computed alone
from the same lane of a and b, and the lanes are joined into d; VSPLAT copies lane 0 of a; a false guard leaves everything as
it is. The b of a VSPLAT is g0 and its sb is zero (R212). -/
def Clause.SimdLanes : Prop :=
  ∀ (r : BR) (s : State), r.fn.toNat < 6 →
    let u := elemU r.fn
    Guarded (.vadd r) r.g s (fun t => WroteLanes s t r fun x y => x + y) ∧
    Guarded (.vadds r) r.g s (fun t => WroteLanes s t r fun {e} x y => clampLane u e (laneVal u x + laneVal u y)) ∧
    Guarded (.vsub r) r.g s (fun t => WroteLanes s t r fun x y => x - y) ∧
    Guarded (.vsubs r) r.g s (fun t => WroteLanes s t r fun {e} x y => clampLane u e (laneVal u x - laneVal u y)) ∧
    Guarded (.vmul r) r.g s (fun t => WroteLanes s t r fun x y => x * y) ∧
    Guarded (.vmulh r) r.g s (fun t => WroteLanes s t r fun {e} x y => BitVec.ofInt e (laneVal u x * laneVal u y / 2 ^ e)) ∧
    Guarded (.vmin r) r.g s (fun t => WroteLanes s t r fun x y => if laneVal u x ≤ laneVal u y then x else y) ∧
    Guarded (.vmax r) r.g s (fun t => WroteLanes s t r fun x y => if laneVal u x ≤ laneVal u y then y else x) ∧
    Guarded (.vavg r) r.g s (fun t => WroteLanes s t r fun {e} x y => BitVec.ofInt e ((laneVal u x + laneVal u y + 1) / 2)) ∧
    Guarded (.vabsd r) r.g s (fun t => WroteLanes s t r fun {e} x y => BitVec.ofNat e (laneVal u x - laneVal u y).natAbs) ∧
    Guarded (.vshl r) r.g s (fun t => WroteLanes s t r fun {e} x y => x <<< (y.toNat % e)) ∧
    Guarded (.vshr r) r.g s (fun t => WroteLanes s t r fun {e} x y =>
      if u then x >>> (y.toNat % e) else x.sshiftRight (y.toNat % e)) ∧
    Guarded (.vcmpeq r) r.g s (fun t => WroteLanes s t r fun {e} x y => if x = y then BitVec.allOnes e else 0#e) ∧
    Guarded (.vcmpgt r) r.g s (fun t => WroteLanes s t r fun {e} x y =>
      if laneVal u y < laneVal u x then BitVec.allOnes e else 0#e) ∧
    Guarded (.vsplat r) r.g s (fun t => ∃ v : W64, Wrote s t r.d v ∧
      ∀ k, k < 64 / elemW r.fn → laneOf (elemW r.fn) k v = laneOf (elemW r.fn) 0 (s.rd r.a)) ∧
    ((Instr.vsplat r).wf = true → r.b = 0 ∧ r.sb = false)

/-- VPACK clamps the wide lanes of a, then of b, to the narrow type; VUNPK extends the low half of a's narrow lanes to wide
ones; the b of a VUNPK is g0 and its sb is zero. Neither is well-formed for i32 and n32, so that both take ILLOP (R213). -/
def Clause.SimdWidths : Prop :=
  (∀ r : BR, 4 ≤ r.fn.toNat → (Instr.vpack r).wf = false ∧ (Instr.vunpk r).wf = false) ∧
  ∀ (r : BR) (s : State), r.fn.toNat < 4 →
    let u := elemU r.fn
    let e := elemW r.fn
    Guarded (.vpack r) r.g s (fun t => ∃ v : W64, Wrote s t r.d v ∧
      (∀ k, k < 32 / e → laneOf e k v = clampLane u e (laneVal u (laneOf (2 * e) k (s.rd r.a)))) ∧
      (∀ k, k < 32 / e → laneOf e (32 / e + k) v = clampLane u e (laneVal u (laneOf (2 * e) k (s.rd r.b))))) ∧
    Guarded (.vunpk r) r.g s (fun t => ∃ v : W64, Wrote s t r.d v ∧
      ∀ k, k < 32 / e → laneOf (2 * e) k v = BitVec.ofInt (2 * e) (laneVal u (laneOf e k (s.rd r.a)))) ∧
    ((Instr.vunpk r).wf = true → r.b = 0 ∧ r.sb = false)

/-- Vector integer words, lane by lane (the clauses say what each does and cite its rules). -/
def Obligations.VectorWords : Prop :=
  Clause.SimdLanes ∧ Clause.SimdWidths

/-- The float arithmetic of word B completes in every state: each lane decodes its operands, takes the exact sum, difference,
product, quotient, root or fused product, and rounds once under the mode read at the start of the bundle; NaN operands give the
canonical NaN; FMIN and FMAX return an operand, FNEG and FABS change the sign bit alone; the flags of all lanes are ORed into
FCSR, and nothing else changes (R280, R286, R287, R289, R292 to R294). -/
def Clause.FloatArithmetic : Prop :=
  ∀ (r : BR) (s : State),
    let f := fnFmt r.fn
    let x (k : Nat) : Nat := lane f.width k (s.rd r.a)
    let y (k : Nat) : Nat := lane f.width k (s.rd r.b)
    let z (k : Nat) : Nat := lane f.width k (s.rd r.d)
    let one (ex : FV → FV → FV × Nat) (k : Nat) : Nat × Nat := roundedLane f s.mode s.sat ex (x k) (y k)
    Guarded (.fadd r) r.g s (fun t => WroteFloat s t r (one (addF s.mode))) ∧
    Guarded (.fsub r) r.g s (fun t => WroteFloat s t r (one fun a b => addF s.mode a b.neg)) ∧
    Guarded (.fmul r) r.g s (fun t => WroteFloat s t r (one mulF)) ∧
    Guarded (.fdiv r) r.g s (fun t => WroteFloat s t r (one divF)) ∧
    Guarded (.fsqrt r) r.g s (fun t => WroteFloat s t r fun k =>
      let a := f.decode (x k)
      ((round f s.mode s.sat (sqrtF a).1).1,
        (round f s.mode s.sat (sqrtF a).1).2 ||| (sqrtF a).2 ||| (if a.isSig then fNV else 0))) ∧
    Guarded (.fma r) r.g s (fun t => WroteFloat s t r fun k =>
      let a := f.decode (x k)
      let b := f.decode (y k)
      let c := f.decode (z k)
      let e := fmaF s.mode a b c
      ((round f s.mode s.sat e.1).1,
        (round f s.mode s.sat e.1).2 ||| e.2 ||| (if a.isSig || b.isSig || c.isSig then fNV else 0))) ∧
    Guarded (.fmin r) r.g s (fun t => WroteFloat s t r fun k => laneMM false f (x k) (y k)) ∧
    Guarded (.fmax r) r.g s (fun t => WroteFloat s t r fun k => laneMM true f (x k) (y k)) ∧
    Guarded (.fneg r) r.g s (fun t => WroteFloat s t r fun k =>
      if (f.decode (x k)).isNan then (f.canon, if (f.decode (x k)).isSig then fNV else 0) else (x k ^^^ f.signBit, 0)) ∧
    Guarded (.fabs r) r.g s (fun t => WroteFloat s t r fun k =>
      if (f.decode (x k)).isNan then (f.canon, if (f.decode (x k)).isSig then fNV else 0) else (x k % f.signBit, 0))

/-- FCMP writes the truth of its condition to pd and raises NV for a NaN as the table of R295 says; FCLASS writes a mask in
which exactly one of bits 9:0 is set, bit 8 for a signalling NaN and bit 9 for a quiet one, and raises no flag (R295, R296). -/
def Clause.FloatCompare : Prop :=
  (∀ (r : BF) (s : State),
    let f := fnFmt r.fmt
    let a := f.decode (lane f.width 0 (s.rd r.a))
    let b := f.decode (lane f.width 0 (s.rd r.b))
    let nan := a.isNan || b.isNan
    let sig := a.isSig || b.isSig
    Guarded (.fcmp r) r.g s (fun t => ∃ (m : State) (p nv : Bool), WrotePred s m r.pd p ∧ RaisedFlags m t (if nv then 0x200 else 0) ∧
      (r.cond = 0 → nv = sig ∧ (p = true ↔ nan = false ∧ cmpF false a b = 0)) ∧
      (r.cond = 1 → nv = nan ∧ (p = true ↔ nan = false ∧ cmpF false a b < 0)) ∧
      (r.cond = 2 → nv = nan ∧ (p = true ↔ nan = false ∧ cmpF false a b ≤ 0)) ∧
      (r.cond = 3 → nv = sig ∧ p = nan))) ∧
  (∀ (r : BR) (s : State),
    let f := fnFmt r.fn
    let x := lane f.width 0 (s.rd r.a)
    Guarded (.fclass r) r.g s (fun t => ∃ i, i < 10 ∧ Wrote s t r.d (w64 (2 ^ i)) ∧
      (i = 8 ↔ f.decode x = .nan true) ∧ (i = 9 ↔ f.decode x = .nan false) ∧ (i = 0 ↔ f.decode x = .inf true) ∧
      (i = 7 ↔ f.decode x = .inf false)))

/-- FCVT between integer types clamps to the range of dst and sets NV when it clamps; from a float it gives 0 and NV for a
NaN, and the end of the range and NV for an infinity; it changes nothing but d and the flags (R297). -/
def Clause.Conversions : Prop :=
  ∀ (r : BV) (s : State), r.src.toNat < 12 → r.dst.toNat < 12 →
    Guarded (.fcvt r) r.g s (fun t => ∃ (m : State) (v : W64) (fl : Nat), Wrote s m r.d v ∧ RaisedFlags m t fl ∧
      (8 ≤ r.src.toNat → 8 ≤ r.dst.toNat →
        let lo := (intRange r.dst.toNat).2.1
        let hi := (intRange r.dst.toNat).2.2
        let n := intOf r.src.toNat (s.rd r.a)
        v = BitVec.ofInt 64 (max lo (min n hi)) ∧ (fl = 0x200 ↔ n < lo ∨ hi < n) ∧ (fl = 0 ↔ lo ≤ n ∧ n ≤ hi)) ∧
      (r.src.toNat < 8 → 8 ≤ r.dst.toNat →
        let f := Fmt.ofCode r.src.toNat
        let a := f.decode ((s.rd r.a).toNat % 2 ^ f.width)
        (a.isNan = true → v = 0 ∧ fl = 0x200) ∧
        (a = .inf false → v = BitVec.ofInt 64 (intRange r.dst.toNat).2.2 ∧ fl = 0x200) ∧
        (a = .inf true → v = BitVec.ofInt 64 (intRange r.dst.toNat).2.1 ∧ fl = 0x200)) ∧
      (r.src.toNat < 8 → r.dst.toNat < 8 → v.toNat < 2 ^ (Fmt.ofCode r.dst.toNat).width))

/-- A conversion to the same format returns every value that is no NaN unchanged and raises no flag: in each of the eight
formats, rounding the value of an encoding under any mode gives that encoding back (R286, R297). -/
def Clause.SameFormat : Prop :=
  ∀ (c : Nat) (rm : BitVec 3) (sat : Bool) (x : Nat), c < 8 → x < 2 ^ (Fmt.ofCode c).width →
    ((Fmt.ofCode c).decode x).isNan = false → round (Fmt.ofCode c) rm.toNat sat ((Fmt.ofCode c).decode x) = (x, 0)

/-- Float arithmetic, comparisons and conversions (the clauses say what each does and cite its rules). -/
def Obligations.FloatWords : Prop :=
  Clause.FloatArithmetic ∧ Clause.FloatCompare ∧ Clause.Conversions ∧ Clause.SameFormat

/-- BR, JMP, CALL and JR with a target that passes the check complete: the bundle continues at the target, CALL and JR write
the link PC + 8 to d, and nothing else changes (R215, R216). -/
def Clause.Transfers : Prop :=
  ∀ s : State,
    let link : W64 := w64 ((s.pcNat + 8) % 2 ^ 20)
    (∀ r : AB, let tgt : Int := s.pcNat + 8 * r.disp.toInt
      TargetOk s tgt → Guarded (.br r) r.g s (fun t => Jumped s t tgt.toNat)) ∧
    (∀ r : AB, TargetOk s (8 * r.disp.toNat : Nat) → Guarded (.jmp r) r.g s (fun t => Jumped s t (8 * r.disp.toNat))) ∧
    (∀ r : AC, let tgt : Int := s.pcNat + 8 * (match r.x with | some e => e.toInt | none => r.disp.toInt)
      TargetOk s tgt → Guarded (.call r) r.g s (fun t => ∃ m, Wrote s m r.d link ∧ Jumped m t tgt.toNat)) ∧
    (∀ r : AR, (s.rd r.a).toNat % 8 = 0 → TargetOk s (s.rd r.a).toNat →
      Guarded (.jr r) r.g s (fun t => ∃ m, Wrote s m r.d link ∧ Jumped m t (s.rd r.a).toNat))

/-- A transfer whose target fails the check traps with SEGV reason 7 and the target's address in TADDR, and JR with a target
that is no multiple of 8 traps with ALIGN, in a thread with nothing uncommitted; the link is not written, and the trap is
entered as R322 says (R215, R216, R322). -/
def Clause.BadTargets : Prop :=
  ∀ s : State, s.me.Quiet → s.me.inTrap = false →
    let bad (tgt : Int) (t : State) : Prop :=
      t.bst = .stop ∧ TookTrap s.me t.me 3 0 7 (BitVec.ofInt 64 (((Config.wbase + s.cur.lpn * 2 ^ 20) % 2 ^ 56 : Nat) + tgt))
    (∀ r : AB, let tgt : Int := s.pcNat + 8 * r.disp.toInt
      ¬ TargetOk s tgt → Guarded (.br r) r.g s (bad tgt)) ∧
    (∀ r : AB, ¬ TargetOk s (8 * r.disp.toNat : Nat) → Guarded (.jmp r) r.g s (bad (8 * r.disp.toNat : Nat))) ∧
    (∀ r : AC, let tgt : Int := s.pcNat + 8 * (match r.x with | some e => e.toInt | none => r.disp.toInt)
      ¬ TargetOk s tgt → Guarded (.call r) r.g s (bad tgt)) ∧
    (∀ r : AR, (s.rd r.a).toNat % 8 = 0 → ¬ TargetOk s (s.rd r.a).toNat → Guarded (.jr r) r.g s (bad (s.rd r.a).toNat)) ∧
    (∀ r : AR, (s.rd r.a).toNat % 8 ≠ 0 →
      Guarded (.jr r) r.g s (fun t => t.bst = .stop ∧ TookTrap s.me t.me 4 0 0 (s.rd r.a)))

/-- Control transfers, and targets that trap (the clauses say what each does and cite its rules). -/
def Obligations.ControlTransfers : Prop :=
  Clause.Transfers ∧ Clause.BadTargets

/-- LOOP and LOOPI with a count other than 0 set up loop lc: its count, its start at the next bundle, its end bl bundles on,
A = 1 and N = 1, and N = 0 in the other loop; with count 0 they skip the body. Nothing else changes (R217, R219). -/
def Clause.LoopSetup : Prop :=
  ∀ s : State,
    let set (lc : Bool) (c bl : Nat) (t : State) : Prop :=
      OnlyMe s t ∧
      (∀ x y : Slot, x = s.me → y = t.me →
        let own (a : Arch) : W64 × W64 := if lc then (a.lc1, a.ls1) else (a.lc0, a.ls0)
        let other (a : Arch) : W64 × W64 := if lc then (a.lc0, a.ls0) else (a.lc1, a.ls1)
        (own y.arch).1 = w64 c ∧ fld 19 0 (own y.arch).2 = (s.pcNat + 8) % 2 ^ 20 ∧
        fld 39 20 (own y.arch).2 = (s.pcNat + 8 * (bl + 1)) % 2 ^ 20 ∧ tb 40 (own y.arch).2 = true ∧
        tb 41 (own y.arch).2 = true ∧ (other y.arch).1 = (other x.arch).1 ∧
        (∀ i, tb i (other y.arch).2 = if i = 41 then false else tb i (other x.arch).2) ∧
        { y with arch := { y.arch with lc0 := x.arch.lc0, ls0 := x.arch.ls0, lc1 := x.arch.lc1, ls1 := x.arch.ls1 } } = x)
    let skip (bl : Nat) : Nat := s.pcNat + 8 * (bl + 2)
    (∀ r : LoopR, (s.rd r.a).toNat % 2 ^ 32 ≠ 0 → Completes (.loop r) s (set r.lc ((s.rd r.a).toNat % 2 ^ 32) r.bl.toNat)) ∧
    (∀ r : LoopR, (s.rd r.a).toNat % 2 ^ 32 = 0 → TargetOk s (skip r.bl.toNat) →
      Completes (.loop r) s (fun t => Jumped s t (skip r.bl.toNat))) ∧
    (∀ r : LoopI, r.count ≠ 0 → Completes (.loopi r) s (set r.lc r.count.toNat r.bl.toNat)) ∧
    (∀ r : LoopI, r.count = 0 → TargetOk s (skip r.bl.toNat) → Completes (.loopi r) s (fun t => Jumped s t (skip r.bl.toNat)))

/-- The end check: after a bundle that ends an active loop with more than one iteration left, and ends no other active loop, the
thread goes on at the loop's start with its count one lower; on the last iteration the loop becomes inactive with count 0 and the
next bundle follows; a bundle that ends no active loop changes no loop register (R218). -/
def Clause.LoopEnd : Prop :=
  ∀ (a : Arch) (one : Bool),
    let own (a : Arch) : W64 × W64 := if one then (a.lc1, a.ls1) else (a.lc0, a.ls0)
    let other (a : Arch) : W64 × W64 := if one then (a.lc0, a.ls0) else (a.lc1, a.ls1)
    let endsHere (l : W64) : Prop := tb 40 l = true ∧ fld 39 20 l = a.pc.toNat
    (endsHere (own a).2 → ¬ endsHere (other a).2 → 1 < fld 31 0 (own a).1 →
      (a.endChecks a.pc).2.map BitVec.toNat = some (fld 19 0 (own a).2) ∧
      (own (a.endChecks a.pc).1).1.toNat = fld 31 0 (own a).1 - 1 ∧ (own (a.endChecks a.pc).1).2 = (own a).2 ∧
      other (a.endChecks a.pc).1 = other a) ∧
    (endsHere (own a).2 → ¬ endsHere (other a).2 → fld 31 0 (own a).1 ≤ 1 →
      (a.endChecks a.pc).2 = none ∧ (own (a.endChecks a.pc).1).1 = 0 ∧ tb 40 (own (a.endChecks a.pc).1).2 = false ∧
      other (a.endChecks a.pc).1 = other a) ∧
    (¬ endsHere (own a).2 → ¬ endsHere (other a).2 → a.endChecks a.pc = (a, none))

/-- Hardware loops: setting up and going back (the clauses say what each does and cite its rules). -/
def Obligations.Loops : Prop :=
  Clause.LoopSetup ∧ Clause.LoopEnd

/-- NOP and CHUNK change nothing when they are performed, whatever their guards; YIELD gives up the slot's next home position and
IFLUSH empties the fetch buffer, and they change nothing else (R80, R155, R197, R199). -/
def Clause.NoEffectWords : Prop :=
  (∀ (r : AR) (s : State),
    Completes (.nop r) s (fun t => t = s) ∧
    Guarded (.yield r) r.g s (fun t => OnlyMe s t ∧ t.me = { s.me with yields := 2 })) ∧
  (∀ (r : AQ) (s : State),
    Completes (.chunk r) s (fun t => t = s) ∧
    Guarded (.iflush r) r.g s (fun t => OnlyMe s t ∧ t.me = { s.me with fetch := [] }))

/-- HALT of a thread whose landings have landed and whose atomics are acknowledged marks the thread as ending and lets word B be
performed; at the end of its bundle, with nothing left to send, its slot becomes absent, and every byte of memory and every other slot
stay. With a landing still open or an atomic outstanding the thread waits and halts later. The core has no stream bound here (R156,
R159, R178, R198, R202, R316). -/
def Clause.Halts : Prop :=
  ∀ (r : AR) (s : State),
    (s.me.Quiet → s.me.atomics = [] →
      Guarded (.halt r) r.g s (fun t => OnlyMe s t ∧ t.me = { s.me with ending := some .halt })) ∧
    (s.me.Quiet → s.me.ending = some .halt → s.me.pushq = [] → s.myCore.streams = [] → s.bpops = [] → s.leaving = none →
      ∀ (was re : Bool) (a0 : Arch),
        let t := s.finish true was re a0
        (t.slot s.cur).st = .absent ∧ (t.slot s.cur).ending = none ∧ SameMem s t ∧ ∀ w : Who, w ≠ s.cur → t.slot w = s.slot w) ∧
    (s.me.arch.landing.any Landing.open = true →
      Guarded (.halt r) r.g s (fun t => t.bst = .stop ∧ t.me.st = .waiting ∧ t.me.arch = s.me.arch ∧ SameMem s t)) ∧
    (s.me.arch.landing.any Landing.open = false → s.me.atomics ≠ [] →
      Guarded (.halt r) r.g s (fun t => t.bst = .stop ∧ t.me.st = .waiting ∧ t.me.arch = s.me.arch ∧ SameMem s t))

/-- FENCE.H, FENCE.E and FENCE.P complete with nothing changed when nothing that they wait for is outstanding; with an atomic
unacknowledged FENCE.H and FENCE.P wait, and with a message unplaced FENCE.P waits (R156). -/
def Clause.Fences : Prop :=
  ∀ (r : AQ) (s : State),
    let waits (t : State) : Prop := t.bst = .stop ∧ t.me.st = .waiting ∧ t.me.arch = s.me.arch ∧ SameMem s t
    (s.me.atomics = [] → Completes (.fenceH r) s (fun t => t = s)) ∧
    (s.me.atomics ≠ [] → Guarded (.fenceH r) r.g s waits) ∧
    (s.myCore.copies = [] → s.myCore.streams = [] → s.myProc.inWait = [] → s.myProc.mx.queue = [] →
      Completes (.fenceE r) s (fun t => t = s)) ∧
    (s.me.atomics = [] → s.me.sends = [] → s.me.pushq = [] → Completes (.fenceP r) s (fun t => t = s)) ∧
    (s.me.atomics ≠ [] ∨ s.me.sends ≠ [] → Guarded (.fenceP r) r.g s waits)

/-- NOP, YIELD, CHUNK, IFLUSH, HALT and the fences (the clauses say what each does and cite its rules). -/
def Obligations.OrderingWords : Prop :=
  Clause.NoEffectWords ∧ Clause.Halts ∧ Clause.Fences

/-- SYSR of a register that the map names, at a privilege that may read it, writes its value to d and changes nothing else; of a
number that names no register it takes ILLOP with the bundle in TADDR, and below the register's privilege PRIV, whose TADDR value
is free (R329, R323; log 19). The traps are those of a thread with nothing uncommitted. -/
def Clause.SystemReads : Prop :=
  ∀ (r : AZ) (s : State),
    (∀ a, regAccess r.num.toNat = some a → a.read ≤ s.me.priv →
      Guarded (.sysr r) r.g s (fun t => Wrote s t r.d (s.readReg r.num.toNat))) ∧
    (s.me.Quiet → s.me.inTrap = false → regAccess r.num.toNat = none →
      Guarded (.sysr r) r.g s (fun t => t.bst = .stop ∧ TookTrap s.me t.me 1 0 0 s.bword)) ∧
    (s.me.Quiet → s.me.inTrap = false → (∃ a, regAccess r.num.toNat = some a ∧ s.me.priv < a.read) →
      Guarded (.sysr r) r.g s (fun t => t.bst = .stop ∧ ∃ x, TookTrap s.me t.me 2 0 0 x))

/-- SYSW of a plain register sets the fields that the privilege may write and keeps the others: the register reads back as the
merged value; every byte of memory, every general register, every predicate and every other slot stay as they are, but that a larger spill quota may let a thread that waits
for a send entry go on (R259, R329). -/
def Clause.SystemWrites : Prop :=
  ∀ (r : AZ) (s : State), r.num.toNat ∈ plainRegs → SyswOk s r.num.toNat (s.rd r.d) →
    Guarded (.sysw r) r.g s (fun t =>
      (∀ a, regAccess r.num.toNat = some a →
        t.readReg r.num.toNat = ((s.rd r.d &&& w64 (a.write s.me.priv)) ||| (s.readReg r.num.toNat &&& ~~~(w64 (a.write s.me.priv))))) ∧
      SameMem s t ∧ t.me.arch.regs = s.me.arch.regs ∧ t.me.arch.full = s.me.arch.full ∧ t.me.arch.pw = s.me.arch.pw ∧
      (∀ w : Who, w ≠ s.cur → (t.slot w).arch = (s.slot w).arch ∧ (t.slot w).regs = (s.slot w).regs ∧
        (r.num.toNat ≠ 0x102 → t.slot w = s.slot w)))

/-- SYSW takes ILLOP for a number that names no register, for a register that is read-only at every privilege, and for a set
reserved bit; it takes PRIV for a register that the privilege may not read or of which it may write no field. Nothing is written
(R329). -/
def Clause.SystemWriteTraps : Prop :=
  ∀ (r : AZ) (s : State), s.me.Quiet → s.me.inTrap = false →
    (regAccess r.num.toNat = none →
      Guarded (.sysw r) r.g s (fun t => t.bst = .stop ∧ TookTrap s.me t.me 1 0 0 s.bword ∧ SameMem s t)) ∧
    (∀ a, regAccess r.num.toNat = some a → a.read ≤ s.me.priv → a.readOnly = true →
      Guarded (.sysw r) r.g s (fun t => t.bst = .stop ∧ TookTrap s.me t.me 1 0 0 s.bword ∧ SameMem s t)) ∧
    (∀ a, regAccess r.num.toNat = some a → a.read ≤ s.me.priv → a.write s.me.priv ≠ 0 → s.rd r.d &&& ~~~(w64 a.fields) ≠ 0 →
      Guarded (.sysw r) r.g s (fun t => t.bst = .stop ∧ TookTrap s.me t.me 1 0 0 s.bword ∧ SameMem s t)) ∧
    (∀ a, regAccess r.num.toNat = some a → s.me.priv < a.read ∨ (a.readOnly = false ∧ a.write s.me.priv = 0) →
      Guarded (.sysw r) r.g s (fun t => t.bst = .stop ∧ (∃ x, TookTrap s.me t.me 2 0 0 x) ∧ SameMem s t))

/-- SYSR and SYSW, and the traps of a refused access (the clauses say what each does and cite its rules). -/
def Obligations.SystemRegisters : Prop :=
  Clause.SystemReads ∧ Clause.SystemWrites ∧ Clause.SystemWriteTraps

/-- SVC takes the SVC trap with n in TADDR and TPC = the bundle's offset + 8, at every privilege, and the rest of its bundle is
still performed; a thread in a handler halts instead, with its first trap's registers kept (R322, R330). -/
def Clause.ServiceCall : Prop :=
  ∀ (r : AR) (s : State), s.me.Quiet →
    (s.me.inTrap = false →
      Guarded (.svc r) r.g s (fun t => t.bst = s.bst ∧ SameMem s t ∧
        TookTrap { s.me with arch := { s.me.arch with pc := BitVec.ofNat 20 (s.pcNat + 8) } } t.me 15 0 0
          (w64 (r.a.toNat * 32 + r.b.toNat)))) ∧
    (s.me.inTrap = true →
      Guarded (.svc r) r.g s (fun t => t.me.st = .halted ∧ t.me.regs = s.me.regs ∧ SameMem s t ∧
        fld 55 48 t.myCore.faultlog = 15))

/-- ERET from a handler with a good TPC restores PRIV from SP, clears T, goes on at TPC as a taken transfer, and arms a resume
issue when P is set; the other trap registers, the general registers and memory keep their values. Outside a handler it takes
ILLOP (R325, R331). -/
def Clause.TrapReturn : Prop :=
  ∀ (r : AR) (s : State),
    (s.me.inTrap = true → TargetOk s s.me.regs.tpc.toNat →
      Guarded (.eret r) r.g s (fun t => t.npc.toNat = s.me.regs.tpc.toNat / 8 * 8 ∧ t.taken = true ∧
        t.me.priv = fld 4 3 s.me.regs.slotctl ∧ t.me.inTrap = false ∧ t.me.resume = tb 15 s.me.regs.tcause ∧
        t.me.regs.tpc = s.me.regs.tpc ∧ t.me.regs.taddr = s.me.regs.taddr ∧ t.me.regs.tprog = s.me.regs.tprog ∧
        t.me.arch = s.me.arch ∧ OnlyMe s { t with npc := s.npc, taken := s.taken })) ∧
    (s.me.Quiet → s.me.inTrap = false →
      Guarded (.eret r) r.g s (fun t => t.bst = .stop ∧ TookTrap s.me t.me 1 0 0 s.bword ∧ SameMem s t))

/-- RETU in the user handler with a good h0 clears H and goes on at h0[19:0]; the bank keeps its values. MSGMASK writes the old
MASK to d and sets MASK from b[8:0]. An h0 that is no multiple of 8 takes ALIGN, and outside the handler RETU takes ILLOP (R20, R273,
R274). -/
def Clause.UserInterruptWords : Prop :=
  ∀ (r : AR) (s : State),
    let h0 : Nat := (s.me.hbank[0]).toNat % 2 ^ 20
    (s.me.inUser = true → h0 % 8 = 0 → TargetOk s (h0 : Nat) →
      Guarded (.retu r) r.g s (fun t => t.npc.toNat = h0 ∧ t.taken = true ∧ t.me.inUser = false ∧
        t.me.hbank = s.me.hbank ∧ t.me.arch = s.me.arch ∧ OnlyMe s { t with npc := s.npc, taken := s.taken })) ∧
    (s.me.Quiet → s.me.inTrap = false → s.me.inUser = true → h0 % 8 ≠ 0 →
      Guarded (.retu r) r.g s (fun t => t.bst = .stop ∧ TookTrap s.me t.me 4 0 0 (w64 h0))) ∧
    (s.me.Quiet → s.me.inTrap = false → s.me.inUser = false →
      Guarded (.retu r) r.g s (fun t => t.bst = .stop ∧ TookTrap s.me t.me 1 0 0 s.bword)) ∧
    Guarded (.msgmask r) r.g s (fun t => ∃ m, Wrote s m r.d (w64 (fld 8 0 s.me.regs.uistat)) ∧ OnlyMe m t ∧
      fld 8 0 t.me.regs.uistat = fld 8 0 (s.rdB r.b r.x) ∧ fld 63 9 t.me.regs.uistat = fld 63 9 s.me.regs.uistat ∧
      { t.me with regs := { t.me.regs with uistat := m.me.regs.uistat } } = m.me)

/-- WAKE at G or M answers an open record that the privilege may answer: it writes 0 and the answer is on its way; with no such
record it writes 1; at U it takes PRIV (R332). -/
def Clause.WakeAnswers : Prop :=
  ∀ (r : AR) (s : State),
    let seq : BitVec 32 := BitVec.ofNat 32 (s.rd r.a).toNat
    let mayAnswer (k : Parked) : Prop := k.seq = seq ∧ (s.me.priv = 2 ∨ (k.kind ≤ 2 ∧ k.vmid = s.myProc.vmid))
    (s.me.priv ≠ 0 → (∃ k ∈ s.imago.parked, mayAnswer k) →
      Guarded (.wake r) r.g s (fun t => ∃ m, Wrote s m r.d 0 ∧
        t = { m with agenda := m.agenda ++ [.parkedAnswer seq (tb 0 (s.rd r.b))] })) ∧
    (s.me.priv ≠ 0 → (∀ k ∈ s.imago.parked, ¬ mayAnswer k) → Guarded (.wake r) r.g s (fun t => Wrote s t r.d 1)) ∧
    (s.me.Quiet → s.me.inTrap = false → s.me.priv = 0 →
      Guarded (.wake r) r.g s (fun t => t.bst = .stop ∧ ∃ x, TookTrap s.me t.me 2 0 0 x))

/-- SVC, ERET, RETU and the answers of parked faults (the clauses say what each does and cite its rules). -/
def Obligations.TrapsAndReturns : Prop :=
  Clause.ServiceCall ∧ Clause.TrapReturn ∧ Clause.UserInterruptWords ∧ Clause.WakeAnswers

/-- A low half is staged; a high half commits both halves of sg1 to sg7 at once, at G and M always, at U only to a segment that
grants nothing or that narrows the old one, else PRIV; sg0 and reserved bits take ILLOP (R16, R22, R23). -/
def Clause.SegmentCommit : Prop :=
  ∀ (n : BitVec 3) (v : W64) (s : State),
    let old : BitVec 128 := s.me.sg[n.toNat]'(n.isLt)
    let low : W64 := match s.me.stage with
      | some (k, x) => if k = n.toNat then x else old.setWidth 64
      | none => old.setWidth 64
    let new : BitVec 128 := v ++ low
    let narrows : Prop := segRights new = 0 ∨ (segRights new &&& segRights old = segRights new ∧ segBase old ≤ segBase new ∧
      segBase new + segLimit new ≤ segBase old + segLimit old)
    (n ≠ 0 → Completes (.segStageWrite n v) s (fun t => OnlyMe s t ∧ t.me = { s.me with stage := some (n.toNat, v) })) ∧
    (n ≠ 0 → fld 63 54 v = 0 → (s.me.priv ≠ 0 ∨ narrows) →
      Completes (.segCommit n v) s (fun t => OnlyMe s t ∧
        t.me = { s.me with sg := s.me.sg.set n.toNat new (n.isLt), stage := none })) ∧
    (s.me.Quiet → s.me.inTrap = false → n ≠ 0 → fld 63 54 v = 0 → s.me.priv = 0 → ¬ narrows →
      Completes (.segCommit n v) s (fun t => t.bst = .stop ∧ t.me.sg = s.me.sg ∧ ∃ x, TookTrap s.me t.me 2 0 0 x)) ∧
    (s.me.Quiet → s.me.inTrap = false → n = 0 ∨ fld 63 54 v ≠ 0 →
      Completes (.segCommit n v) s (fun t => t.bst = .stop ∧ t.me.sg = s.me.sg ∧ TookTrap s.me t.me 1 0 0 s.bword))

/-- A write of CORETAG or XROOT with no reserved bit first empties the core's stash and then sets the register; a write of LMMAP
that fits sets it, and every byte whose area does not change keeps its value; reserved bits take ILLOP (R30, R34, R61, R62, R77). -/
def Clause.TagAndLayoutWrites : Prop :=
  ∀ (v : W64) (s : State),
    let lpn := s.cur.lpn
    (fld 63 24 v = 0 → Completes (.coretagWrite v) s (fun t =>
      t.myProc.coretag = v ∧ (t.core (s.hostOf lpn)).stash = [] ∧ SameMem s t)) ∧
    (fld 11 1 v = 0 → fld 63 48 v = 0 → Completes (.xrootWrite v) s (fun t =>
      t.myProc.xroot = v ∧ (t.core (s.hostOf lpn)).stash = [] ∧ SameMem s t)) ∧
    (fld 7 4 v = 0 → fld 63 24 v = 0 → fld 3 0 v ≤ 8 → 16 * fld 3 0 v + fld 15 8 v + fld 23 16 v ≤ 251 →
      (fld 23 8 v = fld 23 8 s.myProc.lmmap ∨ s.layoutBusy lpn = false) →
      Completes (.lmmapWrite v) s (fun t => t.myProc.lmmap = v ∧
        (∀ off, off < 0x100000 → areaOf s.myProc.lmmap off = areaOf v off → memGet t.mem (winAddr lpn off) = memGet s.mem (winAddr lpn off)) ∧
        (∀ off, off < 0x100000 → areaOf s.myProc.lmmap off ≠ areaOf v off → memGet t.mem (winAddr lpn off) = 0))) ∧
    (s.me.Quiet → s.me.inTrap = false → fld 63 24 v ≠ 0 →
      Completes (.coretagWrite v) s (fun t => t.bst = .stop ∧ TookTrap s.me t.me 1 0 0 s.bword ∧ SameMem s t) ∧
      Completes (.lmmapWrite v) s (fun t => t.bst = .stop ∧ TookTrap s.me t.me 1 0 0 s.bword ∧ SameMem s t))

/-- What writes of segments, CORETAG, XROOT and LMMAP do (the clauses say what each does and cite its rules). -/
def Obligations.RegisterEvents : Prop :=
  Clause.SegmentCommit ∧ Clause.TagAndLayoutWrites

/-- A load from the own local memory, with a free landing entry and room in its chunk, enters its value in the landing buffer with
its lookahead: the bytes are little-endian, the chunk's own stores stand over memory, and the value is zero- or sign-extended as
the form says. The line joins the read set; no byte of memory and no register changes (R2, R133, R136, R164, R224). -/
def Clause.Loads : Prop :=
  ∀ s : State, s.me.landFull = false →
    let result (d : Reg) (la size : Nat) (sx : Bool) (o : Nat) (t : State) : Prop :=
      ∃ v : W64, Landing1 s t d la v ∧ (∀ i, i < size → byteOf v i = s.seenByte (o + i)) ∧ ExtendedFrom sx size v ∧
        ∃ c, t.me.chunk = some c ∧ locLine s.cur.lpn o ∈ c.reads ∧ c.stores = s.myChunk.stores
    let ok (n : Seg) (off : W64) (size o : Nat) : Prop :=
      OwnAccess s n off size 1 o ∧ Room s (locLine s.cur.lpn o) false ∧ s.locBad s.cur.lpn s.me.priv o size = false
    (∀ (r : AM) (o : Nat),
      (ok r.seg (s.offAM r 1) 1 o → Guarded (.ldB r) r.g s (result r.d r.la.toNat 1 false o)) ∧
      (ok r.seg (s.offAM r 2) 2 o → Guarded (.ldH r) r.g s (result r.d r.la.toNat 2 false o)) ∧
      (ok r.seg (s.offAM r 4) 4 o → Guarded (.ldW r) r.g s (result r.d r.la.toNat 4 false o)) ∧
      (ok r.seg (s.offAM r 8) 8 o → Guarded (.ldD r) r.g s (result r.d r.la.toNat 8 false o)) ∧
      (ok r.seg (s.offAM r 1) 1 o → Guarded (.ldsB r) r.g s (result r.d r.la.toNat 1 true o)) ∧
      (ok r.seg (s.offAM r 2) 2 o → Guarded (.ldsH r) r.g s (result r.d r.la.toNat 2 true o)) ∧
      (ok r.seg (s.offAM r 4) 4 o → Guarded (.ldsW r) r.g s (result r.d r.la.toNat 4 true o))) ∧
    (∀ (r : AX) (o : Nat), ok r.seg (s.offAX r) (2 ^ r.sz.toNat) o →
      Guarded (.ldx r) r.g s (result r.d r.la.toNat (2 ^ r.sz.toNat) r.sx o))

/-- A store to the own local memory, with room in its chunk, joins the chunk buffer: from then on the thread sees the stored bytes
at its address and every other byte as before, but in a hardware area below M, whose bytes go on reading 0; no byte of memory, no
register and no other slot changes before the chunk commits (R63, R136, R225). -/
def Clause.Stores : Prop :=
  ∀ s : State,
    let result (d : Reg) (size o : Nat) (t : State) : Prop :=
      SameMem s t ∧ t.me.arch = s.me.arch ∧ t.me.regs = s.me.regs ∧ (∀ w : Who, w ≠ s.cur → t.slot w = s.slot w) ∧
      (∀ a, t.seenByte a = if (o ≤ a ∧ a < o + size) ∧ (s.me.priv = 2 ∨ hwArea s.myProc.lmmap a = false) then byteOf (s.rd d) (a - o) else s.seenByte a) ∧
      ∃ c, t.me.chunk = some c ∧ locLine s.cur.lpn o ∈ c.writes
    let ok (n : Seg) (off : W64) (size o : Nat) : Prop :=
      OwnAccess s n off size 2 o ∧ Room s (locLine s.cur.lpn o) true ∧ s.locBad s.cur.lpn s.me.priv o size = false
    (∀ (r : AS) (o : Nat), ok r.seg (s.offAS r (2 ^ r.f.toNat)) (2 ^ r.f.toNat) o →
      Guarded (.st r) r.g s (result r.d (2 ^ r.f.toNat) o)) ∧
    (∀ (r : AX) (o : Nat), ok r.seg (s.offAX r) (2 ^ r.sz.toNat) o → Guarded (.stx r) r.g s (result r.d (2 ^ r.sz.toNat) o))

/-- Loads and stores of the own local memory (the clauses say what each does and cite its rules). -/
def Obligations.LocalLoadsAndStores : Prop :=
  Clause.Loads ∧ Clause.Stores

/-- The segment check's traps of an access, in their order: without the right SEGV reason 0, past the limit reason 1, beyond the
address space reason 2, misaligned ALIGN; TADDR holds the linear address and the cause names the segment. Nothing is loaded or
stored (R18, R323). Shown for LD.d and for ST of a dword, but through Imago's sg0, whose base field is no window address (log 11). -/
def Clause.AccessTraps : Prop :=
  ∀ s : State, s.me.Quiet → s.me.inTrap = false →
    let traps (n : Seg) (off : W64) (need : Nat) (t : State) : Prop :=
      let g := s.seg s.cur n.toNat
      let la := segBase g + off.toNat
      t.bst = .stop ∧ SameMem s t ∧
      (segHas g need = false → TookTrap s.me t.me 3 n.toNat 0 (w64 la)) ∧
      (segHas g need = true → segLimit g < off.toNat + 7 → TookTrap s.me t.me 3 n.toNat 1 (w64 la)) ∧
      (segHas g need = true → off.toNat + 7 ≤ segLimit g → 2 ^ 56 ≤ la + 7 → TookTrap s.me t.me 3 n.toNat 2 (w64 la)) ∧
      (segHas g need = true → off.toNat + 7 ≤ segLimit g → la + 7 < 2 ^ 56 → la % 8 ≠ 0 → TookTrap s.me t.me 4 0 0 (w64 la))
    let bad (n : Seg) (off : W64) (need : Nat) : Prop :=
      let g := s.seg s.cur n.toNat
      segHas g need = false ∨ segLimit g < off.toNat + 7 ∨ 2 ^ 56 ≤ segBase g + off.toNat + 7 ∨ (segBase g + off.toNat) % 8 ≠ 0
    (∀ r : AM, (r.seg = 0 → s.myCore.host ≠ Config.imagoLpn) → bad r.seg (s.offAM r 8) 1 → Guarded (.ldD r) r.g s (traps r.seg (s.offAM r 8) 1)) ∧
    (∀ r : AS, r.f = 3 → (r.seg = 0 → s.myCore.host ≠ Config.imagoLpn) → bad r.seg (s.offAS r 8) 2 → Guarded (.st r) r.g s (traps r.seg (s.offAS r 8) 2))

/-- A load of a dword whose sector stands in the stash, clean or dirty, with the rights of its page, takes its value from the
sector, with the chunk's own stores over it, and enters it in the landing buffer; the line joins the read set (R38, R39, R70, R72,
R136). -/
def Clause.StashLoads : Prop :=
  ∀ (r : AM) (s : State) (key : Nat) (l : StashLine),
    let g := s.seg s.cur r.seg.toNat
    let off := s.offAM r 8
    let la := segBase g + off.toNat
    let gpa := l.gtag * 256 + la % 256
    PagedAccess s r.seg off 8 1 la → s.me.landFull = false → s.me.grants = [] → tb 0 s.myProc.xroot = true →
    (l.vmid ≠ 0 ∨ s.me.priv = 2 ∨ (rangeOf gpa).named = true) →
    s.stashHit s.myProc.core la = some (key, l) → rights1 s.me.priv false l.w1 l.u1 = true →
    (l.sec (secOf gpa) = .clean ∨ l.sec (secOf gpa) = .dirty) → Room s (.paged l.vmid l.gtag) false →
    Guarded (.ldD r) r.g s (fun t => ∃ v : W64, Landing1 s t r.d r.la.toNat v ∧
      (∃ c, t.me.chunk = some c ∧ Line.paged l.vmid l.gtag ∈ c.reads) ∧
      ∀ i, i < 8 → byteOf v i =
        match s.myChunk.stores.reverse.findSome? fun st : Store => st.byteAt true l.vmid (gpa + i) with
        | some b => b
        | none => BitVec.ofNat 8 ((spGet 0 s.secs (secKey l.vmid gpa)).toNat / 2 ^ (8 * (gpa % 128 + i))))

/-- Accesses that trap, and accesses that the stash serves (the clauses say what each does and cite its rules). -/
def Obligations.PagedLoadsAndAccessTraps : Prop :=
  Clause.AccessTraps ∧ Clause.StashLoads

/-- The full/empty operations on a word of the own local memory that may proceed act in one step: LDSYNC lands a full word and
empties it, LDFF lands it and leaves it full, STSYNC fills an empty word with d, STFILL fills it whatever its state, SETE empties it
whatever its state; no other byte and no other word's full bit changes (R65, R66, R226). -/
def Clause.FullEmptyWords : Prop :=
  ∀ (s : State) (o : Nat), FreeWord s o 8 →
    (∀ r : AM, OwnAccess s r.seg (s.offAM r 8) 8 17 o → s.isFull s.cur.lpn 2 o = true →
      Guarded (.ldsync r) r.g s (fun t =>
        LandEntry s t r.d r.la.toNat (w64 (ownWord s o 8)) ∧ FullBit s t o false ∧ SameMem s t) ∧
      Guarded (.ldff r) r.g s (fun t =>
        LandEntry s t r.d r.la.toNat (w64 (ownWord s o 8)) ∧ FullBit s t o true ∧ SameMem s t)) ∧
    (∀ r : AS, OwnAccess s r.seg (s.offAS r 8) 8 18 o →
      (s.isFull s.cur.lpn 2 o = false →
        Guarded (.stsync r) r.g s (fun t => t.me.arch = s.me.arch ∧ StoredOwn s t o 8 (s.rd r.d).toNat ∧ FullBit s t o true)) ∧
      Guarded (.stfill r) r.g s (fun t => t.me.arch = s.me.arch ∧ StoredOwn s t o 8 (s.rd r.d).toNat ∧ FullBit s t o true) ∧
      Guarded (.sete r) r.g s (fun t => t.me.arch = s.me.arch ∧ SameMem s t ∧ FullBit s t o false))

/-- A full/empty operation that must wait joins the word's queue: an LDSYNC or LDFF of an empty word takes an entry that is still
to land and the thread goes on; an STSYNC of a full word holds its thread. The word is unchanged (R67, R226, R228). -/
def Clause.FullEmptyWaits : Prop :=
  ∀ (s : State) (o : Nat), FreeWord s o 8 → s.me.wait = none → s.myProc.waits = [] → s.elapsed < s.waitlim →
    let queued (op : SyncOp) (t : State) : Prop :=
      (∃ x, t.myProc.waits = [x] ∧ x.op = some op ∧ x.who = s.cur ∧ x.key = o) ∧ SameMem s t ∧
      (∀ a, a < 2 ^ 20 → t.isFull s.cur.lpn 2 a = s.isFull s.cur.lpn 2 a)
    (∀ r : AM, OwnAccess s r.seg (s.offAM r 8) 8 17 o → s.isFull s.cur.lpn 2 o = false →
      Guarded (.ldsync r) r.g s (fun t => queued .ldsync t ∧ t.bst = s.bst ∧ (∃ e, t.me.arch.landing = [e] ∧ e.res = .pending)) ∧
      Guarded (.ldff r) r.g s (fun t => queued .ldff t ∧ t.bst = s.bst ∧ (∃ e, t.me.arch.landing = [e] ∧ e.res = .pending))) ∧
    (∀ r : AS, OwnAccess s r.seg (s.offAS r 8) 8 18 o → s.isFull s.cur.lpn 2 o = true →
      Guarded (.stsync r) r.g s (fun t => queued .stsync t ∧ t.bst = .hold ∧ t.me.st = .waiting ∧ t.me.latch.isSome = true))

/-- Full/empty words: their steps and their waits (the clauses say what each does and cite its rules). -/
def Obligations.FullEmptyOperations : Prop :=
  Clause.FullEmptyWords ∧ Clause.FullEmptyWaits

/-- A returning atomic on a word of the own local memory reads, computes and writes in one step and lands the old word,
zero-extended: the sum, the exchange, the compare and exchange, the four minima and maxima, AND and OR, at 4 or 8 bytes. Every other
byte of memory is unchanged (R231, R232). -/
def Clause.ReturningAtomics : Prop :=
  ∀ (r : AA) (s : State) (o : Nat),
    let n := if r.sz then 8 else 4
    let old : BitVec (8 * n) := BitVec.ofNat (8 * n) (ownWord s o n)
    let x : BitVec (8 * n) := (s.rd r.d).setWidth (8 * n)
    let y : BitVec (8 * n) := (s.rd r.b).setWidth (8 * n)
    let did (v : BitVec (8 * n)) (t : State) : Prop :=
      LandEntry s t r.d r.la.toNat (old.setWidth 64) ∧ StoredOwn s t o n v.toNat
    FreeWord s o n → OwnAccess s r.seg (s.offAA r) n 8 o →
    Guarded (.afaa r) r.g s (did (old + x)) ∧
    Guarded (.axchg r) r.g s (did x) ∧
    Guarded (.acas r) r.g s (did (if old = x then y else old)) ∧
    Guarded (.amin r) r.g s (did (if old.toInt ≤ x.toInt then old else x)) ∧
    Guarded (.amax r) r.g s (did (if old.toInt ≤ x.toInt then x else old)) ∧
    Guarded (.aminu r) r.g s (did (if old.toNat ≤ x.toNat then old else x)) ∧
    Guarded (.amaxu r) r.g s (did (if old.toNat ≤ x.toNat then x else old)) ∧
    Guarded (.aand r) r.g s (did (old &&& x)) ∧
    Guarded (.aor r) r.g s (did (old ||| x))

/-- The forms that return nothing write the same word and land nothing: the thread's registers stay as they are (R231). -/
def Clause.PostedAtomics : Prop :=
  ∀ (r : AA) (s : State) (o : Nat),
    let n := if r.sz then 8 else 4
    let old : BitVec (8 * n) := BitVec.ofNat (8 * n) (ownWord s o n)
    let x : BitVec (8 * n) := (s.rd r.d).setWidth (8 * n)
    let y : BitVec (8 * n) := (s.rd r.b).setWidth (8 * n)
    let did (v : BitVec (8 * n)) (t : State) : Prop := t.me.arch = s.me.arch ∧ StoredOwn s t o n v.toNat
    FreeWord s o n → OwnAccess s r.seg (s.offAA r) n 8 o →
    Guarded (.afaaN r) r.g s (did (old + x)) ∧
    Guarded (.axchgN r) r.g s (did x) ∧
    Guarded (.acasN r) r.g s (did (if old = x then y else old)) ∧
    Guarded (.aminN r) r.g s (did (if old.toInt ≤ x.toInt then old else x)) ∧
    Guarded (.amaxN r) r.g s (did (if old.toInt ≤ x.toInt then x else old)) ∧
    Guarded (.aminuN r) r.g s (did (if old.toNat ≤ x.toNat then old else x)) ∧
    Guarded (.amaxuN r) r.g s (did (if old.toNat ≤ x.toNat then x else old)) ∧
    Guarded (.aandN r) r.g s (did (old &&& x)) ∧
    Guarded (.aorN r) r.g s (did (old ||| x))

/-- Atomics that return the old value and atomics that do not (the clauses say what each does and cite its rules). -/
def Obligations.Atomics : Prop :=
  Clause.ReturningAtomics ∧ Clause.PostedAtomics

/-- RECV and PEEK of a channel with a message in its queue write its header to a and then its payload to d to d + n, with 0 past its
length. RECV removes it: HEAD advances by one modulo QCAP and COUNT falls by one. PEEK changes no memory. On an empty or closed
channel PEEK writes 0 to a, and RECV waits up to WAITLIM and writes nothing. No other thread changes, but that one which waits for an entry
of the sequence table may go on (R254, R259). -/
def Clause.MessageTaking : Prop :=
  ∀ (r : AK) (s : State),
    let k := r.k.toNat
    let lpn := s.cur.lpn
    (chEN (s.chA lpn k) = true → chCOUNT (s.chB lpn k) ≠ 0 →
      Guarded (.peek r) r.g s (fun t => WroteAll s t (msgWrites s r (headOff s k))) ∧
      (chSPILLN (s.chB lpn k) = 0 → s.myProc.rwait = [] → OnlyThread s → s.lineHeld (popLine lpn k) (some s.cur) = false →
        Guarded (.recv r) r.g s (fun t => ∃ m, WroteAll m t (msgWrites s r (headOff s k)) ∧
          chHEAD (m.chB lpn k) = (chHEAD (s.chB lpn k) + 1) % max 1 (chQCAP (s.chA lpn k)) ∧
          chCOUNT (m.chB lpn k) = chCOUNT (s.chB lpn k) - 1 ∧ fld 63 24 (m.chB lpn k) = fld 63 24 (s.chB lpn k) ∧
          SameMemBut s m lpn (0x3408 + 0x40 * k) 8 ∧ (∀ w : Who, { m.slot w with st := (s.slot w).st } = s.slot w ∧
            ((∀ x, (s.slot w).wait = some x → x.kind ≠ .send) → m.slot w = s.slot w))))) ∧
    (chEN (s.chA lpn k) = false ∨ (chCOUNT (s.chB lpn k) = 0 ∧ chSPILLN (s.chB lpn k) = 0) →
      Guarded (.peek r) r.g s (fun t => Wrote s t r.a 0) ∧
      (s.me.wait = none → Guarded (.recv r) r.g s (fun t => WaitsAgain s t (.recv k) (fld 31 0 s.me.regs.waitlim) (w64 k))))

/-- CHSTAT writes the channel's COUNT, SPILLN, EN, IE, IS and QCAP to d and nothing else. WAITM with a receivable message and WAITM.I
with an inbox entry take nothing and go on at once; otherwise they wait up to WAITLIM, with k or 8 for TADDR (R255, R256). -/
def Clause.ChannelStatus : Prop :=
  ∀ (r : AK) (s : State),
    let k := r.k.toNat
    let a := s.chA s.cur.lpn k
    let b := s.chB s.cur.lpn k
    Guarded (.chstat r) r.g s (fun t => ∃ v, Wrote s t r.d v ∧ fld 11 0 v = fld 23 12 b ∧ fld 27 12 v = fld 39 24 b ∧ tb 28 v = tb 0 a ∧
      tb 29 v = tb 1 a ∧ fld 33 30 v = fld 5 2 a ∧ fld 45 34 v = fld 19 8 a ∧ fld 63 46 v = 0) ∧
    (chEN a = true → chCOUNT b + chSPILLN b ≠ 0 → Guarded (.waitm r) r.g s (fun t => t = s)) ∧
    (s.myProc.inCount ≠ 0 → Guarded (.waitmI r) r.g s (fun t => t = s)) ∧
    (s.me.wait = none → chEN a = false ∨ chCOUNT b + chSPILLN b = 0 →
      Guarded (.waitm r) r.g s (fun t => WaitsAgain s t (.waitm k) (fld 31 0 s.me.regs.waitlim) (w64 k))) ∧
    (s.me.wait = none → s.myProc.inCount = 0 →
      Guarded (.waitmI r) r.g s (fun t => WaitsAgain s t .inbox (fld 31 0 s.me.regs.waitlim) 8))

/-- INB removes the head entry of the inbox and writes its two dwords to d and d + 1; from an empty inbox it writes 0 to both (R257).
Where an entry stands in the ring is the model's choice (log 17). -/
def Clause.InboxTaking : Prop :=
  ∀ (r : AR) (s : State),
    (s.myProc.inCount = 0 → Guarded (.inb r) r.g s (fun t => WroteAll s t [(r.d, 0), (r.d + 1, 0)])) ∧
    (s.myProc.inCount ≠ 0 → s.myProc.inWait = [] →
      Guarded (.inb r) r.g s (fun t => ∃ m,
        WroteAll m t [(r.d, s.hwRead s.cur.lpn (inboxOff s.myProc.inHead 0)), (r.d + 1, s.hwRead s.cur.lpn (inboxOff s.myProc.inHead 0 + 8))] ∧
        m.myProc.inCount = s.myProc.inCount - 1 ∧ m.myProc.inHead = (s.myProc.inHead + 1) % 256 ∧
        (∀ w : Who, m.slot w = s.slot w) ∧ m.mem = s.mem))

/-- SEND to a process that a lookup places, with nothing that FENCE.H waits for, no refused message and a send entry with OUT below
2,048: the message carries the entry's SEQ and the payload registers and is in flight; SEQ advances modulo 4,096, OUT by one, and WT
by its flits up to 65,535; the thread goes on with its registers unchanged. A destination that no lookup places takes SEGV reason 4
(R249, R253, R435). -/
def Clause.Sending : Prop :=
  ∀ (r : AK) (s : State),
    let dst := (s.rdB r.b r.x).toNat % 2 ^ 19
    let lpn := s.cur.lpn
    let pay := (regRun r.d r.n).map s.rd
    (∀ i c, s.placeLookup (s.hostOf lpn) dst = .host c → s.me.atomics = [] → s.me.heldMsgs = [] →
      s.seqFind lpn (seqKey false dst r.k.toNat) = some i → seqOUT (s.seqAt lpn i) < 2048 →
      Guarded (.send r) r.g s (fun t =>
        let e := s.seqAt lpn i
        let f := t.seqAt lpn i
        fld 23 0 f = fld 23 0 e ∧ seqSEQ f = (seqSEQ e + 1) % 4096 ∧ seqOUT f = seqOUT e + 1 ∧
        seqWT f = min 65535 (seqWT e + 1 + (8 * pay.length - 16 + 31) / 32) ∧ SameMemBut s t lpn (0x3640 + 8 * i) 8 ∧
        (∃ m, t.item s.nextId = some (.msg m) ∧ m.src = lpn ∧ m.dst = dst ∧ m.ch = r.k.toNat ∧ m.seq = seqSEQ e ∧ m.pay = pay ∧
          m.skip = false) ∧
        t.me.arch = s.me.arch ∧ t.bst = s.bst ∧ t.me.sends = s.me.sends ++ [(lpn, dst, r.k.toNat, seqSEQ e)] ∧
        (∀ w : Who, w ≠ s.cur → t.slot w = s.slot w))) ∧
    (s.me.Quiet → s.me.inTrap = false → s.placeLookup (s.hostOf lpn) dst = .none →
      Guarded (.send r) r.g s (fun t => t.bst = .stop ∧ SameMem s t ∧ TookTrap s.me t.me 3 0 4 (w64 dst)))

/-- SEND, RECV, PEEK, CHSTAT, WAITM, WAITI and INB (the clauses say what each does and cite its rules). -/
def Obligations.MessageWords : Prop :=
  Clause.MessageTaking ∧ Clause.ChannelStatus ∧ Clause.InboxTaking ∧ Clause.Sending

/-- A message in sequence for an open channel with room is placed: its nine dwords stand at the tail of the queue, COUNT and the entry's
SEQ rise by one, and its acknowledgement is on its way. A skip notice in sequence advances SEQ and places nothing. A message for a
closed channel or of another job is refused and changes no memory (R258, R31). -/
def Clause.MessageArrivals : Prop :=
  ∀ (id i : Nat) (m : Msg) (s : State),
    let lpn := m.dst
    let a := s.chA lpn m.ch
    let b := s.chB lpn m.ch
    let off := chQBASE a + 72 * ((chHEAD b + chCOUNT b) % max 1 (chQCAP a))
    let e := s.seqAt lpn i
    s.item id = some (.msg m) → id < s.nextId → m.pay.length ≤ 8 →
    (jobCheck m.tag (s.proc lpn) = true → s.seqFind lpn (seqKey true m.src m.ch) = some i → seqSEQ e = m.seq → PlainQueue s lpn off →
      m.ch < 8 →
      (m.skip = false → chEN a = true → chSPILLN b = 0 → chCOUNT b < chQCAP a →
        Completes (.messageArrive id) s (fun t =>
          (∀ j, j < 9 → t.hwRead lpn (off + 8 * j) = m.words.getD j 0) ∧ chCOUNT (t.chB lpn m.ch) = chCOUNT b + 1 ∧
          chHEAD (t.chB lpn m.ch) = chHEAD b ∧ seqSEQ (t.seqAt lpn i) = (m.seq + 1) % 4096 ∧ t.item id = none ∧
          OnTheWay t (.ack m.src m.dst m.ch m.seq))) ∧
      (m.skip = true →
        Completes (.skipNoticeArrive id) s (fun t => seqSEQ (t.seqAt lpn i) = (m.seq + 1) % 4096 ∧ t.item id = none ∧
          SameMemBut s t lpn (0x3640 + 8 * i) 8))) ∧
    (m.skip = false → jobCheck m.tag (s.proc lpn) = false →
      Completes (.messageArrive id) s (fun t => SameMem s t ∧ OnTheWay t (.msgRefused m 2))) ∧
    (m.skip = false → jobCheck m.tag (s.proc lpn) = true → chEN a = false →
      Completes (.messageArrive id) s (fun t => SameMem s t ∧ OnTheWay t (.msgRefused m 1)))

/-- An acknowledgement lowers its send entry's OUT by one and takes the message off the list that FENCE.P waits for. A weight report
writes RWT of its receive entry and no other bit (R249, R156, R436). -/
def Clause.Acknowledgements : Prop :=
  ∀ (id i src dst ch : Nat) (s : State), i < 312 →
    (∀ seq, s.item id = some (.ack src dst ch seq) → s.seqFind src (seqKey false dst ch) = some i →
      Completes (.messageAck id) s (fun t => OutFell s t src i ∧ t.item id = none ∧ SameMemBut s t src (0x3640 + 8 * i) 8 ∧
        ∀ w : Who, (src, dst, ch, seq) ∉ (t.slot w).sends)) ∧
    (∀ x, s.item id = some (.weight src dst ch x) → s.seqFind dst (seqKey true src ch) = some i →
      Completes (.weightReport id) s (fun t => seqWT (t.seqAt dst i) = x % 65536 ∧ fld 47 0 (t.seqAt dst i) = fld 47 0 (s.seqAt dst i) ∧
        SameMemBut s t dst (0x3640 + 8 * i) 8 ∧ ∀ w : Who, t.slot w = s.slot w))

/-- A message refused for want of room is held for its slot; one refused by a closed channel or by the job check is given up: its entry
treats it as acknowledged, a skip notice is on its way, and SENDSTALL or SEGV reason 5 is due at the sender. Held messages and
refused skip notices are offered again (R258, R260, R261). -/
def Clause.Refusals : Prop :=
  ∀ (id i : Nat) (m : Msg) (s : State), m.skip = false → i < 312 →
    s.seqFind m.src (seqKey false m.dst m.ch) = some i → (s.slot m.who).st ≠ .absent → (s.slot m.who).st ≠ .halted →
    let skip : Msg := { m with skip := true, pay := [0] }
    let gaveUp (code reason : Nat) (t : State) : Prop :=
      OutFell s t m.src i ∧ OnTheWay t (.msg skip) ∧
      ∃ d ∈ (t.slot m.who).due, d.code = code ∧ d.reason = reason ∧ d.addr = msgAddr m.dst m.ch m.seq ∧ d.deferred = true
    (s.item id = some (.msgRefused m 0) → (∀ h ∈ (s.slot m.who).heldMsgs, h.msg ≠ m) →
      Completes (.messageRefused id) s (fun t => SameMem s t ∧ ∃ h, (t.slot m.who).heldMsgs = (s.slot m.who).heldMsgs ++ [h] ∧ h.msg = m ∧
        h.since = (s.proc m.who.lpn).time)) ∧
    (s.item id = some (.msgRefused m 1) → Completes (.messageRefused id) s (gaveUp 10 0)) ∧
    (s.item id = some (.msgRefused m 2) → Completes (.messageRefused id) s (gaveUp 3 5)) ∧
    (∀ h ∈ (s.slot m.who).heldMsgs, h.id = id → h.msg = m → ((s.slot m.who).heldMsgs.find? fun x => x.id == id) = some h →
      (∀ e ∈ s.net, e.2 ≠ .ack m.src m.dst m.ch m.seq) →
      Completes (.sendlimExpiry m.who.lpn m.who.slot id) s (fun t => gaveUp 10 0 t ∧ ∀ x ∈ (t.slot m.who).heldMsgs, x.msg ≠ m)) ∧
    ((s.slot m.who).heldMsgs ≠ [] → (∀ h ∈ (s.slot m.who).heldMsgs, s.msgInFlight h.msg = false) →
      Completes (.messageReoffer m.who.lpn m.who.slot) s (fun t =>
        (∀ h ∈ (s.slot m.who).heldMsgs, OnTheWay t (.msg h.msg)) ∧ t.procs = s.procs ∧ t.mem = s.mem)) ∧
    (s.item id = some (.msg skip) →
      Completes (.skipNoticeReoffer id) s (fun t => skip ∉ (t.proc m.src).skips ∧ OnTheWay t (.msg skip) ∧ t.mem = s.mem))

/-- A user interrupt is delivered to a thread with nothing uncommitted that is ready, or waits in RECV, WAITM, SLEEP or for a pop of g31:
h0 takes the PC, h1 the lowest channel that is pending and
not masked, that pending bit is cleared, H is set and the handler is entered at UIVEC.OFF × 8; registers and predicates keep their
values. An inbox entry takes the place at the tail and its operation is complete (R272, R257, R171). -/
def Clause.InterruptDelivery : Prop :=
  ∀ (lpn slot : Nat) (s : State),
    let w : Who := { lpn := lpn, slot := slot }
    let x := s.slot w
    (x.Quiet → x.ending = none → x.arrived = false →
      (x.st = .ready ∧ x.wait = none ∧ x.heldMsgs = [] ∧ x.pushq = []) ∨ (x.st = .waiting ∧ x.latch = none ∧ ∃ y, x.wait = some y ∧
        (y.kind = .inbox ∨ y.kind = .sleep ∨ y.kind = .pop 4 ∨ ∃ k, y.kind = .recv k ∨ y.kind = .waitm k)) →
      x.arch.past = false → tb 0 x.regs.uivec = true → x.inUser = false →
      (∃ c, c < 9 ∧ tb (16 + c) x.regs.uistat = true ∧ tb c x.regs.uistat = false) →
      Completes (.userInterruptDeliver lpn slot) s (fun t =>
        let y := t.slot w
        ∃ c, c < 9 ∧ tb (16 + c) x.regs.uistat = true ∧ tb c x.regs.uistat = false ∧
          (∀ i, i < c → tb (16 + i) x.regs.uistat = true → tb i x.regs.uistat = true) ∧
          y.hbank[0] = x.arch.pc.zeroExtend 64 ∧ y.hbank[1] = w64 c ∧ (∀ n, 2 ≤ n → ∀ h : n < 8, y.hbank[n] = x.hbank[n]) ∧
          y.inUser = true ∧ tb (16 + c) y.regs.uistat = false ∧ (∀ n, n ≠ 32 → n ≠ 16 + c → tb n y.regs.uistat = tb n x.regs.uistat) ∧
          y.st = .ready ∧ y.arch.pc.toNat = fld 19 3 x.regs.uivec * 8 ∧ y.arch.regs = x.arch.regs ∧ y.arch.pw = x.arch.pw ∧ t.mem = s.mem)) ∧
    (∀ e, (s.proc lpn).inWait = [e] → (s.proc lpn).inCount < 256 →
      Completes (.inboxEntryPlace lpn) s (fun t =>
        let off := inboxOff (s.proc lpn).inHead (s.proc lpn).inCount
        t.hwRead lpn off = e.w0 ∧ t.hwRead lpn (off + 8) = e.w1 ∧ (t.proc lpn).inCount = (s.proc lpn).inCount + 1 ∧
        (t.proc lpn).inWait = [] ∧ (t.proc lpn).inHead = (s.proc lpn).inHead ∧
        ∀ c ∈ (t.core (s.hostOf lpn)).copies, c.id ≠ e.id))

/-- Messages, acknowledgements, refusals and user interrupts (the clauses say what each does and cite its rules). -/
def Obligations.MessageEvents : Prop :=
  Clause.MessageArrivals ∧ Clause.Acknowledgements ∧ Clause.Refusals ∧ Clause.InterruptDelivery

/-- On a line of the paged region whose sector stands in the stash: SPIN pins the line, which reads 0 from SPINRES, unless four ways
of its set are pinned, which reads 1; SFLUSH writes the dirty sectors back and leaves the line shared, in the directory too; SINV
writes back, drops the line and squashes the threads of the process that read it; PREF does nothing. Without a stash SPIN reads 2.
Memory and the registers keep their values (R70, R73, R234, R236, R237). -/
def Obligations.StashControl : Prop :=
  ∀ (r : AQ) (s : State) (la key : Nat) (l : StashLine),
    let core := s.myProc.core
    PagedAccess s r.seg (s.offAQ r) 1 1 la →
    (stashSets s.myProc = 0 →
      Guarded (.spin r) r.g s (fun t => t.me.regs.spinres = 2 ∧ t.me.arch = s.me.arch ∧ SameMem s t ∧ t.cores = s.cores)) ∧
    (InStash s la key l →
      (stashSets s.myProc ≠ 0 → s.me.grants = [] → tb 0 s.myProc.xroot = true →
        (l.vmid ≠ 0 ∨ s.me.priv = 2 ∨ (rangeOf (l.gtag * 256 + la % 256)).named = true) → rights1 s.me.priv false l.w1 l.u1 = true → l.mt = 0 →
        (l.sec (la / 128 % 2) = .clean ∨ l.sec (la / 128 % 2) = .dirty) → l.pin = false →
        Guarded (.spin r) r.g s (fun t => t.me.arch = s.me.arch ∧ SameMem s t ∧
          (((s.core core).stash.filter fun e => e.1 / 8 == key / 8 && e.2.pin).length < 4 → t.me.regs.spinres = 0 ∧
            (key, { l with pin := true }) ∈ (t.core core).stash) ∧
          (4 ≤ ((s.core core).stash.filter fun e => e.1 / 8 == key / 8 && e.2.pin).length → t.me.regs.spinres = 1 ∧
            (t.core core).stash = (s.core core).stash))) ∧
      (l.st ≠ .s →
        Guarded (.sflush r) r.g s (fun t => t.procs = s.procs ∧ t.mem = s.mem ∧ t.secs = s.secs ∧ WrittenBack s t l ∧
          (∃ m, (key, m) ∈ (t.core core).stash ∧ m.st = .s ∧ m.sec0 ≠ .dirty ∧ m.sec1 ≠ .dirty ∧ m.ltag = l.ltag ∧ m.pin = l.pin) ∧
          (∀ m, t.l2Find l.vmid l.gtag = some m → m.dir = .s [core]))) ∧
      Guarded (.sinv r) r.g s (fun t => t.mem = s.mem ∧ t.secs = s.secs ∧ WrittenBack s t l ∧
        (∀ e ∈ (t.core core).stash, e.1 ≠ key) ∧
        ∀ (w : Who) (c : Chunk), w.lpn = s.cur.lpn → w.slot < 16 → (s.slot w).commit = none → (s.slot w).chunk = some c →
          (s.slot w).soloHeld = false → Line.paged l.vmid l.gtag ∈ c.reads →
          (t.slot w).chunk = none ∧ (t.slot w).arch = c.start) ∧
      (stashSets s.myProc ≠ 0 → l.sec (la / 128 % 2) ≠ .absent → Guarded (.pref r) r.g s (fun t => { t with useg := s.useg } = s)))

/-- SPAWN and TPOST of a good record to the own process: with room in the record's level it joins the ready queue; SPAWN sets its
predicate, to 0 when the level is full; TPOST then waits up to WAITLIM. No byte of memory and no register changes (R383, R388). -/
def Clause.TaskPosting : Prop :=
  ∀ (r : AR) (s : State) (o c : Nat),
    let lpn := s.cur.lpn
    let level := fld 21 20 (w64 (s.locRead lpn s.me.priv o 8))
    let n := (s.myProc.ready.filter fun x => x.level == level && x.resume.isNone).length
    let pred (b : Bool) (t : State) : Prop :=
      ∀ q : Sys2Proof.Pred, t.me.arch.pw.getLsbD q.toNat =
        if q.toNat = r.d.toNat % 8 ∧ q ≠ 0 then b else s.me.arch.pw.getLsbD q.toNat
    let same (t : State) : Prop := SameMem s t ∧ t.me.arch.regs = s.me.arch.regs ∧ t.bst = s.bst
    OwnAccess s 0 (s.rd r.a) 64 1 o → (s.rdB r.b r.x).toNat % 2 ^ 19 = lpn → s.placeLookup (s.hostOf lpn) lpn = .host c →
    s.me.atomics = [] → GoodRecord s o →
    (n < 8 →
      Guarded (.spawn r) r.g s (fun t => Queued s t lpn o (fld 15 0 s.me.regs.launch) lpn ∧ pred true t ∧ same t) ∧
      Guarded (.tpost r) r.g s (fun t => Queued s t lpn o (fld 15 0 s.me.regs.launch) lpn ∧ t.me = s.me ∧ same t)) ∧
    (8 ≤ n →
      Guarded (.spawn r) r.g s (fun t => t.myProc.ready = s.myProc.ready ∧ pred false t ∧ same t) ∧
      (s.me.wait = none → fld 31 0 s.me.regs.waitlim ≠ 0 →
        Guarded (.tpost r) r.g s (fun t => t.myProc.ready = s.myProc.ready ∧
          WaitsAgain s t .tpost (fld 31 0 s.me.regs.waitlim) (w64 lpn))))

/-- A take chooses the record that became aged first; if none is aged, the first record of the lowest level (R385). -/
def Clause.TakeOrder : Prop :=
  ∀ (l : List Ready) (r : Ready), chooseReady l = some r →
    (r.aged = none → ∀ x ∈ l, x.aged = none ∧ r.level ≤ x.level) ∧
    (∀ n, r.aged = some n → ∀ x ∈ l, ∀ m, x.aged = some m → n ≤ m) ∧
    ∃ i, ∃ h : i < l.length, l[i] = r ∧ ∀ j, ∀ hj : j < i,
      (r.aged = none → r.level < l[j].level) ∧ ∀ n m, r.aged = some n → l[j].aged = some m → n < m

/-- TNEXT starts the chosen record in the lowest free slot that SMASK allows and writes the slot's number to d: the PC, g1 to g4, fmt,
scp, the join pointer and the priority come from the record, every other general register is 0 and full, and the other records
stay. With an empty queue, or with no free slot for an ordinary record, it writes 2^64 − 1 and starts nothing (R385, R386, R389). -/
def Clause.TaskTaking : Prop :=
  ∀ (r : AR) (s : State),
    let lpn := s.cur.lpn
    (s.myProc.ready = [] → Guarded (.tnext r) r.g s (fun t => Wrote s t r.d (BitVec.allOnes 64))) ∧
    (∀ x, chooseReady s.myProc.ready = some x → x.resume = none →
      (s.myProc.taskSlot = none → Guarded (.tnext r) r.g s (fun t => Wrote s t r.d (BitVec.allOnes 64))) ∧
      (∀ n, s.myProc.taskSlot = some n → n ≠ s.cur.slot →
        Guarded (.tnext r) r.g s (fun t => ∃ m, Wrote m t r.d (w64 n) ∧ m.me = s.me ∧ SameMem s m ∧
          let y := m.slot { lpn := lpn, slot := n }
          y.st = .starting ∧ y.arch.pc.toNat = fld 19 0 x.rcd[0] ∧
          (∀ q : Reg, y.arch.rd q = if 1 ≤ q.toNat ∧ q.toNat ≤ 4 then x.rcd.toList.getD q.toNat 0 else 0) ∧
          y.arch.full = BitVec.allOnes 32 ∧ y.arch.pw = 1 ∧ y.regs.fmt = x.rcd[5] ∧ y.regs.scp = x.rcd[6] ∧ y.join = x.rcd[7] ∧
          y.pri.toNat = x.level % 4 ∧ fld 15 0 y.regs.launch = fld 39 24 x.rcd[0] ∧
          m.myProc.ready.length + 1 = s.myProc.ready.length)))

/-- Posting and taking tasks (the clauses say what each does and cite its rules). -/
def Obligations.TaskPosts : Prop :=
  Clause.TaskPosting ∧ Clause.TakeOrder ∧ Clause.TaskTaking

/-- RETJ ends its thread: word B is still performed, and then the slot is absent. Without a join pointer that is all; with one it lowers
the join word of the own local memory by one in one step, and a word that was 1 leaves the continuation behind it to be placed; a word
that was 0 already stays and is counted in JOINERR (R178, R390). -/
def Clause.JoinReturn : Prop :=
  ∀ (r : AR) (s : State),
    let j := s.me.join
    let ends (e : Ending) (t : State) : Prop := t.me.ending = some e ∧ t.bst = s.bst ∧ t.me.arch = s.me.arch
    (s.me.atomics = [] →
      (j = 0 → Guarded (.retj r) r.g s (fun t => ends .halt t ∧ SameMem s t)) ∧
      (∀ o, j ≠ 0 → s.myProc.contbuf.length < 16 → OwnAccess s (BitVec.ofNat 3 (fld 2 0 j)) (w64 (fld 63 7 j * 128)) 8 9 o → FreeWord s o 8 →
        let old := ownWord s o 8
        (old ≠ 1 → old ≠ 0 → Guarded (.retj r) r.g s (fun t => ends (.retired (w64 old) []) t ∧ StoredOwn s t o 8 (old - 1))) ∧
        (old = 0 → Guarded (.retj r) r.g s (fun t => ends (.retired 0 []) t ∧ SameMem s t)) ∧
        (old = 1 → Guarded (.retj r) r.g s (fun t => StoredOwn s t o 8 0 ∧
          ends (.retired 1 ((List.range 8).map fun i => w64 (s.locRead s.cur.lpn s.me.priv (o + 64 + 8 * i) 8))) t)))) ∧
    (∀ (e : Ending) (was re : Bool) (a0 : Arch), s.me.Quiet → s.me.ending = some e → s.me.pushq = [] → s.myCore.streams = [] →
      s.bpops = [] → s.leaving = none →
      let t := s.finish true was re a0
      (t.slot s.cur).st = .absent ∧ SameMem s t ∧ (∀ w : Who, w ≠ s.cur → t.slot w = s.slot w) ∧
      (∀ c, e = .retired 0 c → fld 63 56 (t.proc s.cur.lpn).taskcfg = min 255 (fld 63 56 s.myProc.taskcfg + 1) ∧
        fld 55 0 (t.proc s.cur.lpn).taskcfg = fld 55 0 s.myProc.taskcfg) ∧
      (∀ old c, e = .retired old c → old ≠ 0 → old ≠ 1 → (t.proc s.cur.lpn).taskcfg = s.myProc.taskcfg ∧
        (t.proc s.cur.lpn).contbuf = s.myProc.contbuf) ∧
      (∀ c, e = .retired 1 c → c.length = 8 → taskBad (Vector.ofFn fun i : Fin 8 => c.getD i.val 0) = false →
        ∃ k, (t.proc s.cur.lpn).contbuf = s.myProc.contbuf ++ [k] ∧ fld 22 0 k[0] = fld 22 0 (c.getD 0 0) ∧
          fld 39 24 k[0] = fld 15 0 s.me.regs.launch ∧ ∀ i, 1 ≤ i → ∀ h : i < 8, k[i] = c.getD i 0))

/-- SLEEP of 0 cycles writes 0 to d at once. With a pending bit that ends it, it writes the remaining count with those bits above it
and clears them. Otherwise its thread sleeps for b[31:0] cycles, counted from
the bundle's first issue, and at the end its bundle issues again (R392). A TPOST whose level was
full is tried again (R388). -/
def Clause.Sleeping : Prop :=
  ∀ (r : AR) (s : State),
    let n := fld 31 0 (s.rdB r.b r.x)
    let left := n - s.elapsed
    (s.me.sleepLeft = none → s.me.wait = none →
      (s.me.sleepBits = 0 → left = 0 → Guarded (.sleep r) r.g s (fun t => Wrote s t r.d 0)) ∧
      (s.me.sleepBits = 0 → left ≠ 0 → Guarded (.sleep r) r.g s (fun t => WaitsAgain s t .sleep n 0)) ∧
      (s.me.sleepBits ≠ 0 → Guarded (.sleep r) r.g s (fun t => ∃ m, Wrote m t r.d (w64 (left + s.me.sleepBits * 2 ^ 32)) ∧ OnlyMe s m ∧
        m.me.arch = s.me.arch ∧ ∀ i, i < 64 → tb i m.me.regs.uistat = (tb i s.me.regs.uistat && !(16 ≤ i && s.me.sleepBits.testBit (i - 16)))))) ∧
    (∀ (lpn slot id : Nat) (x : Wait),
      let w : Who := { lpn := lpn, slot := slot }
      (s.slot w).wait = some x → (s.slot w).st = .waiting →
      (x.kind = .sleep → x.id = id → Completes (.sleepExpiry lpn slot id) s (fun t => (t.slot w).st = .ready ∧ (t.slot w).arch = (s.slot w).arch)) ∧
      (x.kind = .tpost → (s.slot w).latch = none → Completes (.tpostRetry lpn slot) s (fun t => (t.slot w).st = .ready ∧ (t.slot w).arch = (s.slot w).arch)))

/-- The continuation buffer sends a continuation for its own process to the ready queue when its level has room, and keeps it while
the level is full (R390). -/
def Clause.Continuations : Prop :=
  ∀ (lpn : Nat) (k : TaskRec) (s : State), (s.proc lpn).contbuf = [k] → fld 58 40 k[0] = lpn → (s.core (s.hostOf lpn)).frozen = false →
    let n := ((s.proc lpn).ready.filter fun x => x.level == fld 21 20 k[0] && x.resume.isNone).length
    (n < 8 → Completes (.continuationRetry lpn) s (fun t => (t.proc lpn).contbuf = [] ∧ t.mem = s.mem ∧
      ∃ x, (t.proc lpn).ready = (s.proc lpn).ready ++ [x] ∧ x.rcd = k ∧ x.resume = none)) ∧
    (8 ≤ n → Completes (.continuationRetry lpn) s (fun t => (t.proc lpn).contbuf = [k] ∧ (t.proc lpn).ready = (s.proc lpn).ready ∧
      t.mem = s.mem))

/-- RETJ, SLEEP and continuations (the clauses say what each does and cite its rules). -/
def Obligations.TaskEnds : Prop :=
  Clause.JoinReturn ∧ Clause.Sleeping ∧ Clause.Continuations

/-- A barrier operation on a record of the own process, which no field uses and no thread waits for: BARA counts its weight and writes
the generation of its last unit; BARW does the same when its last unit completes that generation, and otherwise waits in place under
BARLIM. On a record whose COUNT is 0 both take BARTO with the name in TADDR (R239, R240, R243). -/
def Clause.BarrierArrivals : Prop :=
  ∀ (r : AR) (s : State),
    let name := s.rd r.a
    let i := fld 8 0 name
    let w := max 1 (fld 15 0 (s.rdB r.b r.x))
    let b := s.myProc.bar i
    fld 27 9 name = s.cur.lpn → s.myCore.host = s.cur.lpn → s.me.atomics = [] →
    (tb 0 s.myProc.fieldcfg = false → s.myProc.waits = [] → b.count ≠ 0 →
      Guarded (.bara r) r.g s (fun t => ∃ m, OnlyBar s m i (b.after w) ∧ Wrote m t r.d (b.lastGen w)) ∧
      ((b.arr.toNat + w) % b.count.toNat = 0 →
        Guarded (.barw r) r.g s (fun t => ∃ m, OnlyBar s m i (b.after w) ∧ Wrote m t r.d (b.lastGen w))) ∧
      ((b.arr.toNat + w) % b.count.toNat ≠ 0 → s.me.wait = none → fld 31 0 s.me.regs.barlim ≠ 0 →
        Guarded (.barw r) r.g s (fun t => WaitsHere s t .barrier (fld 31 0 s.me.regs.barlim) name r.d ∧ t.myProc.bar i = b.after w ∧
          (∃ x, t.myProc.waits = [x] ∧ x.id = s.nextId ∧ x.who = s.cur ∧ x.op = none ∧ x.key = i) ∧ SameMem s t))) ∧
    (s.me.Quiet → s.me.inTrap = false → b.count = 0 →
      Guarded (.bara r) r.g s (fun t => t.bst = .stop ∧ TookTrap s.me t.me 8 0 0 name) ∧
      Guarded (.barw r) r.g s (fun t => t.bst = .stop ∧ TookTrap s.me t.me 8 0 0 name))

/-- The arrival that completes a generation releases its waiters: a waiting thread of the core gets the generation number in its
destination and goes on (R242). -/
def Clause.BarrierRelease : Prop :=
  ∀ (r : AR) (s : State) (x : Waiter) (l : Latch),
    let name := s.rd r.a
    let i := fld 8 0 name
    let w := max 1 (fld 15 0 (s.rdB r.b r.x))
    let b := s.myProc.bar i
    fld 27 9 name = s.cur.lpn → s.myCore.host = s.cur.lpn → s.me.atomics = [] → tb 0 s.myProc.fieldcfg = false → b.count ≠ 0 →
    b.arr.toNat + w = b.count.toNat → s.myProc.waits = [x] → x.op = none → x.key = i → x.remote = false → x.who ≠ s.cur →
    (s.slot x.who).holds x.id = true → (s.slot x.who).latch = some l →
    Guarded (.bara r) r.g s (fun t => t.myProc.waits = [] ∧ t.myProc.bar i = b.after w ∧ (t.slot x.who).st = .ready ∧ (t.slot x.who).wait = none ∧
      ((s.slot x.who).field l.d = .gen → ∀ q : Reg, (t.slot x.who).arch.rd q =
        if q = l.d ∧ l.d ≠ 0 then b.gen.zeroExtend 64 else (s.slot x.who).arch.rd q))

/-- BARCFG sets COUNT of a record and writes the old COUNT, ARR and GEN to d: with 0 it clears ARR and keeps GEN; otherwise the arrivals
already counted complete as many generations as they fill (R242). -/
def Clause.BarrierConfig : Prop :=
  ∀ (r : AR) (s : State),
    let name := s.rd r.a
    let i := fld 8 0 name
    let c := fld 15 0 (s.rdB r.b r.x)
    let b := s.myProc.bar i
    fld 27 9 name = s.cur.lpn → s.myCore.host = s.cur.lpn → tb 0 s.myProc.fieldcfg = false → s.myProc.waits = [] →
    Guarded (.barcfg r) r.g s (fun t => ∃ m v, Wrote m t r.d v ∧ fld 15 0 v = b.count.toNat ∧ fld 31 16 v = b.arr.toNat ∧
      fld 47 32 v = b.gen.toNat ∧ fld 63 48 v = 0 ∧
      OnlyBar s m i (if c = 0 then { count := 0, arr := 0, gen := b.gen } else
        { count := BitVec.ofNat 16 c, arr := BitVec.ofNat 16 (b.arr.toNat % c), gen := b.gen + BitVec.ofNat 16 (b.arr.toNat / c) }))

/-- Barriers: arrivals, releases and configuration (the clauses say what each does and cite its rules). -/
def Obligations.BarrierWords : Prop :=
  Clause.BarrierArrivals ∧ Clause.BarrierRelease ∧ Clause.BarrierConfig

/-- The events of waits: a limit that runs out takes its operation out of the list and its thread takes BARTO or WAITTO; a withdrawal of
a remote waiter answers with that trap; an operation that found a full list and a request that came back busy and has waited its 64 cycles are tried again. No
service of the same step wins over the limit here (R68, R69, R228, R244). -/
def Clause.WaitEnds : Prop :=
  ∀ (lpn slot id : Nat) (s : State) (x : Wait) (l : Latch),
    let w : Who := { lpn := lpn, slot := slot }
    ((s.slot w).Quiet → (s.slot w).inTrap = false → (s.slot w).st = .waiting → (s.slot w).wait = some x → x.id = id →
      (s.slot w).latch = some l → l.pc = (s.slot w).arch.pc → (s.proc lpn).fsteps = [] → (∀ k, Ev.fullEmptyService lpn k ∉ s.agenda) →
      (x.kind = .barrier → Completes (.barlimExpiry lpn slot id) s (fun t => TookTrap (s.slot w) (t.slot w) 8 0 0 x.addr ∧
        (∀ y ∈ (t.proc lpn).waits, y.id ≠ id) ∧ SameMem s t)) ∧
      (x.kind = .word → Completes (.waitlimExpiry lpn slot id) s (fun t => TookTrap (s.slot w) (t.slot w) 7 0 0 x.addr ∧
        (∀ y ∈ (t.proc lpn).waits, y.id ≠ id) ∧ SameMem s t))) ∧
    ((s.slot w).st = .waiting → (s.slot w).wait = some x → x.kind = .word ∨ x.kind = .barrier → (s.slot w).latch = none →
      Completes (.waitListRetry lpn slot) s (fun t => (t.slot w).st = .ready ∧ (t.slot w).arch = (s.slot w).arch ∧ SameMem s t)) ∧
    (∀ who tag dst y, s.item id = some (.win who tag dst (.withdraw y.id)) → ((s.proc dst).waits.find? fun z => z.id == y.id) = some y →
      Completes (.waitWithdrawal id) s (fun t => OnTheWay t (.reply who (.trap (if y.op.isSome then 7 else 8))) ∧
        (∀ z ∈ (t.proc dst).waits, z.id ≠ y.id) ∧ SameMem s t)) ∧
    (∀ tag dst op due, (id, Item.parked w tag dst op due) ∈ s.net → due ≤ (s.proc lpn).time →
      (∀ e ∈ s.net, ∀ g d o n, e.2 = .parked w g d o n → e = (id, .parked w tag dst op due)) →
      Completes (.busyReissue lpn slot) s (fun t => OnTheWay t (.win w tag dst op) ∧ t.procs = s.procs ∧ SameMem s t)) ∧
    ((∀ e ∈ s.net, ∀ g d o n, e.2 = .parked w g d o n → (s.proc lpn).time < n) → Completes (.busyReissue lpn slot) s (fun t => t = s))

/-- The service of a word's queue serves the head when it may proceed: an LDSYNC's result is held in its landing entry and the word
becomes empty; an STSYNC's value is stored, the word is full and its thread goes on (R66, R67). -/
def Clause.WordService : Prop :=
  ∀ (lpn off : Nat) (s : State) (x : Waiter),
    PlainWord s lpn off → ((s.proc lpn).waits.find? fun y => y.op.isSome && y.key == off) = some x → x.remote = false →
    (s.slot x.who).chunk = none → (s.slot x.who).commit = none →
    (x.op = some .ldsync → s.isFull lpn 2 off = true → ∀ e, (s.slot x.who).arch.landing = [e] → e.id = x.id →
      Completes (.fullEmptyService lpn off) s (fun t =>
        (t.slot x.who).arch.landing = [{ e with res := .value (w64 (memRead s.mem (winAddr lpn off) 8)) }] ∧
        (t.slot x.who).arch.regs = (s.slot x.who).arch.regs ∧ t.isFull lpn 2 off = false ∧ SameMem s t ∧
        ∀ y ∈ (t.proc lpn).waits, y.id ≠ x.id)) ∧
    (x.op = some .stsync → s.isFull lpn 2 off = false → (s.slot x.who).holds x.id = true →
      Completes (.fullEmptyService lpn off) s (fun t =>
        (∀ i, i < 8 → memGet t.mem (winAddr lpn off + i) = byteOf x.val i) ∧ SameMemBut s t lpn off 8 ∧ t.isFull lpn 2 off = true ∧
        (t.slot x.who).st = .ready ∧ (t.slot x.who).arch = (s.slot x.who).arch ∧ ∀ y ∈ (t.proc lpn).waits, y.id ≠ x.id))

/-- MBW fills an empty mailbox with a and MBR empties a full one into d, in one step; a box in the other state makes them wait in place,
at the tail of its queue, up to WAITLIM. The service of a box gives its head waiter the same step (R300). -/
def Clause.Mailboxes : Prop :=
  ∀ (r : AR) (s : State),
    let n := r.b.toNat
    let lpn := s.cur.lpn
    let b := s.myProc.mb n
    let lim := fld 31 0 s.me.regs.waitlim
    (b.full = false → Guarded (.mbw r) r.g s (fun t => t.myProc.mb n = { val := s.rd r.a, full := true, queue := b.queue } ∧ t.me = s.me ∧
      SameMem s t)) ∧
    (b.full = true → Guarded (.mbr r) r.g s (fun t => ∃ m, Wrote m t r.d b.val ∧
      m.myProc.mb n = { val := b.val, full := false, queue := b.queue } ∧ m.me = s.me ∧ SameMem s m)) ∧
    (s.me.wait = none → lim ≠ 0 →
      (b.full = true → Guarded (.mbw r) r.g s (fun t => WaitsHere s t (.mailbox n) lim (w64 n) 0 ∧
        t.myProc.mb n = { b with queue := b.queue ++ [{ id := s.nextId, who := s.cur, write := some (s.rd r.a) }] })) ∧
      (b.full = false → Guarded (.mbr r) r.g s (fun t => WaitsHere s t (.mailbox n) lim (w64 n) r.d ∧
        t.myProc.mb n = { b with queue := b.queue ++ [{ id := s.nextId, who := s.cur, write := none }] }))) ∧
    (∀ (k : BitVec 2) (x : MbWait) (rest : List MbWait) (l : Latch),
      let c := s.myProc.mb k.toNat
      c.queue = x :: rest → (s.slot x.who).holds x.id = true → (s.slot x.who).latch = some l →
      (∀ v, x.write = some v → c.full = false → Completes (.mailboxService lpn k) s (fun t =>
        t.myProc.mb k.toNat = { val := v, full := true, queue := rest } ∧ (t.slot x.who).st = .ready ∧ (t.slot x.who).arch = (s.slot x.who).arch)) ∧
      (x.write = none → c.full = true → Completes (.mailboxService lpn k) s (fun t =>
        t.myProc.mb k.toNat = { val := c.val, full := false, queue := rest } ∧ (t.slot x.who).st = .ready ∧
        ((s.slot x.who).field l.d = .gen → ∀ q : Reg, (t.slot x.who).arch.rd q =
          if q = l.d ∧ l.d ≠ 0 then c.val else (s.slot x.who).arch.rd q))))

/-- Wait limits, the service of words, and mailboxes (the clauses say what each does and cite its rules). -/
def Obligations.Waiting : Prop :=
  Clause.WaitEnds ∧ Clause.WordService ∧ Clause.Mailboxes

/-- CANCEL.L names the launch with the LID in b of the own job, CANCEL.G the launches of the own job whose GRAPH equals b, CANCEL.J every
launch of the own job, at M of the job in b. It cancels them and writes 0 to d, or 1 when none matched; CANCEL.J takes PRIV at U, and
at G for another job (R174, R398). No ring of the machine holds a record of the job here. -/
def Clause.Cancels : Prop :=
  ∀ (r : AR) (s : State),
    let b := s.rdB r.b r.x
    let own (l : Launch) : Bool := l.job.toNat == s.myProc.job && l.vmid.toNat == s.myProc.vmid
    let did (p : Launch → Bool) (t : State) : Prop :=
      ∃ m, Cancelled s m p ∧ SameMem s m ∧ m.cur = s.cur ∧ Wrote m t r.d (if s.launches.any p then 0 else 1)
    s.me.atomics = [] → s.dqs = [] →
    Guarded (.cancelL r) r.g s (did fun l => own l && l.lid == fld 15 0 b) ∧
    Guarded (.cancelG r) r.g s (did fun l => own l && l.rcd.getD 6 0 == b) ∧
    (s.me.priv = 1 → fld 15 0 b = s.myProc.job → Guarded (.cancelJ r) r.g s (did own)) ∧
    (s.me.priv = 2 → Guarded (.cancelJ r) r.g s (did fun l => l.job.toNat == fld 15 0 b)) ∧
    (s.me.Quiet → s.me.inTrap = false → s.me.priv = 0 ∨ (s.me.priv = 1 ∧ fld 15 0 b ≠ s.myProc.job) →
      Guarded (.cancelJ r) r.g s (fun t => t.bst = .stop ∧ (∃ x, TookTrap s.me t.me 2 0 0 x) ∧ t.launches = s.launches))

/-- The five forms of TLBI at a privilege that may run them broadcast their key and wait in place until every member has acknowledged:
the own VMID and job, 0 at M, for VA and JOB; the named VMID for VM, at G only the own one; the guest-physical address for GPA; all
for ALL. TLBI.VA of an address with any of bits 63:55 set has no effect. Below the privilege of the form it takes PRIV (R54, R55). -/
def Clause.Invalidations : Prop :=
  ∀ (r : AR) (s : State),
    let p := s.me.priv
    let v := if p = 2 then 0 else s.myProc.vmid
    let j := if p = 2 then 0 else s.myProc.job
    let a := (s.rd r.a).toNat
    let n := fld 7 0 (s.rd r.b)
    let privTrap (t : State) : Prop := t.bst = .stop ∧ (∃ x, TookTrap s.me t.me 2 0 0 x) ∧ t.tlbis = s.tlbis
    (s.me.wait = none →
      (p ≠ 0 → a < 2 ^ 55 → Guarded (.tlbiVa r) r.g s (fun t => Broadcasts s t 0 v j a)) ∧
      (p ≠ 0 → Guarded (.tlbiJob r) r.g s (fun t => Broadcasts s t 1 v j 0)) ∧
      (p = 2 ∨ (p = 1 ∧ n = s.myProc.vmid) → Guarded (.tlbiVm r) r.g s (fun t => Broadcasts s t 2 n 0 0)) ∧
      (p = 2 → Guarded (.tlbiGpa r) r.g s (fun t => Broadcasts s t 3 n 0 (a % 2 ^ 48))) ∧
      (p = 2 → Guarded (.tlbiAll r) r.g s (fun t => Broadcasts s t 4 0 0 0))) ∧
    (p ≠ 0 → 2 ^ 55 ≤ a → Guarded (.tlbiVa r) r.g s (fun t => t = s)) ∧
    (s.me.Quiet → s.me.inTrap = false →
      (p = 0 → Guarded (.tlbiVa r) r.g s privTrap ∧ Guarded (.tlbiJob r) r.g s privTrap ∧ Guarded (.tlbiVm r) r.g s privTrap) ∧
      (p = 1 → n ≠ s.myProc.vmid → Guarded (.tlbiVm r) r.g s privTrap) ∧
      (p = 0 ∨ p = 1 → Guarded (.tlbiGpa r) r.g s privTrap ∧ Guarded (.tlbiAll r) r.g s privTrap))

/-- A row port, a stage-two unit and a core act on a TLBI before they acknowledge it: exactly the matching entries go, and of a core whose
tag matches every stash line goes for kinds 1, 2 and 4; the core acknowledges while nothing of its process is uncommitted and no engine
element is on its way. When all have acknowledged, the thread goes on (R54, R56, R57). -/
def Clause.InvalidationSteps : Prop :=
  ∀ (m : Nat) (b : Tlbi) (s : State), s.tlbis = [b] → m ∈ b.left →
    let tag (vmid job : Nat) : Prop :=
      (b.kind ≤ 1 ∧ vmid = b.vmid ∧ job = b.job) ∨ (b.kind = 2 ∧ vmid = b.vmid) ∨ b.kind = 4
    (10000 ≤ m → m < 20000 → Completes (.tlbiInvalidate m) s (fun t =>
      (∀ e, e ∈ (spGet Port.init t.ports (m - 10000)).tlb ↔ e ∈ (spGet Port.init s.ports (m - 10000)).tlb ∧
        ¬ (tag e.vmid e.job ∧ (b.kind = 0 → e.page = b.addr / e.size))) ∧
      (b.kind ≠ 0 → ∀ e ∈ (spGet Port.init t.ports (m - 10000)).walks, ¬ tag e.vmid e.job) ∧ (∀ x ∈ t.tlbis, m ∉ x.left) ∧ SameMem s t)) ∧
    (20000 ≤ m → Completes (.tlbiInvalidate m) s (fun t =>
      (∀ e, e ∈ (t.base (m - 20000)).s2 ↔ e ∈ (s.base (m - 20000)).s2 ∧
        ¬ (b.kind = 4 ∨ (b.kind = 3 ∧ e.vmid = b.vmid ∧ e.page = b.addr / e.size))) ∧ (∀ x ∈ t.tlbis, m ∉ x.left) ∧ SameMem s t)) ∧
    (m < 10000 → b.kind ≠ 0 → tag (s.proc (s.core m).host).vmid (s.proc (s.core m).host).job →
      Completes (.tlbiInvalidate m) s (fun t => (t.core m).stash = [] ∧ t.secs = s.secs ∧ SameMem s t ∧
        ((∀ e ∈ (s.proc (s.core m).host).slots, e.2.chunk = none ∧ e.2.commit = none) →
          (∀ e ∈ s.net, ∀ q wr n v, e.2 = .pg q → q.kind ≠ .eng wr n v) → ∀ x ∈ t.tlbis, m ∉ x.left))) ∧
    (b.left = [m] → m < 10000 → b.kind = 3 → Completes (.tlbiInvalidate m) s (fun t =>
      t.agenda = s.agenda ++ [.tlbiDone b.who.lpn b.who.slot] ∧ t.cores = s.cores))

/-- When every member has acknowledged, the thread that issued the TLBI goes on (R57); an answer of Imago to a parked thread lets its
bundle issue again, or makes it take XLATE, and the record is answered once (R52, R326). -/
def Clause.AnswersArrive : Prop :=
  ∀ (w : Who) (s : State),
    (∀ b x, s.tlbis = [b] → b.who = w → b.left = [] → b.kind ≠ 3 → (s.slot w).wait = some x → x.kind = .tlbi → (s.slot w).st = .waiting →
      Completes (.tlbiDone w.lpn w.slot) s (fun t => t.tlbis = [] ∧ (t.slot w).st = .ready ∧ (t.slot w).arch = (s.slot w).arch)) ∧
    (∀ k : Parked, (s.imago.parked.find? fun x => x.seq == k.seq) = some k → k.engine = none → k.who = w →
      (s.slot w).park = some k.seq → (s.slot w).st = .parked → s.inSlice w = false →
      Completes (.parkedAnswer k.seq false) s (fun t => (t.slot w).st = .ready ∧ (t.slot w).park = none ∧
        (t.slot w).arch = (s.slot w).arch ∧ ∀ x ∈ t.imago.parked, x.seq ≠ k.seq) ∧
      ((s.slot w).Quiet → (s.slot w).inTrap = false → k.kind = 1 ∨ k.kind = 2 ∨ k.kind = 4 ∨ k.kind = 5 →
        Completes (.parkedAnswer k.seq true) s (fun t =>
          TookTrap (s.slot w) (t.slot w) 5 0 (if k.kind ≤ 2 then 0 else 1) k.la ∧ ∀ x ∈ t.imago.parked, x.seq ≠ k.seq)))

/-- CANCEL, TLBI and their steps (the clauses say what each does and cite its rules). -/
def Obligations.CancelsAndInvalidations : Prop :=
  Clause.Cancels ∧ Clause.Invalidations ∧ Clause.InvalidationSteps ∧ Clause.AnswersArrive

/-- The element with index i0 + N0 (i1 + N1 (i2 + N2 i3)) of a transfer has the offset OFF + i0 E + i1 S1 + i2 S2 + i3 S3 modulo 2^64,
with the side's own signed strides (R305). -/
def Clause.ElementOffsets : Prop :=
  ∀ (d : Desc) (dst : Bool) (i0 i1 i2 i3 : Nat),
    let n (j : Nat) : Nat := fld (16 * j + 15) (16 * j) d[3]
    let e := 2 ^ fld 3 2 d[0]
    let str (w hi lo : Nat) (h : w < 8) : BitVec 64 := (BitVec.ofNat 32 (fld hi lo d[w])).signExtend 64
    i0 < n 0 → (i1 < n 1 ∨ n 1 = 0 ∧ i1 = 0) → (i2 < n 2 ∨ n 2 = 0 ∧ i2 = 0) → (i3 < n 3 ∨ n 3 = 0 ∧ i3 = 0) →
    elemOff d dst (i0 + n 0 * (i1 + max 1 (n 1) * (i2 + max 1 (n 2) * i3))) =
      if dst then d[2] + w64 (i0 * e) + w64 i1 * str 5 63 32 (by decide) + w64 i2 * str 6 31 0 (by decide) + w64 i3 * str 6 63 32 (by decide)
      else d[1] + w64 (i0 * e) + w64 i1 * str 4 31 0 (by decide) + w64 i2 * str 4 63 32 (by decide) + w64 i3 * str 5 31 0 (by decide)

/-- BCOPY of slot 15 with a free place starts a copy: it carries the tag, the descriptor, the segments, privilege and tag of its thread,
and begins at START; a malformed descriptor stops it with status 9. The thread goes on with its registers unchanged. With 8 copies
active it waits up to WAITLIM, and goes on with the descriptor as it read it; another slot takes ILLOP (R299, R304, R306). -/
def Clause.CopyStarts : Prop :=
  ∀ (r : AR) (s : State) (o : Nat),
    (AtDescriptor s (s.rd r.a) o →
      (s.myCore.copies.length < 8 →
        Guarded (.bcopy r) r.g s (fun t => t.me = s.me ∧ SameMem s t ∧
          ∃ c, Started s c (s.rdB r.b r.x) o ∧ c.next = c.desc[7].toNat ∧
            (descBad c.desc false = false → t.myCore.copies = s.myCore.copies ++ [c]) ∧
            (descBad c.desc false = true → { c with stop := some (9, 0, 0) } ∈ t.myCore.copies))) ∧
      (8 ≤ s.myCore.copies.length → s.me.wait = none → fld 31 0 s.me.regs.waitlim ≠ 0 →
        Guarded (.bcopy r) r.g s (fun t => WaitsAgain s t .copies (fld 31 0 s.me.regs.waitlim) (s.rd r.a) ∧ t.cores = s.cores ∧
          ∃ d, t.me.sdesc = some d ∧ ∀ i, ∀ h : i < 8, d[i] = w64 (s.locRead s.cur.lpn s.me.priv (o + 8 * i) 8)))) ∧
    (∀ d, s.cur.slot = 15 → s.myCore.swap = none → s.me.sdesc = some d → s.myCore.copies.length < 8 → descBad d false = false →
      Guarded (.bcopy r) r.g s (fun t => t.me = s.me ∧ SameMem s t ∧
        ∃ c, t.myCore.copies = s.myCore.copies ++ [c] ∧ c.id = s.nextId ∧ c.desc = d ∧ c.next = d[7].toNat ∧ c.who = s.cur)) ∧
    (s.me.Quiet → s.me.inTrap = false → s.cur.slot ≠ 15 →
      Guarded (.bcopy r) r.g s (fun t => t.bst = .stop ∧ TookTrap s.me t.me 1 0 0 s.bword))

/-- A copy reads its element from the own local memory and then writes it to the own local memory, little-endian, each in one step; the
next element follows. When every element is done, or it has stopped, its completion entry goes to the inbox with its PROG (R150,
R306, R308, R309). -/
def Clause.CopySteps : Prop :=
  ∀ (c : Copy) (s : State) (o : Nat),
    let size := 2 ^ fld 3 2 c.desc[0]
    s.copyOf c.id = some c → c.park = none → c.asked = none → spHas s.net c.id = false →
    (c.stop = none → c.got = none → c.next < descCount c.desc → EngineAccess s c false c.next size 1 o →
      Completes (.engineElementRead c.id) s (fun t => t.copyOf c.id = some { c with got := some (w64 (memRead s.mem (winAddr c.who.lpn o) size)) } ∧
        SameMem s t)) ∧
    (∀ v : W64, c.stop = none → c.got = some v → EngineAccess s c true c.next size 2 o →
      Completes (.engineElementWrite c.id) s (fun t => t.copyOf c.id = some { c with got := none, next := c.next + 1 } ∧
        (∀ i, i < size → memGet t.mem (winAddr c.who.lpn o + i) = byteOf v i) ∧ SameMemBut s t c.who.lpn o size)) ∧
    (∀ status side reason, c.stop = some (status, side, reason) → status < 16 → side < 2 → reason < 8 →
      (∀ e ∈ (s.proc c.who.lpn).inWait, e.id ≠ c.id) →
      Completes (.engineCompletion c.id) s (fun t => SameMem s t ∧
        Completed s t c 0 status 0 side reason (if status = 0 then max c.desc[7].toNat (descCount c.desc) else c.next)))

/-- STRM of slot 15 binds a free stream register to its slot over the elements from START, inbound or outbound, and writes no register; to
a bound register it completes with status 12, malformed with status 9, and with START at the end with status 0; with 8
copies active it waits as BCOPY does. STRMX of a register
that is not bound writes 0; of an inbound stream that no uncommitted chunk uses it unbinds the register, completes with status 10 and
writes PROG (R306, R311, R315). The KIND of a malformed STRM is the model's reading. -/
def Clause.Streams : Prop :=
  ∀ (r : AR) (s : State) (o : Nat),
    (AtDescriptor s (s.rd r.a) o → s.myCore.copies.length < 8 → ∀ c : Copy, Started s c (s.rdB r.b r.x) o → c.next = c.desc[7].toNat →
      let n := fld 13 12 c.desc[0]
      let kind := if fld 1 0 c.desc[0] = 2 then 2 else 1
      let start := c.desc[7].toNat
      let after (t : State) : Prop := t.me.arch = s.me.arch ∧ SameMem s t
      (descBad c.desc true = true → Guarded (.strm r) r.g s (fun t => after t ∧ Completed s t c kind 9 n 0 0 start)) ∧
      (descBad c.desc true = false → s.stream s.myProc.core n ≠ none →
        Guarded (.strm r) r.g s (fun t => after t ∧ Completed s t c kind 12 n 0 0 start)) ∧
      (descBad c.desc true = false → s.stream s.myProc.core n = none → descCount c.desc ≤ start →
        Guarded (.strm r) r.g s (fun t => after t ∧ Completed s t c kind 0 n 0 0 (max start (descCount c.desc)))) ∧
      (descBad c.desc true = false → s.stream s.myProc.core n = none → start < descCount c.desc →
        Guarded (.strm r) r.g s (fun t => after t ∧ ∃ x, t.stream s.myProc.core n = some x ∧ x.out = (fld 1 0 c.desc[0] == 2) ∧
          x.slot = fld 17 14 c.desc[0] ∧ x.op = c ∧ x.buf = [] ∧ x.done = start ∧ x.fault = none))) ∧
    (AtDescriptor s (s.rd r.a) o → 8 ≤ s.myCore.copies.length → s.me.wait = none → fld 31 0 s.me.regs.waitlim ≠ 0 →
      Guarded (.strm r) r.g s (fun t => WaitsAgain s t .copies (fld 31 0 s.me.regs.waitlim) (s.rd r.a) ∧ t.cores = s.cores)) ∧
    (s.cur.slot = 15 → s.stream s.myProc.core r.b.toNat = none → Guarded (.strmx r) r.g s (fun t => Wrote s t r.d 0)) ∧
    (∀ x, s.cur.slot = 15 → s.stream s.myProc.core r.b.toNat = some x → x.out = false → x.op.who.lpn = s.cur.lpn → r.b.toNat < 4 →
      (s.slot { lpn := s.myCore.host, slot := x.slot }).chunk = none → (s.slot { lpn := s.myCore.host, slot := x.slot }).commit = none →
      s.me.wait = none → s.me.st = .ready →
      Guarded (.strmx r) r.g s (fun t => ∃ m, Wrote m t r.d (w64 x.done) ∧ m.stream s.myProc.core r.b.toNat = none ∧ m.me = s.me ∧
        SameMem s m ∧ Completed s m x.op 1 10 r.b.toNat 0 0 x.done)) ∧
    (s.me.Quiet → s.me.inTrap = false → s.cur.slot ≠ 15 →
      Guarded (.strm r) r.g s (fun t => t.bst = .stop ∧ TookTrap s.me t.me 1 0 0 s.bword) ∧
      Guarded (.strmx r) r.g s (fun t => t.bst = .stop ∧ TookTrap s.me t.me 1 0 0 s.bword))

/-- An inbound stream below its limit of 32 elements read ahead takes its next element from the own local memory into its buffer (R313). -/
def Clause.StreamReads : Prop :=
  ∀ (core : Nat) (n : BitVec 2) (x : Stream) (s : State) (o : Nat),
    let size := 2 ^ fld 3 2 x.op.desc[0]
    let k := x.done + x.buf.length
    s.stream core n.toNat = some x → x.out = false → x.fault = none → x.op.park = none → spHas s.net x.op.id = false →
    k < descCount x.op.desc → x.buf.length < 32 → EngineAccess s x.op false k size 1 o →
    Completes (.streamReadAhead core n) s (fun t =>
      t.stream core n.toNat = some { x with buf := x.buf ++ [w64 (memRead s.mem (winAddr x.op.who.lpn o) size)] } ∧ SameMem s t)

/-- Copies and streams of the transfer engine (the clauses say what each does and cite its rules). -/
def Obligations.EngineTransfers : Prop :=
  Clause.ElementOffsets ∧ Clause.CopyStarts ∧ Clause.CopySteps ∧ Clause.Streams ∧ Clause.StreamReads

/-- The pairing accumulator keeps its value: a visit adds gp − gn to it and a drain changes it by nothing and empties both queues,
while the wrap counter does not saturate; after a visit at most one queue is not empty and it holds at most 3 sums (R352, R353, R355). -/
def Clause.PairingAccumulator : Prop :=
  ∀ a : Acc, (∀ v ∈ a.p ++ a.n, v < 2 ^ 39) →
    (a.drain.ind = false → a.drain.value = a.value ∧ a.drain.p = [] ∧ a.drain.n = []) ∧
    (∀ gp gn, gp < 2 ^ 39 → gn < 2 ^ 39 → (a.visit gp gn).ind = false → (a.visit gp gn).value = a.value + gp - gn) ∧
    (∀ gp gn, (a.p = [] ∧ a.n.length ≤ 3) ∨ (a.n = [] ∧ a.p.length ≤ 3) →
      ((a.visit gp gn).p = [] ∧ (a.visit gp gn).n.length ≤ 3) ∨ ((a.visit gp gn).n = [] ∧ (a.visit gp gn).p.length ≤ 3))

/-- On an idle slice: MCFG writes the old configuration word to d and installs the new word, from a or from fmt, and the key; on a live
slice, or with a word that breaks a rule, it takes ILLOP and installs nothing. MZERO makes every accumulator 0, sets LIVE and clears
TAIL, IND and OVF (R346, R348). -/
def Clause.MatrixSetup : Prop :=
  ∀ (r : AR) (s : State), IdleSlice s →
    let mx := s.myProc.mx
    let v := if r.a = 0 then w64 (fld 21 0 s.me.regs.fmt) else s.rd r.a
    (tb 6 mx.status = false → GoodConfig v →
      Guarded (.mcfg r) r.g s (fun t => t.myProc.mx = { mx with cfg := v, key := BitVec.ofNat 16 (s.rdB r.b r.x).toNat } ∧
        ∃ m, Wrote m t r.d mx.cfg ∧ m.me = s.me ∧ SameMem s m)) ∧
    (s.me.Quiet → s.me.inTrap = false → tb 6 mx.status = true ∨ ¬ GoodConfig v →
      Guarded (.mcfg r) r.g s (fun t => t.bst = .stop ∧ TookTrap s.me t.me 1 0 0 s.bword ∧ t.myProc.mx.cfg = mx.cfg ∧ t.myProc.mx.key = mx.key)) ∧
    Guarded (.mzero r) r.g s (fun t => t.me = s.me ∧ SameMem s t ∧ (∀ i j, j < 64 → t.myProc.mx.at i j = Acc.init) ∧
      t.myProc.mx.cfg = mx.cfg ∧ t.myProc.mx.queue = [] ∧
      ∀ k, k < 64 → tb k t.myProc.mx.status = if k = 6 then true else if k = 8 ∨ k = 9 ∨ k = 10 then false else tb k mx.status)

/-- MMA of a solo slice whose operands lie in the own local memory: for every row up to MR each of the 64 accumulators of the row is
visited once with its group's sums, and takes the group's NAN mark; every other accumulator, the registers and memory stay as they are
(R349, R351, R353, R354). -/
def Clause.MatrixMultiply : Prop :=
  ∀ (r : AR) (s : State) (o : Nat) (c : MCfg),
    let mx := s.myProc.mx
    let d := descAt s o
    let kb := (s.rdB r.b r.x).toInt
    let rows := fld 14 9 (d.getD 0 0)
    let g (i j : Nat) : Grp := group c ((mmaAReads c d kb i).map (tileValue s)) ((mmaBReads c d kb).map (tileValue s)) j
    IdleSlice s → s.bst = .run → tb 6 mx.status = true → mcfg mx.cfg = some c → c.gm = 0 → OwnAccess s 0 (s.rd r.a) 64 1 o →
    s.locBad s.cur.lpn s.me.priv o 64 = false → mmaBad c d = false → mmaMisaligned d = false →
    (∀ x ∈ mmaBReads c d kb, ∃ p, OwnTile s x 1 p) → (∀ i, i ≤ rows → ∀ x ∈ mmaAReads c d kb i, ∃ p, OwnTile s x 1 p) →
    (∀ i j, i ≤ rows → j < 64 → (g i j).gp < 2 ^ 39 ∧ (g i j).gn < 2 ^ 39) →
    Guarded (.mma r) r.g s (fun t => t.me = s.me ∧ SameMem s t ∧ t.bst = .run ∧ t.myProc.mx.queue = [] ∧
      ∀ i j, j < 64 → t.myProc.mx.at i j =
        if i ≤ rows then ({ mx.at i j with nan := (mx.at i j).nan || (g i j).nan } : Acc).visit (g i j).gp (g i j).gn else mx.at i j)

/-- MEND of a live slice none of whose accumulators is indeterminate or beyond 40 bits drains every queue of the 64 rows and clears TAIL.
MSTAT writes the status with BUSY to d and clears the sticky flags whose bit in a is 1 (R355, R362). -/
def Clause.MatrixEnd : Prop :=
  ∀ (r : AR) (s : State),
    let mx := s.myProc.mx
    (IdleSlice s → tb 6 mx.status = true → (∀ i j, i < 64 → j < 64 → (mx.at i j).drain.ind = false ∧ (mx.at i j).drain.w = 0) →
      Guarded (.mend r) r.g s (fun t => t.me = s.me ∧ SameMem s t ∧ t.bst = s.bst ∧ t.myProc.mx.queue = [] ∧
        (∀ i j, i < 64 → j < 64 → t.myProc.mx.at i j = (mx.at i j).drain) ∧
        ∀ k, k < 64 → tb k t.myProc.mx.status = (k != 8 && tb k mx.status))) ∧
    Guarded (.mstat r) r.g s (fun t => ∃ m v, Wrote m t r.d v ∧ m.me = s.me ∧ SameMem s m ∧
      (∀ k, k < 64 → tb k v = if k = 7 then !mx.queue.isEmpty else tb k mx.status) ∧
      (∀ k, k < 64 → tb k m.myProc.mx.status = (tb k mx.status && !(k < 6 && tb k (s.rd r.a)))) ∧ m.myProc.mx.acc = mx.acc)

/-- The matrix slice: configuration, products and MEND (the clauses say what each does and cite its rules). -/
def Obligations.MatrixProducts : Prop :=
  Clause.PairingAccumulator ∧ Clause.MatrixSetup ∧ Clause.MatrixMultiply ∧ Clause.MatrixEnd

/-- MSTO of a live slice to rows in the own local memory that do not overlap: each element of each row is written packed, its
accumulators are cleared when CLR is 1, the completion entry with KIND 3, STATUS 0 and PROG = MR + 1 is offered, and the thread waits.
Once the entry is placed the instruction ends, and with FIN the slice is no longer live (R359, R360, R361). -/
def Clause.MatrixStore : Prop :=
  ∀ (r : AR) (s : State) (o p : Nat) (c : MCfg),
    let mx := s.myProc.mx
    let lpn := s.cur.lpn
    let d := descAt s o
    let d0 := d.getD 0 0
    let rows := fld 15 10 d0
    let bias := if tb 16 d0 then tileValue s { seg := fld 9 7 d0, off := d.getD 3 0, size := 256 } else 0
    let w := (Fmt.ofCode (fld 3 0 d0)).width
    let elem (i j : Nat) : Nat := (mstoElem d c.floor (mx.at i j) (bias / 2 ^ (32 * j) % 2 ^ 32)).1
    let row (i : Nat) : Nat := segBase (s.seg s.cur (mstoDest d i).seg) + (mstoDest d i).off.toNat
    (IdleSlice s → s.me.Quiet → tb 6 mx.status = true → mcfg mx.cfg = some c → OwnAccess s 0 (s.rd r.a) 64 1 o →
      s.locBad lpn s.me.priv o 64 = false → mstoBad d = false → fld 3 0 (d.getD 1 0) = 0 → fld 3 0 (d.getD 2 0) = 0 →
      (tb 16 d0 = true → OwnTile s { seg := fld 9 7 d0, off := d.getD 3 0, size := 256 } 1 p) →
      (∀ i, i ≤ rows → ∃ q, OwnTile s (mstoDest d i) 2 q) →
      (∀ i k, i ≤ rows → k ≤ rows → i ≠ k → row i + 8 * w ≤ row k ∨ row k + 8 * w ≤ row i) →
      (s.dom (s.domOf (locLine lpn 0))).held = [] →
      Guarded (.msto r) r.g s (fun t =>
        (∀ i j b, i ≤ rows → j < 64 → b < w →
          (memGet t.mem (row i + (w * j + b) / 8)).getLsbD ((w * j + b) % 8) = (elem i j).testBit b) ∧
        (∀ a, (∀ i, i ≤ rows → a < row i ∨ row i + 8 * w ≤ a) → memGet t.mem a = memGet s.mem a) ∧
        (∀ i j, j < 64 → t.myProc.mx.at i j = if i ≤ rows ∧ tb 21 d0 = true then Acc.init else mx.at i j) ∧
        t.me.st = .waiting ∧ t.bst = .stop ∧ t.me.arch = s.me.arch ∧
        ∃ e, t.myProc.inWait = s.myProc.inWait ++ [e] ∧ fld 15 0 e.w0 = fld 15 0 (s.rdB r.b r.x) ∧ fld 19 16 e.w0 = 3 ∧ fld 23 20 e.w0 = 0 ∧
          tb 63 e.w0 = true ∧ e.w1 = w64 (rows + 1))) ∧
    (∀ q, mx.queue = [q] → q.who = s.cur → q.fin = some none → q.desc = some d → rows < q.row →
      (∀ e ∈ s.myProc.inWait, e.id ≠ q.id) →
      Guarded (.msto r) r.g s (fun t => t.myProc.mx.queue = [] ∧ t.bst = s.bst ∧ t.me = s.me ∧ SameMem s t ∧
        tb 6 t.myProc.mx.status = (tb 6 mx.status && !tb 20 d0)))

/-- When every core of a row has joined with the same parameters the gang starts and every member goes on; when they differ every
member takes GANGTO with TADDR 1. A member whose GANGLIM runs out first takes GANGTO with TADDR 0; TPROG holds its starting row and P
is 1 (R357). -/
def Clause.Gangs : Prop :=
  ∀ (row : Nat) (j : Nat → Join) (s : State),
    (∀ i, i < 16 → (s.proc (s.core (16 * row + i)).host).mx.join = some (j i) ∧ (j i).who.lpn = (s.core (16 * row + i)).host ∧
      (s.slot (j i).who).st = .waiting) →
    (∀ i k, i < 16 → k < 16 → i ≠ k → (j i).who.lpn ≠ (j k).who.lpn) →
    ((∀ i k, i < 16 → k < 16 → (j i).cfg = (j k).cfg ∧ (j i).key = (j k).key ∧ (j i).mr = (j k).mr ∧ (j i).r0 = (j k).r0) →
      Completes (.gangStart row) s (fun t => ∀ i, i < 16 → (t.slot (j i).who).st = .ready ∧ (t.proc (j i).who.lpn).mx.join = none ∧
        (∀ q ∈ (t.proc (j i).who.lpn).mx.queue, q.who = (j i).who → q.gang = true) ∧ (t.slot (j i).who).arch = (s.slot (j i).who).arch)) ∧
    ((∃ i k, i < 16 ∧ k < 16 ∧ (j i).key ≠ (j k).key) →
      (∀ i, i < 16 → (s.slot (j i).who).Quiet ∧ (s.slot (j i).who).inTrap = false ∧ (s.slot (j i).who).park = none ∧
        (s.proc (j i).who.lpn).mx.queue.length = 1) →
      Completes (.gangStart row) s (fun t => ∀ i, i < 16 →
        TookPartTrap (s.slot (j i).who) (t.slot (j i).who) 9 1 (w64 (j i).r0)))

/-- A member that has waited GANGLIM cycles for its gang is withdrawn and takes GANGTO with TADDR 0, TPROG its starting row and P = 1
(R357). -/
def Clause.GangLimit : Prop :=
  ∀ (lpn slot id : Nat) (x : Wait) (j : Join) (s : State),
    let w : Who := { lpn := lpn, slot := slot }
    (s.slot w).wait = some x → x.kind = .gang → x.id = id → (s.proc lpn).mx.join = some j → j.who = w →
    (∃ i, i < 16 ∧ (s.proc (s.core (16 * rowOf (s.hostOf lpn) + i)).host).mx.join = none) →
    (s.slot w).Quiet → (s.slot w).inTrap = false → (s.slot w).park = none → (s.proc lpn).mx.queue.length = 1 →
    (∀ q ∈ (s.proc lpn).mx.queue, q.who = w) →
    Completes (.ganglimExpiry lpn slot id) s (fun t => TookPartTrap (s.slot w) (t.slot w) 9 0 (w64 j.r0) ∧
      (t.proc lpn).mx.join = none ∧ (t.proc lpn).mx.queue = [] ∧ SameMem s t)

/-- MSTO and gangs (the clauses say what each does and cite its rules). -/
def Obligations.MatrixStoresAndGangs : Prop :=
  Clause.MatrixStore ∧ Clause.Gangs ∧ Clause.GangLimit

/-- SETPOS on a core with EN = 0 sets pos and clears B; with EN = 1 it stays and sets B where the own core owns the bin, and else the
bundle ends with a migration there; in slot 15 it takes ILLOP. GETPOS reads pos with B in bit 63, PUBL sets the payload word. NEIGH
records its candidates and writes their number, 0 for an unbound thread or without a field; NEXTN returns the one with the smallest
handle from the cursor on in three registers, or three zeros (R422 to R428). -/
def Obligations.Positions : Prop :=
  ∀ (r : AR) (s : State),
    let p := s.myProc
    let x := s.me
    let b := s.rdB r.b r.x
    let v : BitVec 60 := b.setWidth 60
    (x.Quiet → x.inTrap = false → s.cur.slot = 15 → Guarded (.setpos r) r.g s (fun t => Trapped s t 1 0 0 s.bword)) ∧
    (s.cur.slot ≠ 15 → tb 0 p.fieldcfg = false →
      Guarded (.setpos r) r.g s (fun t => OnlyMe s t ∧ t.me = { x with pos := v, bound := false })) ∧
    (∀ n, tb 0 p.fieldcfg = true → CachedOwner p v n →
      (s.cur.slot ≤ 13 → fieldCore p.fieldcfg n = p.core →
        Guarded (.setpos r) r.g s (fun t => OnlyMe s t ∧ t.me = { x with pos := v, bound := true })) ∧
      (s.cur.slot ≠ 15 → fieldCore p.fieldcfg n ≠ p.core ∨ 13 < s.cur.slot → Carriable x →
        Guarded (.setpos r) r.g s (fun t => Leaves s t .setpos (s.core (fieldCore p.fieldcfg n)).host v true))) ∧
    Guarded (.getpos r) r.g s (fun t => ∃ w, Wrote s t r.d w ∧ w.extractLsb' 0 60 = x.pos ∧ fld 62 60 w = 0 ∧ tb 63 w = x.bound) ∧
    Guarded (.publ r) r.g s (fun t => OnlyMe s t ∧ t.me = { x with payload := b }) ∧
    Guarded (.neigh r) r.g s (fun t => ∃ m q, OnlyMe s m ∧ m.me = { x with query := some q } ∧ q.pos = x.pos ∧ q.cursor = 0 ∧
      Wrote m t r.d (w64 q.ents.length) ∧
      (x.bound = false ∨ tb 0 p.fieldcfg = false → q.ents = []) ∧
      (x.bound = true → tb 0 p.fieldcfg = true → ∀ e, e ∈ q.ents ↔
        (e ∈ p.snap ∨ e ∈ p.halo) ∧ e.handle ≠ x.snaph.toNat ∧ distance2 e.pos x.pos ≤ b.toNat)) ∧
    (x.query = none → Guarded (.nextn r) r.g s (fun t => WroteAll s t [(r.d, 0), (r.d + 1, 0), (r.d + 2, 0)])) ∧
    (∀ q, x.query = some q →
      ((∀ e ∈ q.ents, e.handle < q.cursor) →
        Guarded (.nextn r) r.g s (fun t => WroteAll s t [(r.d, 0), (r.d + 1, 0), (r.d + 2, 0)])) ∧
      (∀ e ∈ q.ents, q.cursor ≤ e.handle → e.handle < 2 ^ 63 → (∀ y ∈ q.ents, q.cursor ≤ y.handle → y = e ∨ e.handle < y.handle) →
        Guarded (.nextn r) r.g s (fun t => ∃ m, OnlyMe s m ∧ m.me = { x with query := some { q with cursor := e.handle + 1 } } ∧
          WroteAll m t [(r.d, w64 (2 ^ 63 + e.handle)), (r.d + 1, w64 (2 ^ 63 + e.pos.toNat)), (r.d + 2, e.payload)])))

/-- WHERE writes the core number of the entry, PEER the weights of both entries of the triple, the hops and whether the send entry exists.
With no placement entry WHERE, PEER and MIGR take SEGV reason 4 with the LPN in TADDR. ANCHOR sets ANC and writes the old anchor bits;
clearing it in a field takes ILLOP, and it waits while a swap is accepted. MIGR to the own process does nothing, and else the bundle
ends with a migration that clears B (R426, R445 to R447). -/
def Obligations.Placement : Prop :=
  ∀ (r : AR) (s : State),
    let b := s.rdB r.b r.x
    let n := fld 18 0 b
    let k := fld 21 19 b
    let lpn := s.cur.lpn
    let p := s.myProc
    (∀ c, s.placeLookup (s.hostOf lpn) n = .host c →
      Guarded (.whereIs r) r.g s (fun t => Wrote s t r.d (w64 (s.coreNumber c))) ∧
      Guarded (.peer r) r.g s (fun t => ∃ v, Wrote s t r.d v ∧ fld 62 48 v = 0 ∧
        fld 47 32 v = routeHops (fld 3 0 s.myCore.anedge) p.core c ∧
        (∀ e, SeqEntry s lpn (seqKey false n k) e → fld 15 0 v = seqWT e ∧ tb 63 v = true) ∧
        (NoSeqEntry s lpn (seqKey false n k) → fld 15 0 v = 0 ∧ tb 63 v = false) ∧
        (∀ e, SeqEntry s lpn (seqKey true n k) e → fld 31 16 v = seqWT e) ∧
        (NoSeqEntry s lpn (seqKey true n k) → fld 31 16 v = 0)) ∧
      (n ≠ lpn ∨ s.cur.slot = 15 → Carriable s.me → Guarded (.migr r) r.g s (fun t => Leaves s t .migr n s.me.pos false))) ∧
    (n = lpn → s.myCore.host = lpn → s.cur.slot ≠ 15 → Guarded (.migr r) r.g s (fun t => t = s)) ∧
    (s.me.Quiet → s.me.inTrap = false → s.placeLookup (s.hostOf lpn) n = .none →
      Guarded (.whereIs r) r.g s (fun t => Trapped s t 3 0 4 (w64 n)) ∧ Guarded (.peer r) r.g s (fun t => Trapped s t 3 0 4 (w64 n)) ∧
      Guarded (.migr r) r.g s (fun t => Trapped s t 3 0 4 (w64 n))) ∧
    (tb 0 b = true ∨ tb 0 p.fieldcfg = false →
      (s.myCore.swap = none → Guarded (.anchor r) r.g s (fun t => ∃ m,
        Wrote m t r.d (w64 ((if p.anc then 1 else 0) + (if p.lanc then 2 else 0))) ∧ m.cur = s.cur ∧ SameButProcs s m ∧
        ∀ l, m.proc l = if l = lpn then { p with anc := tb 0 b } else s.proc l)) ∧
      (s.myCore.swap ≠ none → s.me.wait = none → Guarded (.anchor r) r.g s (fun t => WaitsAgain s t .swap 0 0))) ∧
    (tb 0 b = false → tb 0 p.fieldcfg = true → s.me.Quiet → s.me.inTrap = false →
      Guarded (.anchor r) r.g s (fun t => Trapped s t 1 0 0 s.bword))

/-- A carry packet is refused by the job check and by an unequal FIELDCFG, starts in the lowest usable free slot, joins the arrival queue
while that has a place, and is else refused busy. Acknowledged, its origin slot becomes absent; refused, the thread takes SEGV reason 5
or 4; refused busy, it is offered again after 64 cycles, or at WAITLIM if that is sooner, when the thread takes WAITTO (R32, R416,
R417). -/
def Obligations.CarryPackets : Prop :=
  ∀ (id : Nat) (c : Carry) (s : State),
    let p := s.proc c.dst
    let slots := if c.ctx.bound then 14 else 15
    let same (t : State) : Prop := t.procs = s.procs ∧ t.mem = s.mem
    (s.item id = some (.carry c) →
      (jobCheck c.tag p = false → Completes (.carryPacketArrive id) s (fun t => OnTheWay t (.carryRef c 5) ∧ same t)) ∧
      (jobCheck c.tag p = true → c.why = .setpos → tb 0 p.fieldcfg = false ∨ p.fieldcfg ≠ c.fieldcfg →
        Completes (.carryPacketArrive id) s (fun t => OnTheWay t (.carryRef c 4) ∧ same t)) ∧
      (jobCheck c.tag p = true → c.why ≠ .setpos ∨ (tb 0 p.fieldcfg = true ∧ p.fieldcfg = c.fieldcfg) →
        (∀ n, n < slots → p.freeSlot n = true → (∀ m, m < n → p.freeSlot m = false) →
          Completes (.carryPacketArrive id) s (fun t => OnTheWay t (.carryAck c p.core) ∧ t.mem = s.mem ∧
            t.slot { lpn := c.dst, slot := n } = { c.ctx with st := .starting, heldMsgs := (p.slot n).heldMsgs } ∧
            ∀ w : Who, w ≠ { lpn := c.dst, slot := n } → t.slot w = s.slot w)) ∧
        ((∀ m, m < slots → p.freeSlot m = false) →
          (p.arrq.length < 8 → Completes (.carryPacketArrive id) s (fun t => OnTheWay t (.carryAck c p.core) ∧ t.mem = s.mem ∧
            (t.proc c.dst).arrq = p.arrq ++ [c] ∧ ∀ w : Who, t.slot w = s.slot w)) ∧
          (8 ≤ p.arrq.length → Completes (.carryPacketArrive id) s (fun t => OnTheWay t (.carryRef c 0) ∧ same t)))) ∧
      ((∀ x, (s.slot c.origin).wait = some x → (s.proc c.origin.lpn).time - x.since < x.limit) →
        Completes (.carryReoffer id) s (fun t => OnTheWay t (.carry c) ∧ same t))) ∧
    (∀ x, AtOrigin s c x →
      (∀ core, s.item id = some (.carryAck c core) → (∀ e ∈ (s.core (s.hostOf c.origin.lpn)).streams, e.2.slot ≠ c.origin.slot) → Completes (.carryAck id) s (fun t => (t.slot c.origin).st = .absent ∧ t.mem = s.mem ∧
        t.launches = s.launches ∧ ∀ w : Who, w ≠ c.origin → t.slot w = s.slot w)) ∧
      (s.item id = some (.carryRef c 5) → Completes (.carryRefused id) s (fun t => t.item id = none ∧
        TookTrap (s.slot c.origin) (t.slot c.origin) 3 c.seg 5 c.addr)) ∧
      (s.item id = some (.carryRef c 4) → Completes (.carryRefused id) s (fun t => t.item id = none ∧
        TookTrap (s.slot c.origin) (t.slot c.origin) 3 0 4 (w64 (winAddr c.dst 0)))) ∧
      (s.item id = some (.carryRef c 0) →
        (x.limit ≤ (s.proc c.origin.lpn).time - x.since → Completes (.carryRefused id) s (fun t => t.item id = none ∧
          TookTrap (s.slot c.origin) (t.slot c.origin) 7 0 0 (w64 c.dst))) ∧
        ((s.proc c.origin.lpn).time - x.since < x.limit → Completes (.carryRefused id) s (fun t => t.item id = some (.carry c) ∧ same t ∧
          t.timers = s.timers ++ [{ clock := .proc c.origin.lpn, left := min 64 (x.limit - ((s.proc c.origin.lpn).time - x.since)), ev := .carryReoffer id }]))) ∧
      (s.item id = some (.carry c) → x.limit ≤ (s.proc c.origin.lpn).time - x.since → Completes (.carryReoffer id) s (fun t => t.item id = none ∧
        TookTrap (s.slot c.origin) (t.slot c.origin) 7 0 0 (w64 c.dst))))

/-- A write of FIELDCFG that breaks a rule of R419 takes ILLOP; a legal one that does not set EN installs the value. A step's notice at a
core whose FIELDCFG is the owner's counts STEP and RES and clears HOVF and MIS; at another it sets MIS; when the last core has taken it
the later phases follow in order. A count reaches the neighbour that holds it. A core within its LIMIT hands nothing away; one above
it, by its count of phase 2, writes the entry of the bin of R430 and every core of the field drops its cached entry. A part of a phase
that is done is followed by the next one (R419, R429, R430). -/
def Clause.FieldSteps : Prop :=
  ∀ (v : W64) (core owner : Nat) (f : FieldStep) (rest : List FieldStep) (s : State),
    let p := s.myProc
    let h := (s.core core).host
    let bad : Prop := fld 63 41 v ≠ 0 ∨ 19 < fld 5 1 v ∨ 19 < fld 10 6 v ∨ 63 < fld 33 28 v + fld 20 15 v ∨ 127 < fld 40 34 v + fld 27 21 v ∨
      (tb 0 v = true ∧ ((p.anc = false ∧ p.lanc = false) ∨ fld 23 16 p.lmmap < 4 ∨ meshX p.core < fld 33 28 v ∨
        fld 33 28 v + fld 20 15 v < meshX p.core ∨ meshY p.core < fld 40 34 v ∨ fld 40 34 v + fld 27 21 v < meshY p.core))
    (bad → s.me.Quiet → s.me.inTrap = false → Completes (.fieldcfgWrite v) s (fun t => Trapped s t 1 0 0 s.bword)) ∧
    (¬ bad → tb 0 v = false ∨ tb 0 p.fieldcfg = true → Completes (.fieldcfgWrite v) s (fun t => SameButProcs s t ∧
      ∀ l, t.proc l = if l = s.cur.lpn then { p with fieldcfg := v, ftabs := [] } else s.proc l)) ∧
    ((s.proc owner).fsteps = f :: rest → core ∈ f.left →
      ((s.proc h).fieldcfg = (s.proc owner).fieldcfg → (s.tableAll h).2.isSome = true → Completes (.fieldStepNotice core owner f.gen) s (fun t =>
        let v := (t.proc h).fstat
        spGet 0 (t.proc h).nbrs core = (s.proc h).residents.length ∧
        fld 15 0 v = (fld 15 0 (s.proc h).fstat + 1) % 65536 ∧ fld 19 16 v = min 15 (s.proc h).residents.length ∧ tb 20 v = false ∧ tb 21 v = false)) ∧
      ((s.proc h).fieldcfg ≠ (s.proc owner).fieldcfg → Completes (.fieldStepNotice core owner f.gen) s (fun t =>
        tb 21 (t.proc h).fstat = true ∧ fld 20 0 (t.proc h).fstat = fld 20 0 (s.proc h).fstat ∧ t.mem = s.mem ∧
        (f.left = [core] → ∃ g, (t.proc owner).fsteps = g :: rest ∧ t.agenda = s.agenda ++ g.todo.take 1 ∧
          g.todo = (f.parts.map fun c => Ev.fieldHandover c) ++ (f.parts.map fun c => Ev.fieldSnapshot c) ++
            (f.parts.flatMap fun a => (f.parts.filter fun b => b != a).map fun b => Ev.fieldHaloCopy a b) ++ [Ev.fieldStepRelease owner])))) ∧
    (∀ src n, Completes (.fieldResidentCount core src n) s (fun t => ∀ l c, spGet 0 (t.proc l).nbrs c =
      if l = h ∧ c = src then n else spGet 0 (s.proc l).nbrs c)) ∧
    (spGet 0 (s.proc h).nbrs core ≤ fld 3 0 (s.proc h).crowd → Completes (.fieldHandover core) s (fun t =>
      (∀ l, { t.proc l with fsteps := [] } = { s.proc l with fsteps := [] }) ∧ t.mem = s.mem ∧ t.secs = s.secs ∧
      (∀ e, s.procs = [(owner, e)] → e.fsteps = f :: rest → f.todo.head? = some (.fieldHandover core) →
        (t.proc owner).fsteps = { f with todo := f.todo.drop 1 } :: rest ∧ t.agenda = s.agenda ++ (f.todo.drop 1).take 1))) ∧
    (fld 3 0 (s.proc h).crowd < spGet 0 (s.proc h).nbrs core → (s.proc h).residents.length ≤ 22 → TableKnown (s.proc h) →
      ∀ i n u m, HandsAway (s.proc h) (fieldIndex (s.proc h).fieldcfg core) i n → s.tableWrite h i n = (u, .owner m) →
        Completes (.fieldHandover core) s (fun t => t.mem = u.mem ∧ t.secs = u.secs ∧ t.cores = u.cores ∧
          ∀ c ∈ fieldCores (u.proc h).fieldcfg, spHas (t.proc (t.core c).host).ftabs i = false))

/-- Phase 4 gives every bound thread of slots 0 to 13 an entry with its handle, pos and payload in the snapshot of its bin's owner, and
its SNAPH; packets of the arrival queue get none and SNAPH 0. Phase 5 copies the entries of bins that touch an own bin to the halo
table. At the release the waiters of the generation go on, bound ones to look for their bin's owner, and the next step begins
(R429, R431). -/
def Clause.Snapshots : Prop :=
  ∀ (core src : Nat) (s : State),
    let h := (s.core core).host
    let p := s.proc h
    (TableKnown p → Completes (.fieldSnapshot core) s (fun t =>
      (∀ k x n, (k, x) ∈ p.boundSlots → CachedOwner p x.pos n →
        let l := (s.core (fieldCore p.fieldcfg n)).host
        (t.slot { lpn := h, slot := k }).snaph.toNat = (s.coreNumber core * 16 + k) % 2 ^ 32 ∧
        { handle := s.coreNumber core * 16 + k, pos := x.pos, payload := x.payload } ∈
          (t.proc (if (s.proc l).fieldcfg = p.fieldcfg then l else h)).snap) ∧
      (∀ c ∈ (t.proc h).arrq, c.ctx.bound = true → c.ctx.snaph = 0))) ∧
    (TableKnown p →
      let near (e : FieldEnt) : Prop := ∃ i, i < fieldNBX p.fieldcfg * fieldNBY p.fieldcfg ∧ ownerOf p i = fieldIndex p.fieldcfg core ∧
        touching (binOf p.fieldcfg e.pos) (binAt p.fieldcfg i) = true
      let from' := (s.proc (s.core src).host).snap
      Completes (.fieldHaloCopy core src) s (fun t => let q := t.proc h
        q.halo.length ≤ 256 ∧ q.snap = p.snap ∧ t.mem = s.mem ∧ (∀ e ∈ q.halo, e ∈ p.halo ∨ (e ∈ from' ∧ near e)) ∧
        (p.halo.length + from'.length ≤ 256 → q.fstat = p.fstat ∧ (∀ e ∈ p.halo, e ∈ q.halo) ∧
          ∀ e ∈ from', near e → ∃ y ∈ q.halo, y.handle = e.handle))) ∧
    (∀ (owner : Nat) (f : FieldStep) (x : Waiter) (l : Latch), (s.proc owner).fsteps = [f] → f.held = [x] → x.remote = false →
      (s.slot x.who).holds x.id = true → (s.slot x.who).latch = some l →
      Completes (.fieldStepRelease owner) s (fun t => (t.proc owner).fsteps = [] ∧ (t.slot x.who).st = .ready ∧
        ((t.slot x.who).rebin = ((s.slot x.who).bound || (s.slot x.who).rebin)) ∧
        ((s.slot x.who).field l.d = .gen → ∀ q : Reg, (t.slot x.who).arch.rd q =
          if q = l.d ∧ l.d ≠ 0 then f.gen.zeroExtend 64 else (s.slot x.who).arch.rd q))) ∧
    (∀ (owner : Nat) (f g : FieldStep) (rest : List FieldStep), (s.proc owner).fsteps = f :: g :: rest → f.held = [] →
      Completes (.fieldStepRelease owner) s (fun t => (t.proc owner).fsteps = g :: rest ∧
        t.agenda = s.agenda ++ g.left.map fun c => Ev.fieldStepNotice c owner g.gen))

/-- Field steps and snapshots (the clauses say what each does and cite its rules). -/
def Obligations.FieldStepsAndSnapshots : Prop :=
  Clause.FieldSteps ∧ Clause.Snapshots

/-- A lookup that the arbiter answers puts the host into the core's placement cache, names the core in the cacher record and lets its
waiting threads go on. An update replaces the cached entry and registers no cacher. An invalidated cacher drops its entry and
acknowledges; the last acknowledgement sends the retires, and their cores drop the forwarding entries. An item at a core that does not host
its process goes to the core of the forwarding entry, or to the host that the arbiter names, and the sender's core is sent an update
where R434 says so; the host handles it (R433, R434, R449). -/
def Obligations.PlacementTable : Prop :=
  ∀ (core lpn host : Nat) (s : State),
    let cached (t : State) (h : Nat) : Prop := (lpn, h) ∈ (t.core core).pcache ∧ ∀ e ∈ (t.core core).pcache, e.1 = lpn → e.2 = h
    (spHas s.place lpn = true → core < 8192 → Completes (.placementLookup core lpn) s (fun t =>
      cached t (s.placeOf lpn).core ∧ (t.placeOf lpn).core = (s.placeOf lpn).core ∧ Cached (t.placeOf lpn).cachers core ∧ t.mem = s.mem ∧
      ∀ (k : Nat) (x : Wait), let w : Who := { lpn := (s.core core).host, slot := k }
        (s.slot w).st = .waiting → (s.slot w).wait = some x → x.kind = .lookup → (t.slot w).st = .ready ∧ (t.slot w).arch = (s.slot w).arch)) ∧
    Completes (.placementUpdate core lpn host) s (fun t => cached t host ∧ t.place = s.place ∧ t.procs = s.procs ∧ t.mem = s.mem) ∧
    Completes (.placementInvalidate core lpn) s (fun t =>
      (∀ e, e ∈ (t.core core).pcache ↔ e ∈ (s.core core).pcache ∧ e.1 ≠ lpn) ∧ core ∉ (t.placeOf lpn).acks ∧
      (t.placeOf lpn).core = (s.placeOf lpn).core ∧ t.procs = s.procs ∧
      ((s.placeOf lpn).acks = [core] →
        t.agenda = s.agenda ++ ((s.placeOf lpn).fwdAt.map fun c => .forwardRetire c lpn) ∧ (t.placeOf lpn).fwdAt = [])) ∧
    Completes (.forwardRetire core lpn) s (fun t =>
      (∀ e, e ∈ (t.core core).fwd ↔ e ∈ (s.core core).fwd ∧ e.1 ≠ lpn) ∧ t.place = s.place ∧ t.procs = s.procs) ∧
    (∀ (id src dst : Nat) (i : Item), s.item id = some i → i.ends = some (lpn, src) →
      let update (h : Nat) : List Ev := if src = lpn then [] else [.placementUpdate (s.hostOf src) lpn h]
      let there (c : Nat) : Prop := (s.core c).frozen = false ∧ (s.core c).gated = false ∧ (s.core c).host = lpn
      ((s.core core).host = lpn → Completes (.forwardItem id core) s (fun t => t.agenda = s.agenda ++ [i.event id] ∧ t.net = s.net)) ∧
      ((s.core core).host ≠ lpn → ((s.core core).fwd.find? fun e => e.1 == lpn) = some (lpn, dst) → there dst →
        Completes (.forwardItem id core) s (fun t => t.net = s.net ∧ t.procs = s.procs ∧
          t.agenda = s.agenda ++ (if i.updates then update dst else []) ++ [i.event id])) ∧
      ((s.core core).host ≠ lpn → ((s.core core).fwd.find? fun e => e.1 == lpn) = none → spHas s.place lpn = true → there (s.placeOf lpn).core →
        Completes (.forwardItem id core) s (fun t => t.net = s.net ∧ t.procs = s.procs ∧
          t.agenda = s.agenda ++ update (s.placeOf lpn).core ++ [i.event id])))

/-- A sweep halves WT of every send entry of the hosted process, reports each to the triple's destination and cools the temperature; a
frozen core owes it (R436, R442). -/
def Clause.Sweeps : Prop :=
  ∀ (core : Nat) (s : State),
    let c := s.core core
    let lpn := c.host
    (c.frozen = true → Completes (.flutterSweep core) s (fun t => (t.core core).sweeps = c.sweeps + 1 ∧ t.procs = s.procs ∧ t.mem = s.mem)) ∧
    (c.frozen = false → Completes (.flutterSweep core) s (fun t =>
      (t.core core).antemp = w64 (max (fld 15 0 c.anfloor) (fld 15 0 c.antemp - fld 15 0 c.antemp / 2 ^ fld 3 0 c.ancool)) ∧
      SameMemBut s t lpn 0x3640 (8 * 312) ∧
      ∀ i, i < 312 → let e := s.seqAt lpn i
        (tb 0 e = true ∧ tb 1 e = false → seqWT (t.seqAt lpn i) = seqWT e / 2 ∧ fld 47 0 (t.seqAt lpn i) = fld 47 0 e ∧
          OnTheWay t (.weight lpn (fld 20 2 e) (fld 23 21 e) (seqWT e / 2))) ∧
        (tb 0 e = false ∨ tb 1 e = true → t.seqAt lpn i = e)))

/-- A core with EN = 1 takes a draw each period: with the neighbour on the mesh and no proposal outstanding it sends its half of ΔC and
counts PROP, or counts REF where a condition of its own side refuses. The neighbour answers with its half or with a refusal. The
proposer decides by R441, after a second check; the neighbour's second check confirms an acceptance, which counts ACC and starts the
swap, or refuses it, which counts REF (R439 to R441). -/
def Clause.Proposals : Prop :=
  ∀ (x y : Nat) (p : Proposal) (s : State), x ≠ y →
    let c := s.core x
    let n := s.core y
    let e := fld 3 0 c.anedge
    let refused (t : State) : Prop := (t.core x).prop = none ∧ DrewAndCounted c (t.core x) false (some 32)
    (tb 0 c.anmode = false → Completes (.flutterPropose x) s (fun t => t = s)) ∧
    (tb 0 c.anmode = true →
      (neighbour x (drawn c) = none → Completes (.flutterPropose x) s (fun t => DrewAndCounted c (t.core x) true none ∧
        t.agenda = s.agenda ∧ (t.core x).prop = c.prop)) ∧
      (neighbour x (drawn c) = some y → c.prop ≠ none → Completes (.flutterPropose x) s (fun t => DrewAndCounted c (t.core x) true none ∧
        t.agenda = s.agenda ∧ (t.core x).prop = c.prop)) ∧
      (neighbour x (drawn c) = some y → c.prop = none → s.refuses x y false = true → Completes (.flutterPropose x) s (fun t =>
        DrewAndCounted c (t.core x) true (some 32) ∧ (t.core x).prop = none ∧ t.agenda = s.agenda)) ∧
      (neighbour x (drawn c) = some y → s.refuses x y false = false → Completes (.flutterPropose x) s (fun t =>
        DrewAndCounted c (t.core x) true (some 0) ∧ t.agenda = s.agenda ++ [.proposalAnswer y x] ∧
        (t.core x).prop = some { other := y, dx := s.costHalf x y e, dy := 0, refused := false, accept := false }))) ∧
    (c.prop = some p → p.other = y →
      (s.refuses y x false = true → Completes (.proposalAnswer y x) s (fun t => (t.core x).prop = some { p with refused := true } ∧
        t.core y = s.core y ∧ t.agenda = s.agenda ++ [.proposalDecide x])) ∧
      (s.refuses y x false = false → Completes (.proposalAnswer y x) s (fun t => (t.core y).answering = some x ∧
        (t.core x).prop = some { p with dy := s.costHalf y x e } ∧ t.agenda = s.agenda ++ [.proposalDecide x])) ∧
      (p.refused = true → Completes (.proposalDecide x) s (fun t => refused t ∧ t.agenda = s.agenda)) ∧
      (p.refused = false → s.refuses x y true = true → Completes (.proposalDecide x) s (fun t => refused t ∧ (t.core y).answering = none ∧
        t.agenda = s.agenda)) ∧
      (p.refused = false → s.refuses x y true = false → Completes (.proposalDecide x) s (fun t =>
        t.agenda = s.agenda ++ [.decisionReceive y] ∧
        DrewAndCounted c (t.core x) (decide (0 < p.dx + p.dy) && decide (0 < fld 15 0 c.antemp)) none ∧
        ∃ q, (t.core x).prop = some q ∧ (q.accept = true ↔ accepts (p.dx + p.dy) (fld 15 0 c.antemp) (drawn c)) ∧ q.other = y)) ∧
      (n.answering = some x →
        (p.accept = false → Completes (.decisionReceive y) s (fun t => (t.core x).prop = none ∧ (t.core y).answering = none ∧
          (t.core x).anstat = c.anstat ∧ t.agenda = s.agenda)) ∧
        (p.accept = true → s.refuses y x true = true → Completes (.decisionReceive y) s (fun t => refused t ∧ (t.core y).answering = none ∧
          (t.core x).swap = c.swap ∧ t.agenda = s.agenda)) ∧
        (p.accept = true → s.refuses y x true = false → Completes (.decisionReceive y) s (fun t =>
          (t.core x).swap = some y ∧ (t.core y).swap = some x ∧ (t.core x).prop = none ∧ (t.core y).answering = none ∧
          DrewAndCounted c (t.core x) false (some 16) ∧ t.agenda = s.agenda ++ [.swapFreeze x y]))))

/-- Flutter: sweeps and swap proposals (the clauses say what each does and cite its rules). -/
def Obligations.SweepsAndProposals : Prop :=
  Clause.Sweeps ∧ Clause.Proposals

/-- A swap freezes both cores once both may, with their stashes empty and no access of a chunk watched; both processes move whole and
the local memories with them; the arbiter changes both entries and invalidates their cachers, and each core enters where its process
went; then both cores thaw and the threads that waited for the swap go on. A launch that keeps the loaded image goes with its process
(R146, R448, R449; log 22). -/
def Obligations.Swaps : Prop :=
  ∀ (x y : Nat) (s : State), x ≠ y →
    let p := (s.core x).host
    let q := (s.core y).host
    (Freezable s x → Freezable s y → Completes (.swapFreeze x y) s (fun t => (∀ c, c = x ∨ c = y → (t.core c).frzSwap = true ∧
      (t.core c).stash = [] ∧ (t.core c).watch = [] ∧ (t.core c).host = (s.core c).host) ∧ (∃ a, t.agenda = a ++ [.swapMove x y]))) ∧
    (p ≠ q → Completes (.swapMove x y) s (fun t => (t.core x).host = q ∧ (t.core y).host = p ∧ t.mem = s.mem ∧ t.empty = s.empty ∧
      t.badWords = s.badWords ∧ (t.proc p).core = y ∧ (t.proc q).core = x ∧ (∀ l, { t.proc l with core := 0 } = { s.proc l with core := 0 }) ∧
      (∀ c, { t.core c with host := 0, latch := none } = { s.core c with host := 0, latch := none }) ∧
      (let moves := ∀ c, c = x ∨ c = y → ∀ w, (s.core c).latch = some w → w.rcd.getD 3 0 = 0;
        (moves → (t.core x).latch = (s.core y).latch ∧ (t.core y).latch = (s.core x).latch) ∧
        (¬ moves → ∀ c, (t.core c).latch = (s.core c).latch)) ∧
      (∀ c, c ≠ x → c ≠ y → (t.core c).latch = (s.core c).latch) ∧ t.agenda = s.agenda ++ [.swapFlip x y])) ∧
    (p ≠ q → Completes (.swapFlip x y) s (fun t => (t.placeOf q).core = y ∧ (t.placeOf p).core = x ∧
        (t.core x).fwd = ((s.core x).fwd.filter fun e => e.1 != q) ++ [(q, y)] ∧
        (t.core y).fwd = ((s.core y).fwd.filter fun e => e.1 != p) ++ [(p, x)] ∧
        (∀ c, Cached (s.placeOf q).cachers c → .placementInvalidate c q ∈ t.agenda) ∧
        (∀ c, Cached (s.placeOf p).cachers c → .placementInvalidate c p ∈ t.agenda) ∧
        (t.placeOf q).cachers = .u ∧ (t.placeOf p).cachers = .u ∧ .swapResume x y ∈ t.agenda ∧ t.procs = s.procs)) ∧
    ((s.core x).held = [] → (s.core y).held = [] → Completes (.swapResume x y) s (fun t =>
      (∀ c, c = x ∨ c = y → (t.core c).frzSwap = false ∧ (t.core c).swap = none ∧ (t.core c).sweeps = 0) ∧
      t.agenda = s.agenda ++ (List.replicate (s.core x).sweeps (.flutterSweep x)) ++ (List.replicate (s.core y).sweeps (.flutterSweep y)) ∧
      ∀ (c k : Nat) (z : Wait), c = x ∨ c = y → let w : Who := { lpn := (s.core c).host, slot := k }
        (s.slot w).st = .waiting → (s.slot w).wait = some z → z.kind = .swap → (t.slot w).st = .ready ∧ (t.slot w).arch = (s.slot w).arch))

/-- The way of a load's or a store's fill. The row's walker performs the oldest walk: the leaf enters the row's translations and the
thread goes on, a fault parks it, XROOT.E = 0 lets it meet XLATE at its reissue. At the slice a present sector is charged as an access
and the reply leaves, unless another core owns the line, which is recalled or revoked first; a miss pays a token of its bucket or of
the die's pool and goes to the memory side, or waits in the miss queue and asks again (R43, R95, R105, R106). -/
def Obligations.SliceFills : Prop :=
  ∀ (id row : Nat) (r : PgReq) (s : State),
    let w := r.who
    let k := sliceOf (r.gpa / 256)
    let key := secKey r.vmid r.gpa
    let p := s.proc w.lpn
    let walk := s.walk1 p r.la
    let queue (t : State) : List WalkReq := (spGet Port.init t.ports row).queue
    (∀ acc : Nat, queue s = [{ who := w, la := r.la, acc := acc, ld := none }] → AwaitsFill s w → w.slot < 16 → s.errs = [] → s.soft = [] →
      (∀ l, walk.res = .ok l → Completes (.pageWalk row) s (fun t => (t.slot w).st = .ready ∧ queue t = [] ∧
        (ReadInPlace s p.vmid walk.reads → t.mem = s.mem) ∧ ∃ e ∈ (spGet Port.init t.ports row).tlb, e.vmid = p.vmid ∧ e.job = p.job ∧
          e.size = l.size ∧ e.page = r.la / l.size ∧ e.gpa = l.gpa / l.size * l.size ∧ e.w = l.w ∧ e.u = l.u ∧ e.mt = l.mt)) ∧
      (∀ f, walk.res = .bad f → Settled s w → Completes (.pageWalk row) s (fun t => ParkedOn s t w f r.la ∧ queue t = [] ∧
        (ReadInPlace s p.vmid walk.reads → t.mem = s.mem))) ∧
      (walk.res = .off → Completes (.pageWalk row) s (fun t => (t.slot w).st = .ready ∧ queue t = [] ∧ t.mem = s.mem)) ∧
      (walk.res = .wait → Completes (.pageWalk row) s (fun t => queue t = queue s ∧
        t.timers = s.timers ++ [{ clock := .network, left := 1, ev := .pageWalk row }]))) ∧
    (s.item id = some (.pg r) → r.IsFill → ClearPath s r →
      (∀ l, L2Has s r l →
        (NoOwner l r.core →
          let found (t : State) : Prop := t.mem = s.mem ∧ ∃ n,
            t.item id = some (.pg { r with hpa := some (l.hline * 256 + r.gpa % 256), mt := max l.mt r.mt, w2 := l.w2 || r.w2, arr := n })
          (KnownW r (l.w2 || r.w2) → Completes (.l2FillRequest id) s (fun t => t.agenda = s.agenda ++ [.stashFillReply id] ∧ found t ∧
            (t.proc w.lpn).chghit = p.chghit + 1)) ∧
          (¬ KnownW r (l.w2 || r.w2) → Completes (.l2FillRequest id) s (fun t => t.agenda = s.agenda ++ [.s2UpgradeCheck id] ∧ found t ∧
            t.procs = s.procs))) ∧
        (∀ c, c ≠ r.core → l.dir = .o c ∨ l.dir = .x c → Completes (.l2FillRequest id) s (fun t =>
          t.agenda = s.agenda ++ [if l.dir = .o c then .stashRecall c key false else .stashRevoke c key] ∧ t.mem = s.mem ∧
          t.procs = s.procs ∧ ∃ m, t.l2Find r.vmid (r.gpa / 256) = some m ∧ m.busy = some { acks := 1, req := id }))) ∧
      (L2Lacks s r →
        (r.vmid = 0 ∨ (1 ≤ s.tokens k r.vmid ∧ s.missOf k r.vmid = false) → Completes (.l2FillRequest id) s (fun t =>
          t.agenda = s.agenda ++ [.mscFill id] ∧ (r.vmid ≠ 0 → t.tokens k r.vmid = s.tokens k r.vmid - 1) ∧ t.pools = s.pools ∧
          t.procs = s.procs)) ∧
        (r.vmid ≠ 0 → s.tokens k r.vmid < 1 → s.dieWaits (k / 512) = false → 1 ≤ spGet 0 s.pools (k / 512) →
          Completes (.l2FillRequest id) s (fun t => t.agenda = s.agenda ++ [.mscFill id] ∧ t.tokens k r.vmid = s.tokens k r.vmid ∧
            spGet 0 t.pools (k / 512) = spGet 0 s.pools (k / 512) - 1)) ∧
        (r.vmid ≠ 0 → s.tokens k r.vmid < 1 → s.dieWaits (k / 512) = true ∨ spGet 0 s.pools (k / 512) = 0 →
          Completes (.l2FillRequest id) s (fun t => (t.slice k).misses = (s.slice k).misses ++ [id] ∧ t.agenda = s.agenda ∧
            t.timers = s.timers ++ if s.dieWaits (k / 512) then [] else [{ clock := .network, left := 1, ev := .tokenRetry k }])))) ∧
    (s.item id = some (.pg r) → r.vmid ≠ 0 → (s.slice row).misses = [id] → s.askers (row / 512) = [(row, id)] →
      (1 ≤ s.tokens row r.vmid → Completes (.tokenRetry row) s (fun t => (t.slice row).misses = [] ∧ t.agenda = s.agenda ++ [.mscFill id] ∧
        t.tokens row r.vmid = s.tokens row r.vmid - 1)) ∧
      (s.tokens row r.vmid < 1 → spGet 0 s.pools (row / 512) = 0 → Completes (.tokenRetry row) s (fun t =>
        (t.slice row).misses = [id] ∧ t.timers = s.timers ++ [{ clock := .network, left := 1, ev := .tokenRetry row }])))

/-- Beyond the slice: a sector in the memory-side cache is charged as a fill and the reply leaves; else the stage-two unit translates: a
fault parks the thread, a blocked leaf sends the fill back to the block queue or makes it wait 64 cycles, and else the controller
returns the data, or an uncorrectable error opens a repair wait, parks the thread and sends a record. The reply installs the sector in
the stash, or hands it to the thread where nothing may be installed, and the bundle reissues (R47, R73, R103, R115, R121, R124). What the
unit reads of its tables is kept in the memory-side cache. -/
def Obligations.MemorySideFills : Prop :=
  ∀ (id : Nat) (r : PgReq) (s : State), s.item id = some (.pg r) → r.IsFill → r.ld = none → r.who.slot < 16 → r.stale = false → r.mt ≠ 2 →
    s.errs = [] → s.soft = [] →
    let w := r.who
    let sec := r.gpa / 128 % 2
    let base := homeDie (r.gpa / 256) / 4
    let replied (h mt : Nat) (w2 : Bool) (t : State) : Prop :=
      (∃ a, t.agenda = a ++ [.stashFillReply id]) ∧ t.item id = some (.pg { r with hpa := some h, mt := mt, w2 := w2 })
    ((∀ l, s.mscFind r.vmid (r.gpa / 256) = some l → l.sec sec ≠ .absent → FreeWay s r → KnownW r r.w2 → Completes (.mscFill id) s (fun t =>
        replied (l.hline * 256 + r.gpa % 256) r.mt (r.vmid == 0 || r.w2) t ∧ (t.proc w.lpn).chgfill = (s.proc w.lpn).chgfill + 1 ∧ t.mem = s.mem)) ∧
      ((∀ l, s.mscFind r.vmid (r.gpa / 256) = some l → l.sec sec = .absent) → Completes (.mscFill id) s (fun t =>
        t.agenda = s.agenda ++ [.s2Translate id] ∧ t.net = s.net ∧ t.procs = s.procs))) ∧
    (let u := s.s2Load r.vmid r.gpa;
      let x := s2Check r.vmid r.gpa r.mt r.kind.writes (u.s2Find r.vmid r.gpa);
      (∀ f, x = .error f → AwaitsFill s w → Settled s w → Completes (.s2Translate id) s (fun t =>
        ParkedOn s t w f r.la ∧ t.item id = none ∧ t.mem = u.mem)) ∧
      (r.vmid = 0 → u = s) ∧
      (∀ l mt, x = .ok (l, mt) → l.b = false → Completes (.s2Translate id) s (fun t => t.agenda = s.agenda ++ [.controllerFillReturn id false] ∧
        t.item id = some (.pg { r with hpa := some l.hpa, mt := mt, w2 := l.w }) ∧ t.procs = s.procs ∧ t.mem = u.mem)) ∧
      (∀ l mt, x = .ok (l, mt) → l.b = true → s.blockOf r.vmid r.gpa = none → Completes (.s2Translate id) s (fun t =>
        (t.base base).blocked = (s.base base).blocked ++ [id] ∧ t.timers = s.timers ++ [{ clock := .network, left := 64, ev := .s2BlockedRetry id }])) ∧
      (∀ l mt b, x = .ok (l, mt) → l.b = true → s.blockOf r.vmid r.gpa = some b → spGet [] (s.block b).queue (sliceOf (r.gpa / 256)) = [] →
        Completes (.s2Translate id) s (fun t => spGet [] (t.block b).queue (sliceOf (r.gpa / 256)) = [id] ∧ t.agenda = s.agenda))) ∧
    (id ∈ (s.base base).blocked → Completes (.s2BlockedRetry id) s (fun t => id ∉ (t.base base).blocked ∧
      t.agenda = s.agenda ++ [.s2Translate id])) ∧
    (∀ h, r.hpa = some h → s.blockOf r.vmid r.gpa = none → KnownW r r.w2 →
      (r.mt ≠ 0 → Completes (.controllerFillReturn id false) s (fun t => replied h r.mt r.w2 t ∧ t.mem = s.mem ∧
        (t.proc w.lpn).chgfill = (s.proc w.lpn).chgfill + 1)) ∧
      (FreeWay s r → r.mt = 0 → s.msMask r.vmid = 0 → s.l2Mask r.vmid ≠ 0 → spHas s.secs (secKey r.vmid r.gpa) = false →
        s.l2Find r.vmid (r.gpa / 256) = none → Completes (.controllerFillReturn id false) s (fun t => replied h 0 r.w2 t ∧ t.mem = s.mem ∧
          t.secAt r.vmid r.gpa h = secOfMem s.mem (h / 128 * 128) ∧
          ∃ l, L2Has t r l ∧ l.hline = h / 256 ∧ l.sec sec = if (h / 128) ∈ s.poison then .poisoned else .clean)) ∧
      (AwaitsFill s w → Settled s w → (∀ y ∈ s.repairs, y.seq ≠ s.imago.seq) → Completes (.controllerFillReturn id true) s (fun t => (t.slot w).st = .parked ∧ t.mem = s.mem ∧
        (∃ x, t.repairs = s.repairs ++ [x] ∧ x.seq = s.imago.seq ∧ x.vmid = r.vmid ∧ x.gpa = r.gpa / 128 * 128 ∧ x.waiting = [id]) ∧
        (∃ d, t.imago.poisons = s.imago.poisons ++ [(s.imago.seq, .poison d)] ∧ tb 3 (d.getD 0 0) = true) ∧
        t.timers = s.timers ++ [{ clock := .network, left := 2 ^ 28, ev := .repairTimeout s.imago.seq }]))) ∧
    (∀ h, r.hpa = some h → s.blockOf r.vmid r.gpa = none → AwaitsFill s w →
      (∀ l, L2Has s r l → (∃ b, r.kind = .fill b) → r.mt = 0 → Answers s r.core → stashSets (s.proc (s.core r.core).host) ≠ 0 →
        s.stashLine r.core r.vmid (r.gpa / 256) = none → s.stashKept r.core r.vmid (r.gpa / 256) = none → ∀ key, s.stashWay r.core r.la = some (key, false) →
        Completes (.stashFillReply id) s (fun t => (t.slot w).st = .ready ∧ t.item id = none ∧ t.mem = s.mem ∧ t.secs = s.secs ∧
          ∃ x, (key, x) ∈ (t.core r.core).stash ∧ x.vmid = r.vmid ∧ x.gtag = r.gpa / 256 ∧ x.ltag = r.la / 256 ∧ x.w1 = r.w1 ∧ x.u1 = r.u1 ∧
            x.w2 = r.w2 ∧ x.sec sec = (if s.secBad r.vmid r.gpa h then .poisoned else .clean) ∧ x.pin = false)) ∧
      ((∃ b, r.kind = .home b) → (s.slice (sliceOf (r.gpa / 256))).watch.length < 64 →
        Completes (.stashFillReply id) s (fun t => (t.slot w).st = .ready ∧ t.item id = none ∧ t.mem = s.mem ∧
          ∃ g, (t.slot w).grants = (s.slot w).grants ++ [g] ∧ g.la = r.la / 128 * 128 ∧ g.data = s.secAt r.vmid r.gpa h ∧
            g.poisoned = s.secBad r.vmid r.gpa h)))

/-- What a home slice asks of the stashes: an invalidation drops the copy after its write-back and squashes the core's readers; a recall
writes back and leaves the line shared, or drops it; a revocation drops it; a grant makes the line exclusive and drops every other
copy. The last acknowledgement frees the busy line and serves what waited. Drop notices and evictions take the core out of the
directory, or wait for a busy line; a commit's ownership request recalls another owner first, has the right W checked where it is not
known, and then lets the commit apply (R47, R73, R95, R154). -/
def Obligations.Directory : Prop :=
  ∀ (core v gpa id : Nat) (r : PgReq) (s : State), gpa < 2 ^ 48 →
    let n := gpa / 256
    let sec := secKey v gpa
    let acked (t : State) : Prop := ∀ m b, s.l2Find v n = some m → m.busy = some b → .l2InvalidateAck b.req ∈ t.agenda
    (∀ key l, StashHolds s core v n key l → Answers s core →
      Completes (.stashInvalidate core sec) s (fun t => t.stashLine core v n = none ∧ WrittenBack s t l ∧ acked t ∧ t.mem = s.mem ∧
        ∀ (w : Who) (c : Chunk), w.lpn = (s.core core).host → w.slot < 16 → (s.slot w).commit = none → (s.slot w).chunk = some c →
          (s.slot w).soloHeld = false → Line.paged v n ∈ c.reads → (t.slot w).chunk = none ∧ (t.slot w).arch = c.start) ∧
      Completes (.stashRevoke core sec) s (fun t => t.stashLine core v n = none ∧ WrittenBack s t l ∧ acked t ∧ t.mem = s.mem ∧ t.procs = s.procs) ∧
      Completes (.stashRecall core sec true) s (fun t => t.stashLine core v n = none ∧ WrittenBack s t l ∧ acked t ∧ t.mem = s.mem) ∧
      Completes (.stashRecall core sec false) s (fun t => WrittenBack s t l ∧ acked t ∧ t.mem = s.mem ∧ t.procs = s.procs ∧
        (∃ x, t.stashLine core v n = some (key, x) ∧ x.st = .s ∧ x.sec0 ≠ .dirty ∧ x.sec1 ≠ .dirty) ∧
        ∀ m, t.l2Find v n = some m → m.dir = .s [core]) ∧
      (OneCopy s v n → Completes (.exclusiveGrant core sec) s (fun t => (∃ x, t.stashLine core v n = some (key, x) ∧ x.st = .x) ∧
        (∀ c, c ≠ core → t.stashLine c v n = none) ∧ (∀ m, t.l2Find v n = some m → m.dir = .x core) ∧ t.mem = s.mem ∧ t.procs = s.procs))) ∧
    (s.item id = some (.pg r) →
      (∀ l b, s.l2Find r.vmid (r.gpa / 256) = some l → l.busy = some b → b.req = id →
        (b.acks ≤ 1 → Completes (.l2InvalidateAck id) s (fun t =>
          (∃ m, t.l2Find r.vmid (r.gpa / 256) = some m ∧ m.busy = none ∧ m.waiting = []) ∧
          t.agenda = s.agenda ++ (id :: l.waiting).filterMap fun i => (s.item i).map fun x => x.event i)) ∧
        (1 < b.acks → Completes (.l2InvalidateAck id) s (fun t => t.agenda = s.agenda ∧
          ∃ m, t.l2Find r.vmid (r.gpa / 256) = some m ∧ m.busy = some { acks := b.acks - 1, req := id }))) ∧
      (∀ l, s.l2Find r.vmid (r.gpa / 256) = some l → l.line = r.gpa / 256 → l.busy ≠ none → ∀ e, e = .l2DropNotice id ∨ e = .l2Writeback id →
        Completes e s (fun t => t.net = s.net ∧ t.agenda = s.agenda ∧
          ∃ m, t.l2Find r.vmid (r.gpa / 256) = some m ∧ m.waiting = l.waiting ++ [id] ∧ m.dir = l.dir)) ∧
      (s.stashLine r.core r.vmid (r.gpa / 256) = none → ∀ l, s.l2Find r.vmid (r.gpa / 256) = some l → l.busy = none →
        (∀ cs, l.dir = .s cs → Completes (.l2DropNotice id) s (fun t => t.item id = none ∧ t.mem = s.mem ∧
          ∃ m, t.l2Find r.vmid (r.gpa / 256) = some m ∧ (m.dir = .u ∨ ∃ ds, m.dir = .s ds ∧ ∀ c, c ∈ ds ↔ c ∈ cs ∧ c ≠ r.core))) ∧
        (l.dir = .o r.core ∨ l.dir = .x r.core → Completes (.l2Writeback id) s (fun t => t.item id = none ∧ t.mem = s.mem ∧
          ∃ m, t.l2Find r.vmid (r.gpa / 256) = some m ∧ m.dir = .u ∧ m.sec0 = l.sec0 ∧ m.sec1 = l.sec1))) ∧
      (ClearPath s r →
        (∀ l c, s.l2Find r.vmid (r.gpa / 256) = some l → c ≠ r.core → l.dir = .o c → Completes (.l2OwnershipRequest id) s (fun t =>
          t.agenda = s.agenda ++ [.stashRecall c (secKey r.vmid r.gpa) true] ∧ t.procs = s.procs ∧
          ∃ m, t.l2Find r.vmid (r.gpa / 256) = some m ∧ m.busy = some { acks := 1, req := id })) ∧
        ((∀ l, s.l2Find r.vmid (r.gpa / 256) = some l → NoOwner l r.core) →
          (∀ c d ds, OwnsData s r → (s.slot r.who).commit = some c → c.owns = [id] → c.st = .applying (d :: ds) →
            Completes (.l2OwnershipRequest id) s (fun t => t.item id = none ∧ (t.slot r.who).commit = some { c with owns := [] } ∧
              t.agenda = s.agenda ++ [.domainApply d r.who.lpn r.who.slot])) ∧
          (s.stashLine r.core r.vmid (r.gpa / 256) = none → s.l2Sec r.vmid r.gpa ≠ .absent → s.w2Ok r = false →
            Completes (.l2OwnershipRequest id) s (fun t => t.agenda = s.agenda ++ [.s2UpgradeCheck id] ∧ t.procs = s.procs)))))

/-- An AFAA at its slice returns the old value and leaves the sum, every copy dropped; two that wait unsent and meet at a switch travel
as one with the sum of the addends, input 0 first, and the split gives the first the value and the second the value with the first's
addend (R91, R92, R97). -/
def Obligations.SliceAtomics : Prop :=
  ∀ (id i1 i2 size : Nat) (ret : Bool) (x y : W64) (r q1 q2 : PgReq) (s : State), size = 4 ∨ size = 8 →
    (∀ l, s.item id = some (.pg r) → r.kind = .atomic 0 size ret x y → r.parts = none → ClearPath s r → L2Has s r l → l.dir = .u ∨ (∃ cs, l.dir = .s cs) →
      r.gpa % size = 0 → s.lineHeld (.paged r.vmid (r.gpa / 256)) (some r.who) = false → l.sec (r.gpa / 128 % 2) ≠ .poisoned → s.athresh = 0 →
      r.mt ≠ 2 → s.w2Ok r = true →
      let h := l.hline * 256 + r.gpa % 256
      let old := s.pgRead r.vmid r.gpa h size
      Completes (.l2Atomic id) s (fun t => (∃ n, t.item id = some (.pgReply { r with arr := n } (w64 old))) ∧ (∃ a, t.agenda = a ++ [.landingResult id]) ∧
        t.pgRead r.vmid r.gpa h size = (old + x.toNat) % 2 ^ (8 * size))) ∧
    (∀ z r1 r2 x2 y2, s.item i1 = some (.pg q1) → s.item i2 = some (.pg q2) → s.unsent i1 = true → s.unsent i2 = true → i1 ≠ i2 →
      i1 < s.nextId → i2 < s.nextId → q1.kind = .atomic 0 z r1 x y → q2.kind = .atomic 0 z r2 x2 y2 →
      (combinable q1 q2 = false ∨ 8 ≤ (spGet [] s.combine (meetAt q1 q2)).length → Completes (.omegaCombine i1 i2) s (fun t => t = s)) ∧
      (combinable q1 q2 = true → (spGet [] s.combine (meetAt q1 q2)).length < 8 →
        Completes (.omegaCombine i1 i2) s (fun t => t.procs = s.procs ∧ t.mem = s.mem ∧ .l2Atomic i1 ∉ t.agenda ∧ .l2Atomic i2 ∉ t.agenda ∧
          .l2Atomic s.nextId ∈ t.agenda ∧ ∃ q y3, t.item s.nextId = some (.pg q) ∧ q.gpa = q1.gpa ∧ q.vmid = q1.vmid ∧
            q.parts = some (if inputFirst q1 q2 then (i2, i1, x2) else (i1, i2, x)) ∧
            q.kind = .atomic 0 z (r1 || r2) (w64 ((x.toNat + x2.toNat) % 2 ^ (8 * z))) y3))) ∧
    (∀ v a1, s.item id = some (.pgReply r v) → r.parts = some (i1, i2, a1) → r.kind = .atomic 0 size ret x y →
      i1 ≠ i2 → id ≠ i1 → id ≠ i2 → s.item i1 = some (.pg q1) → s.item i2 = some (.pg q2) → q1.parts = none → q2.parts = none →
      Completes (.combineSplit id) s (fun t => t.item i1 = some (.pgReply q1 v) ∧ t.item id = none ∧ t.mem = s.mem ∧
        t.item i2 = some (.pgReply q2 (w64 ((v.toNat + a1.toNat) % 2 ^ (8 * size)))) ∧
        t.agenda = s.agenda ++ [.landingResult i1, .landingResult i2]))

/-- A tile request of a present line pins it, once for each unit, and is answered with every sector that it asks for at one point; with no
room for a pin it waits, and with a merge window it opens one, which requests of other cores for the same sectors join, and at whose end
all that joined are answered; a release takes one pin off and lets what waited go on. The scrub
writes back what stands outside a mask, buckets are refilled with their overflow to the pool, and writes of the partition registers
act as R101 to R110 say (R99 to R105, R109, R110). -/
def Obligations.TilesAndShares : Prop :=
  ∀ (id slice line : Nat) (r : PgReq) (v : W64) (vmid : BitVec 8) (s : State),
    let k := sliceOf (r.gpa / 256)
    let n := r.gpa / 256
    let pins (lpn : Nat) (u : State) : List (Nat × Nat) := (u.proc lpn).mx.pins
    let others (m : Nat) : Nat := ((s.slice (sliceOf m)).lines.filter fun l => homeSet l.line == homeSet m && l.pins != 0).length
    let fresh : Prop := (r.vmid, n) ∉ pins r.who.lpn s
    (∀ l need got held, s.item id = some (.pg r) → r.kind = .tile need got held → ClearPath s r → s.l2Find r.vmid n = some l →
      (∀ j, j < 2 → need / 2 ^ j % 2 = 1 → l.sec j ≠ .absent) → NoOwner l r.core → (s.slice k).shut = [] → (s.core r.core).host = r.who.lpn →
      let room := l.pins < 15 ∧ (l.pins ≠ 0 ∨ others n < 12)
      let answered (i : Nat) (q : PgReq) (t : State) : Prop := ∃ q', t.item i = some (.pgReply q' 0) ∧ q'.who = q.who
      let read (t : State) : Prop := answered id r t ∧ t.agenda = s.agenda ++ [.landingResult id] ∧ t.mem = s.mem ∧
        ∃ q ∈ (t.proc r.who.lpn).mx.queue, q.who = r.who ∧ ∀ j, j < 2 → need / 2 ^ j % 2 = 1 → ∃ x ∈ q.tiles,
          x.la = r.la / 256 * 256 + 128 * j ∧ x.data = s.secAt r.vmid (n * 256 + 128 * j) (l.hline * 256 + 128 * j)
      (held = true ∨ fld 7 0 s.regs.l2cfg = 0 → (s.slice k).holds = [] → AskedFor s r.who id →
        (fresh → room → Completes (.tileRequest id) s (fun t => read t ∧ (∃ m, t.l2Find r.vmid n = some m ∧ m.pins = l.pins + 1) ∧
          pins r.who.lpn t = pins r.who.lpn s ++ [(r.vmid, n)])) ∧
        (¬ fresh → Completes (.tileRequest id) s (fun t => read t ∧ (∃ m, t.l2Find r.vmid n = some m ∧ m.pins = l.pins) ∧
          pins r.who.lpn t = pins r.who.lpn s)) ∧
        (fresh → ¬ room → Completes (.tileRequest id) s (fun t => (t.slice k).tileWait = (s.slice k).tileWait ++ [id] ∧ t.agenda = s.agenda ∧
          t.procs = s.procs))) ∧
      (held = false → fld 7 0 s.regs.l2cfg ≠ 0 →
        ((s.slice k).holds = [] → Completes (.tileRequest id) s (fun t =>
          (t.slice k).holds = [{ vmid := r.vmid, line := n, need := need, closed := false, reqs := [id] }] ∧
          t.timers = s.timers ++ [{ clock := .network, left := fld 7 0 s.regs.l2cfg, ev := .tileMergeClose k n }])) ∧
        (∀ i q, (s.slice k).holds = [{ vmid := r.vmid, line := n, need := need, closed := false, reqs := [i] }] → s.item i = some (.pg q) →
          i ≠ id → q.core ≠ r.core → Completes (.tileRequest id) s (fun t => t.timers = s.timers ∧ t.agenda = s.agenda ∧
            (t.slice k).holds = [{ vmid := r.vmid, line := n, need := need, closed := false, reqs := [i, id] }]))) ∧
      (∀ j q, held = true → (s.slice k).holds = [{ vmid := r.vmid, line := n, need := need, closed := true, reqs := [id, j] }] →
        l.pins + 2 ≤ 15 → l.pins ≠ 0 ∨ others n < 12 → id ≠ j → s.item j = some (.pg q) → q.who.lpn ≠ r.who.lpn →
        (s.core q.core).host = q.who.lpn → fresh → (r.vmid, n) ∉ pins q.who.lpn s → Completes (.tileRequest id) s (fun t =>
          (∃ m, t.l2Find r.vmid n = some m ∧ m.pins = l.pins + 2) ∧ answered id r t ∧ answered j q t ∧ (t.slice k).holds = []))) ∧
    (∀ i j need, (s.slice k).holds = [{ vmid := r.vmid, line := n, need := need, closed := false, reqs := [i, j] }] →
      Completes (.tileMergeClose k n) s (fun t => t.agenda = s.agenda ++ [.tileRequest i] ∧ t.procs = s.procs ∧
        (t.slice k).holds = [{ vmid := r.vmid, line := n, need := need, closed := true, reqs := [i, j] }])) ∧
    (∀ core l rest, (s.proc (s.core core).host).mx.pins = (r.vmid, line) :: rest → s.l2Find r.vmid line = some l →
      Completes (.tilePinRelease core line) s (fun t => (∃ m, t.l2Find r.vmid line = some m ∧ m.pins = l.pins - 1) ∧
        pins (s.core core).host t = rest ∧ (t.slice (sliceOf line)).tileWait = [] ∧
        ∀ i ∈ (s.slice (sliceOf line)).tileWait, .tileRequest i ∈ t.agenda)) ∧
    (∀ l, (s.slice slice).lines = [l] → homeSet l.line = ((s.slice slice).scrub + 128 - spGet 0 (s.slice slice).scrubOf l.vmid % 128) % 128 →
      l.vmid ≠ 0 → s.l2Mask l.vmid / 2 ^ l.way % 2 = 0 → l.sec0 = .dirty → l.sec1 = .clean → Completes (.maskScrub slice) s (fun t =>
        t.regs.l2stat = s.regs.l2stat + 1 ∧ (t.slice slice).scrub = ((s.slice slice).scrub + 1) % 128 ∧
        t.agenda = s.agenda ++ [.mscWriteback s.nextId] ∧ t.procs = s.procs)) ∧
    (let past (m : Nat) : Nat := (min (s.tokens slice m) (s.bwDepth m : Int) + (fld 15 0 (spGet l2bwReset s.regs.l2bw m) : Nat) -
        (s.bwDepth m : Nat)).toNat;
      s.bwOld = [] → spGet 0 s.pools (slice / 512) ≤ fld 39 16 s.regs.l2cfg → Completes (.bucketRefill slice) s (fun t =>
        (∀ m, 1 ≤ m → m ≤ 255 → t.tokens slice m = min (s.bwDepth m : Int) (s.tokens slice m + (fld 15 0 (spGet l2bwReset s.regs.l2bw m) : Nat))) ∧
        spGet 0 t.pools (slice / 512) = min (fld 39 16 s.regs.l2cfg) (spGet 0 s.pools (slice / 512) + ((List.range 255).map fun m => past (m + 1)).sum) ∧
        t.procs = s.procs ∧ t.mem = s.mem)) ∧
    Completes (.l2partWrite vmid v) s (fun t => (vmid ≠ 0 → t.l2Mask vmid.toNat = fld 15 0 v ∧ t.msMask vmid.toNat = fld 31 16 v) ∧
      (∀ e ∈ t.slices, spGet 0 e.2.scrubOf vmid.toNat = e.2.scrub) ∧ t.procs = s.procs ∧ t.mem = s.mem) ∧
    Completes (.l2bwWrite vmid v) s (fun t => spGet l2bwReset t.regs.l2bw vmid.toNat = v ∧ t.procs = s.procs ∧ t.mem = s.mem ∧
      t.bwOf vmid.toNat = s.bwOf vmid.toNat ∧ ∀ i, i < 8192 → t.tokens i vmid.toNat = s.tokens i vmid.toNat) ∧
    Completes .l2statClear s (fun t => t = { s with regs := { s.regs with l2stat := 0 } })

/-- A written-back sector that the memory-side cache holds makes it dirty there and leaves the slice's sector clean, and with no way open it
goes to memory; a non-allocating write merges its bytes. Repair waits end repaired, lost or after 2^28 cycles, and their requests start
afresh; an upgrade check sets W or parks the thread (R47, R102, R103, R115, R124, R126). -/
def Obligations.MemorySide : Prop :=
  ∀ (id : Nat) (r : PgReq) (s : State),
    (s.item id = some (.pg r) →
      (∀ l m, s.l2Find r.vmid (r.gpa / 256) = some l → s.mscFind r.vmid (r.gpa / 256) = some m →
        (∀ k, k < 2 → l.sec k = .dirty → m.sec k ≠ .absent ∨ s.msMask r.vmid / 2 ^ m.way % 2 = 1) → Completes (.mscWriteback id) s (fun t =>
        t.item id = none ∧ t.mem = s.mem ∧ t.secs = s.secs ∧ ∀ k, k < 2 → l.sec k = .dirty →
          (∃ x, t.mscFind r.vmid (r.gpa / 256) = some x ∧ x.sec k = .dirty) ∧ ∃ x, t.l2Find r.vmid (r.gpa / 256) = some x ∧ x.sec k = .clean)) ∧
      (∀ l, s.l2Find r.vmid (r.gpa / 256) = some l → s.mscFind r.vmid (r.gpa / 256) = none → s.msMask r.vmid = 0 → l.sec0 = .dirty → l.sec1 = .absent →
        Completes (.mscWriteback id) s (fun t => secOfMem t.mem (l.hline * 256) = s.secAt r.vmid (r.gpa / 256 * 256) (l.hline * 256) ∧
          (∃ x, t.l2Find r.vmid (r.gpa / 256) = some x ∧ x.sec0 = .clean) ∧
          ∀ a, a < l.hline * 256 ∨ l.hline * 256 + 128 ≤ a → memGet t.mem a = memGet s.mem a)) ∧
      (∀ n v h, r.kind = .put n v → r.hpa = some h → n ≤ 8 → r.gpa % 128 + n ≤ 128 →
        (spHas s.secs (secKey r.vmid r.gpa) = true → Completes (.mscNonallocWrite id) s (fun t => t.item id = none ∧ t.mem = s.mem ∧
          t.pgRead r.vmid r.gpa h n = v.toNat % 2 ^ (8 * n))) ∧
        (spHas s.secs (secKey r.vmid r.gpa) = false → Completes (.mscNonallocWrite id) s (fun t => t.item id = none ∧ t.secs = s.secs ∧
          memRead t.mem h n = v.toNat % 2 ^ (8 * n) ∧ ∀ a, a < h ∨ h + n ≤ a → memGet t.mem a = memGet s.mem a))) ∧
      (let u := s.s2Load r.vmid r.gpa;
        let x := s2Check r.vmid r.gpa r.mt true (u.s2Find r.vmid r.gpa);
        r.stale = false → s.errs = [] → s.soft = [] →
        (∀ l mt, x = .ok (l, mt) →
          (r.kind = .upgrade → AwaitsFill s r.who → Completes (.s2UpgradeCheck id) s (fun t => t.item id = none ∧ (t.slot r.who).st = .ready ∧
            t.mem = u.mem ∧ (∀ m, t.l2Find r.vmid (r.gpa / 256) = some m → m.w2 = true) ∧
            ∀ key x, StashHolds s r.core r.vmid (r.gpa / 256) key x → (key, { x with w2 := true }) ∈ (t.core r.core).stash)) ∧
          (∀ b, r.kind = .home b → Completes (.s2UpgradeCheck id) s (fun t => t.item id = some (.pg { r with w2 := true }) ∧
            t.agenda = s.agenda ++ [.stashFillReply id] ∧ t.mem = u.mem)) ∧
          (r.kind = .own ∨ (∃ f z ret a b, r.kind = .atomic f z ret a b) ∨ (∃ wr z v, r.kind = .eng wr z v) → Completes (.s2UpgradeCheck id) s (fun t =>
            t.item id = some (.pg { r with w2 := true }) ∧ t.agenda = s.agenda ++ [(Item.pg r).event id] ∧ t.mem = u.mem))) ∧
        (∀ f, x = .error f → r.kind = .upgrade → r.ld = none → AwaitsFill s r.who → Settled s r.who →
          Completes (.s2UpgradeCheck id) s (fun t => ParkedOn s t r.who f r.la ∧ t.item id = none ∧ t.mem = u.mem))) ∧
      (∀ x : Repair, (s.repairs.find? fun y => y.seq == x.seq) = some x → x.waiting = [id] →
        let past (t : State) : Prop := (∀ y ∈ t.repairs, y.seq ≠ x.seq) ∧ t.agenda = s.agenda ++ [(Item.pg r).event id] ∧
          t.item id = some (.pg { r.afresh with arr := none }) ∧ t.mem = s.mem
        Completes (.psnansRepaired x.seq) s (fun t => past t ∧ t.poison = s.poison) ∧
        Completes (.psnansLost x.seq) s (fun t => past t ∧ x.hpa / 128 ∈ t.poison) ∧
        Completes (.repairTimeout x.seq) s (fun t => past t ∧ x.hpa / 128 ∈ t.poison))) ∧
    (∀ seq : BitVec 32, (∀ y ∈ s.repairs, y.seq ≠ seq) → Completes (.psnansRepaired seq) s (fun t => t = s) ∧
      Completes (.psnansLost seq) s (fun t => t = s) ∧ Completes (.repairTimeout seq) s (fun t => t = s))

/-- A legal block opens its slot and the page begins to drain; an illegal one does nothing; a drained page has left the slices and the
memory-side caches; an abandon, and the release after it, replay the queue. A page copy moves every byte and the poison of the sectors
from the source that its start latched, and poisons what it cannot read (R117, R119, R120, R122, R131). -/
def Obligations.PageMigration : Prop :=
  ∀ (v : W64) (s : State),
    let b := fld 2 0 v
    let size := [0x1000, 0x10000, 0x200000, 0x40000000].getD (fld 5 4 v) 0
    let k := BitVec.ofNat 3 b
    (fld 7 6 v = 0 →
      (fld 63 56 v ≠ 0 → fld 47 12 v * 4096 % size = 0 → (∀ c, c < 8 → (s.block c).active = false) →
        Completes (.pgblkBlock v) s (fun t => (t.block b).active = true ∧ (t.block b).val = v ∧ (t.block b).drained = false ∧ t.regs.pgblk = v ∧
          (t.block b).queue = [] ∧ .pageDrainDone k ∈ t.agenda ∧ t.mem = s.mem)) ∧
      (fld 63 56 v = 0 ∨ fld 47 12 v * 4096 % size ≠ 0 ∨ (s.block b).active = true ∨
          (∃ c, c < 8 ∧ (s.block c).active = true ∧ fld 63 56 (s.block c).val = fld 63 56 v ∧ fld 5 4 (s.block c).val = fld 5 4 v ∧
            fld 47 12 (s.block c).val = fld 47 12 v) →
        Completes (.pgblkBlock v) s (fun t => t = s))) ∧
    ((s.block b).active = true →
      ((s.block b).drained = false → (∃ l ∈ s.pageL2 (s.block b).val, l.pins ≠ 0) → Completes (.pageDrainDone k) s (fun t =>
        t.timers = s.timers ++ [{ clock := .network, left := 1, ev := .pageDrainDone k }] ∧ t.slices = s.slices ∧ t.blocks = s.blocks)) ∧
      ((s.block b).drained = false → s.drainable (s.block b).val = true → Completes (.pageDrainDone k) s (fun t =>
        (t.block b).active = true ∧ (t.block b).drained = true ∧ ∀ l ∈ s.pageL2 (s.block b).val, t.l2Find l.vmid l.line = none)) ∧
      (∀ i q r, (s.block b).queue = [(i, [q])] → s.item q = some (.pg r) → Completes (.pgblkAbandon v) s (fun t =>
        (t.block b).active = false ∧ t.regs.pgblk = v ∧ t.agenda = s.agenda ++ [(Item.pg r).event q] ∧ t.mem = s.mem ∧
        t.item q = some (.pg { r.afresh with arr := none })))) ∧
    (let n := [128, 0x1000, 0x10000, 0x200000, 0x40000000].getD (fld 2 0 v) 0;
      let src := fld 47 7 s.regs.pgcsrc * 128;
      let dst := fld 47 7 v * 128;
      (s.copyBusy = true ∨ s.ckPhase ≠ .idle ∨ src % n ≠ 0 ∨ dst % n ≠ 0 ∨ (src < dst + n ∧ dst < src + n) ∨ 4 < fld 2 0 v →
        Completes (.pageCopyStart v) s (fun t => t = s)) ∧
      (s.copyBusy = false → s.ckPhase = .idle → fld 2 0 v ≤ 4 → src % n = 0 → dst % n = 0 → src + n ≤ dst ∨ dst + n ≤ src →
        (src + n ≤ 0x010000000000 ∨ (0x010000001000 ≤ src ∧ src + n ≤ 0x040000000000)) → (dst + n ≤ 0x010000000000 ∨ (0x010000001000 ≤ dst ∧ dst + n ≤ 0x040000000000)) →
        Completes (.pageCopyStart v) s (fun t => t.copyBusy = true ∧ t.regs.pgcdst = v ∧ t.copySrc = src ∧ t.agenda = s.agenda ++ [.pageCopyDone] ∧ t.mem = s.mem)) ∧
      (s.copyBusy = true → s.regs.pgcdst = v → fld 2 0 v ≤ 4 → s.copySrc % 128 = 0 → Completes .pageCopyDone s (fun t => t.copyBusy = false ∧
        (∀ a, memGet t.mem a = if dst ≤ a ∧ a < dst + n then memGet s.mem (a - dst + s.copySrc) else memGet s.mem a) ∧
        (∀ c, c ∈ t.poison ↔ if dst / 128 ≤ c ∧ c < dst / 128 + n / 128 then c - dst / 128 + s.copySrc / 128 ∈ s.poison ∨
          .mem (c - dst / 128 + s.copySrc / 128) ∈ s.errs else c ∈ s.poison) ∧
        t.secs = s.secs ∧ t.procs = s.procs)))

/-- A checkpoint starts on GO, or on a power failure with AUTO, and a second start has no effect; it waits until every core is frozen and no
page copy runs, leaves no sector of an L2 line dirty, copies every byte of HBM4E to the checkpoint region, and writes the header: the
magic half, the time, the block slots, the count of poisoned sectors; DONE is set and GO clear (R128 to R130). -/
def Obligations.Checkpoints : Prop :=
  ∀ s : State,
    let started (t : State) : Prop := t.ckPhase = .stop ∧ tb 0 t.regs.ckpt = true ∧ tb 2 t.regs.ckpt = false ∧
      t.agenda = s.agenda ++ [.checkpointFlush] ∧ t.mem = s.mem ∧ t.procs = s.procs
    (s.ckPhase = .idle → Completes .checkpointStart s started ∧ (tb 1 s.regs.ckpt = true → Completes .powerFailInput s started)) ∧
    (s.ckPhase ≠ .idle → Completes .checkpointStart s (fun t => t = s)) ∧ (tb 1 s.regs.ckpt = false → Completes .powerFailInput s (fun t => t = s)) ∧
    (s.ckPhase = .stop → (∀ c ∈ s.liveCores, c = 8192 ∨ (s.core c).frzCkpt = true) →
      (s.copyBusy = true → Completes .checkpointFlush s (fun t => t.ckPhase = .stop ∧ t.mem = s.mem ∧
        t.timers = s.timers ++ [{ clock := .network, left := 16, ev := .checkpointFlush }])) ∧
      (s.copyBusy = false → Completes .checkpointFlush s (fun t => t.ckPhase = .copy ∧ t.agenda = s.agenda ++ [.checkpointCopy] ∧
        (∀ c, c < 8192 → (t.core c).frzCkpt = true) ∧ ∀ k, ∀ l ∈ (t.slice k).lines, l.sec0 ≠ .dirty ∧ l.sec1 ≠ .dirty))) ∧
    (s.ckPhase = .copy → s.errs = [] → Completes .checkpointCopy s (fun t => t.ckPhase = .seal ∧ t.agenda = s.agenda ++ [.checkpointSeal] ∧
      t.ckPoison = (s.poison.filter fun k => k < 2 ^ 33).length ∧
      (∀ a, memGet t.mem a = if 0x040000000000 ≤ a ∧ a < 0x050000000000 then memGet s.mem (a - 0x040000000000) else memGet s.mem a) ∧
      ∀ k, k < 2 ^ 33 → (2 ^ 35 + k ∈ t.poison ↔ k ∈ s.poison))) ∧
    (s.ckPhase = .seal → Completes .checkpointSeal s (fun t =>
      let h := 0x010000000000
      t.ckPhase = .idle ∧ tb 0 t.regs.ckpt = false ∧ tb 2 t.regs.ckpt = true ∧ memRead t.mem h 2 = 0x5C9E ∧
      memRead t.mem (h + 8) 8 = s.clk / 2000 % 2 ^ 64 ∧ (∀ k, k < 8 → memRead t.mem (h + 0x40 + 8 * k) 8 = (s.block k).val.toNat) ∧
      memRead t.mem (h + 0x100) 8 = s.ckPoison % 2 ^ 64 ∧ ∀ a, a < h ∨ h + 0x1000 ≤ a → memGet t.mem a = memGet s.mem a))

/-- A chunk whose loads have returned acquires its domains in ascending order: a domain admits it when it conflicts with no commit it
holds or queues, and queues it else; a refused line releases everything and restores the registers. With every domain held they are
applied in the same order: the line's other readers are squashed, the bytes are written, and after the last domain the chunk is
committed and its domains are released. A pinned line makes it wait; after 4,096 cycles pin-free tile requests for its lines wait
(R140 to R143, R153). A pop of g31 counts as a write of a line of its own for the queue (log 13). -/
def Obligations.Commits : Prop :=
  ∀ (lpn slot dom : Nat) (c : Committing) (s : State),
    let w : Who := { lpn := lpn, slot := slot }
    let x := s.slot w
    (∀ ls, (s.domsOf ls).Pairwise (fun a b => a < b) ∧ ∀ d, d ∈ s.domsOf ls ↔ ∃ l ∈ ls, s.domOf l = d) ∧
    (x.commit = some c →
      (c.st = .waiting → (∀ l ∈ x.arch.landing, l.res = .pending → c.chunk.endId ≤ l.id) → x.atomics = [] →
        (∀ d ds, s.domsOf (s.linesOf w c.chunk) = d :: ds →
          Completes (.chunkCommit lpn slot) s (fun t => (t.slot w).commit = some { c with st := .acquiring (d :: ds) } ∧
            t.agenda = s.agenda ++ [.domainAcquire d lpn slot] ∧ t.mem = s.mem)) ∧
        (c.chunk.reads = [] → c.chunk.writes = [] → c.chunk.pushes = [] → c.chunk.pops = [] → x.chunk = none → x.due = [] →
          Completes (.chunkCommit lpn slot) s (fun t => (t.slot w).commit = none ∧ (t.slot w).squashes = 0 ∧ (t.slot w).solo = none ∧
            (t.slot w).arch = x.arch ∧ t.mem = s.mem))) ∧
      (∀ ds, c.st = .acquiring (dom :: ds) →
        let rs := c.chunk.reads.filter fun l => s.domOf l == dom
        let ws := (c.chunk.writes ++ s.popLines w c.chunk).filter fun l => s.domOf l == dom
        (x.soloHeld = false → (∀ l ∈ rs ++ ws, s.lineRefused w l = false) → (∀ l ∈ ws, ∃ n b, l = .loc n b) →
          ((∀ k ∈ (s.dom dom).held ++ (s.dom dom).queue, ¬ ConflictsWith rs ws k) →
            Completes (.domainAcquire dom lpn slot) s (fun t =>
              (∃ h ∈ (t.dom dom).held, h.who = w ∧ h.reads = rs ∧ h.writes = ws) ∧ t.mem = s.mem ∧
              (∀ n r, ds = n :: r → (t.slot w).commit = some { c with st := .acquiring ds } ∧ t.agenda = s.agenda ++ [.domainAcquire n lpn slot]) ∧
              (∀ n r, ds = [] → s.domsOf (s.linesOf w c.chunk) = n :: r →
                (t.slot w).commit = some { c with st := .applying (n :: r) } ∧ t.agenda = s.agenda ++ [.domainApply n lpn slot]))) ∧
          ((∀ k ∈ (s.dom dom).held, k.who ≠ w) → (∃ k ∈ (s.dom dom).held, ConflictsWith rs ws k) →
            Completes (.domainAcquire dom lpn slot) s (fun t => t.slot w = x ∧ t.mem = s.mem ∧ (t.dom dom).held = (s.dom dom).held ∧
              ∃ h ∈ (t.dom dom).queue, h.who = w))) ∧
        (∀ y n b, c.chunk.touch = [y] → y.line = .loc n b → y.line ∈ ws → n ≠ lpn → jobCheck (s.tagOf w) (s.proc n) = false →
          Completes (.domainAcquire dom lpn slot) s (fun t => (t.slot w).commit = none ∧ (t.slot w).chunk = none ∧
            (t.slot w).arch = c.chunk.start ∧ (t.slot w).cut = some (y.bno, .refused y.la y.seg) ∧ t.mem = s.mem ∧
            ∀ d, ∀ h ∈ (t.dom d).held, h.who ≠ w))) ∧
      (∀ st ds, c.st = .applying (dom :: ds) → c.owns = [] → OneStore s c.chunk st →
        s.domOf (.loc st.space (st.addr / 256)) = dom → x.chunk = none → x.due = [] →
        Completes (.domainApply dom lpn slot) s (fun t =>
          (∀ i, i < st.size → memGet t.mem (winAddr st.space st.addr + i) = byteOf st.val i) ∧ SameMemBut s t st.space st.addr st.size ∧
          (∀ (v : Who) (r : Chunk), (s.slot v).commit = none → (s.slot v).chunk = some r → (s.slot v).soloHeld = false →
            Line.loc st.space (st.addr / 256) ∈ r.reads → (t.slot v).chunk = none ∧ (t.slot v).arch = r.start) ∧
          (∀ n r, ds = n :: r → (t.slot w).commit = some { c with st := .applying ds, begun := true } ∧ .domainApply n lpn slot ∈ t.agenda) ∧
          (ds = [] → (t.slot w).commit = none ∧ (t.slot w).squashes = 0 ∧ ∀ d, ∀ h ∈ (t.dom d).held, h.who ≠ w))) ∧
      (∀ v n l ds, c.chunk.writes = [.paged v n] → s.l2Find v n = some l → l.pins ≠ 0 →
        (c.st = .applying (dom :: ds) → c.owns = [] → c.pinWait = none →
          Completes (.domainApply dom lpn slot) s (fun t => (t.slot w).commit = some { c with pinWait := some s.clk } ∧ t.mem = s.mem ∧
            t.timers = s.timers ++ [{ clock := .network, left := 4096, ev := .pinWaitLimit lpn slot }])) ∧
        (∀ since, c.pinWait = some since →
          (since + 4096 ≤ s.clk → Completes (.pinWaitLimit lpn slot) s (fun t => (v, n) ∈ (t.slice (sliceOf n)).shut ∧ t.mem = s.mem ∧
            t.procs = s.procs)) ∧
          (s.clk < since + 4096 → Completes (.pinWaitLimit lpn slot) s (fun t => t = s)))))

/-- A request at its target: a load that passes the job check reads the local memory, and its answer is on its way; a request of another
job has no effect but a refusal; an AFAA answers the old value and leaves the sum; LDSYNC of a full word answers it and leaves it empty;
a request to a poisoned word answers POISON (R31, R32, R78, R91, R66). -/
def Obligations.RemoteRequests : Prop :=
  ∀ (id off size dst : Nat) (who : Who) (tag : BitVec 24) (s : State),
    let p := s.proc dst
    PlainWord s dst (off / 8 * 8) → size = 1 ∨ size = 2 ∨ size = 4 ∨ size = 8 → off % size = 0 →
    (∀ op, s.item id = some (.win who tag dst op) → (∀ n, op ≠ .withdraw n) → jobCheck tag p = false →
      Completes (.remoteRequest id) s (fun t => OnTheWay t (.reply who .refused) ∧ t.procs = s.procs ∧ t.mem = s.mem)) ∧
    (jobCheck tag p = true →
      (∀ sx, s.item id = some (.win who tag dst (.load off size sx 0 0 true)) →
        (s.locBad dst (tagPriv tag) off size = false → Completes (.remoteRequest id) s (fun t => t.procs = s.procs ∧ t.mem = s.mem ∧
          ∃ v, OnTheWay t (.reply who (.value v)) ∧ ExtendedFrom sx size v ∧ v.toNat % 2 ^ (8 * size) = memRead s.mem (winAddr dst off) size)) ∧
        (s.locBad dst (tagPriv tag) off size = true → Completes (.remoteRequest id) s (fun t => OnTheWay t (.reply who (.trap 6)) ∧ t.mem = s.mem))) ∧
      (∀ x y, s.item id = some (.win who tag dst (.atomic 0 size true off x y)) → size = 4 ∨ size = 8 → s.locBad dst (tagPriv tag) off size = false →
        Completes (.remoteRequest id) s (fun t => OnTheWay t (.reply who (.value (w64 (memRead s.mem (winAddr dst off) size)))) ∧
          memRead t.mem (winAddr dst off) size = (memRead s.mem (winAddr dst off) size + x.toNat) % 2 ^ (8 * size) ∧
          SameMemBut s t dst off size)) ∧
      (∀ v, size = 8 → s.item id = some (.win who tag dst (.sync .ldsync off v)) → s.locBad dst (tagPriv tag) off 8 = false → s.isFull dst 2 off = true →
        Completes (.remoteRequest id) s (fun t => OnTheWay t (.reply who (.value (w64 (memRead s.mem (winAddr dst off) 8)))) ∧
          t.isFull dst 2 off = false ∧ SameMem s t)))

/-- A result reaches the landing entry that waits for it and is held there until its window closes: a value, a trap of its code, SEGV
reason 5 for a refusal, or WAITTO for a request that came back busy while it was being withdrawn; another that came back busy is sent
again after 64 cycles. An atomic's value lands, or its acknowledgement is taken; the host's data lands, or all ones with a notice when
the host does not answer (R32, R68, R78, R91, R165, R228, R463). A doorbell write reaches its queue, the host's after the earlier writes
of its function (R377, R459, R462). The number of a notice is the model's (log 56). -/
def Obligations.Returns : Prop :=
  ∀ (id : Nat) (w : Who) (s : State),
    (∀ e, Awaits s w id e →
      (∀ v, s.item id = some (.reply w (.value v)) → Completes (.remoteReply id) s (fun t => Returned s t w id (.value v) ∧ t.item id = none)) ∧
      (∀ k, s.item id = some (.reply w (.trap k)) → Completes (.remoteReply id) s (fun t => Returned s t w id (.trap k 0 0 e.addr) ∧
        t.item id = none)) ∧
      (s.item id = some (.reply w .refused) → Completes (.refusalArrival id) s (fun t => Returned s t w id (.trap 3 e.seg 5 e.addr) ∧
        t.item id = none)) ∧
      (∀ tag dst op, s.item id = some (.reply w (.busy tag dst op)) →
        (s.withdrawn id = false → Completes (.remoteReply id) s (fun t => t.procs = s.procs ∧ t.mem = s.mem ∧
          t.item id = some (.parked w tag dst op ((s.proc w.lpn).time + 64)) ∧
          t.timers = s.timers ++ [{ clock := .proc w.lpn, left := 64, ev := .busyReissue w.lpn w.slot }])) ∧
        (s.withdrawn id = true → Completes (.remoteReply id) s (fun t => Returned s t w id (.trap 7 0 0 e.addr))))) ∧
    (∀ r v f z ret x y, s.item id = some (.pgReply r v) → r.kind = .atomic f z ret x y → r.who = w →
      (ret = true → Completes (.landingResult id) s (fun t => Returned s t w id (.value v) ∧ t.item id = none)) ∧
      (ret = false → Completes (.landingResult id) s (fun t => (t.slot w).atomics = (s.slot w).atomics.filter (fun a => a.1 != id) ∧
        (t.slot w).arch = (s.slot w).arch ∧ t.item id = none ∧ t.mem = s.mem))) ∧
    (∀ hpa size sx, size = 1 ∨ size = 2 ∨ size = 4 ∨ size = 8 → s.item id = some (.device w hpa size none sx) →
      (0xF80000000000 ≤ hpa →
        Completes (.landingResult id) s (fun t => t = { s with outbox := s.outbox ++ [.device w hpa size none sx] }) ∧
        (∀ v, Completes (.hostWindowCompletion id true v) s (fun t => t.item id = none ∧
          ∃ x, Returned s t w id (.value x) ∧ ExtendedFrom sx size x ∧ x.toNat % 2 ^ (8 * size) = v.toNat % 2 ^ (8 * size))) ∧
        (∀ v, Completes (.hostWindowCompletion id false v) s (fun t => t.item id = none ∧
          (∃ x, Returned s t w id (.value x) ∧ ExtendedFrom sx size x ∧ x.toNat % 2 ^ (8 * size) = 2 ^ (8 * size) - 1) ∧
          t.imago.notices = s.imago.notices ++ [(s.imago.seq, .notice 463 hpa)]))) ∧
      (hpa < 0xF80000000000 → size ≠ 4 ∨ hpa % 4096 ≠ 4 → Completes (.landingResult id) s (fun t =>
        Returned s t w id (.value 0) ∧ t.item id = none))) ∧
    (∀ hpa v sx, s.item id = some (.device w hpa 4 (some v) sx) →
      (0xF80000000000 ≤ hpa → ∀ x,
        Completes (.hostWindowCompletion id true x) s (fun t => t.item id = none ∧ t.procs = s.procs ∧ t.mem = s.mem ∧ t.imago = s.imago) ∧
        Completes (.hostWindowCompletion id false x) s (fun t => t.item id = none ∧ t.procs = s.procs ∧ t.mem = s.mem)) ∧
      (0xF00000000000 ≤ hpa → hpa < 0xF00010000000 → hpa % 4096 = 0 →
        let u := (hpa - 0xF00000000000) / 4096
        (w.slot ≠ 17 ∨ s.hostBefore (u / 1024) id = false → ∀ k, s.mapped u = some k → Completes (.landingResult id) s (fun t =>
          t.item id = none ∧ t.procs = s.procs ∧ t.mem = s.mem ∧ fld 31 16 (t.dq k).ptr = v.toNat % 65536 ∧
          fld 15 0 (t.dq k).ptr = fld 15 0 (s.dq k).ptr ∧
          t.agenda = s.agenda ++ if (s.dq k).dep.isNone then [.depReread k] else [])) ∧
        (w.slot = 17 → s.hostBefore (u / 1024) id = true → Completes (.landingResult id) s (fun t =>
          t = { s with timers := s.timers ++ [{ clock := .network, left := 1, ev := .landingResult id }] }))))

/-- A step performs the event at the head of the agenda: it is `exec` of the instruction of that name at the state without it. With no
event due it is the next cycle in turn: that of a powered core, in which the slot whose position it is, if it may, issues one bundle, as
BUNDLE_ISSUE does; or, after the last core, that of the network (R160; log 2). -/
def Clause.StepRunsEvents : Prop :=
  ∀ s : State, s.Live →
    (∀ (e : Ev) (rest : List Ev) (i : Instr), s.agenda = e :: rest → e.Is i → step s = exec i { s with agenda := rest }) ∧
    (s.agenda = [] →
      (∀ c, (s.liveCores.find? fun c => s.turn ≤ c && !(s.core c).gated) = some c →
        let u := s.openCycle c
        (∀ w, u.issuer c = some w → w.lpn = (u.core c).host ∧
          ∃ v : State, exec (.bundleIssue c w.slot) u = .next v ∧ step s = .next { v.closeCycle c with turn := c + 1 }) ∧
        (u.issuer c = none → step s = .next { u.closeCycle c with turn := c + 1 })) ∧
      ((∀ c ∈ s.liveCores, c < s.turn ∨ (s.core c).gated = true) → step s = .next { s.networkCycle with turn := 0 }))

/-- BUNDLE_ISSUE of a ready thread runs what stands at its PC: when the dword decodes to a bundle, word A is performed by `exec` at the
prepared state, then, unless word A trapped, left or waits, word B by `exec` at what it left, and then the bundle is finished. A dword
that decodes to none takes ILLOP with itself in TADDR (R178, R181, R20). -/
def Clause.BundleRunsDecoded : Prop :=
  ∀ (core slot : Nat) (s : State),
    let w : Who := { lpn := (s.core core).host, slot := slot }
    let x := s.slot w
    let v := s.dwordAtPc w
    s.quiet core = false → s.blanked core = false → s.able w = true → ReadyToIssue s w →
    (∀ b, decodeBundle v = some b → x.syncReads b = [] → Completes (.bundleIssue core slot) s (fun t =>
      ∃ m u : State, Prepared s m w b v ∧ exec b.a m = .next u ∧ (u.bst ≠ .run → t = u) ∧
        (u.bst = .run → ∃ z : State, (b.b = none → z = u) ∧ (∀ i, b.b = some i → exec i u = .next z) ∧
          t = z.finish b.a.boundary x.masked x.resume x.arch))) ∧
    (decodeBundle v = none → x.inTrap = false → Completes (.bundleIssue core slot) s (fun t => TookTrap x (t.slot w) 1 0 0 v ∧ t.mem = s.mem))

/-- A step runs the decoded instruction (the clauses say what each does and cite its rules). -/
def Obligations.StepRunsDecoded : Prop :=
  Clause.StepRunsEvents ∧ Clause.BundleRunsDecoded

/-- A finished bundle that ends in no migration: the thread goes on at the target of a taken transfer, or else, where no loop goes back,
at the next bundle; the bundle counts in the chunk, and what it waited for and its resume issue are over; registers and predicates
stay (R134, R218, R325). -/
def Obligations.BundleEnd : Prop :=
  ∀ (v : State) (bd was re : Bool) (a0 : Arch), v.leaving = none → v.me.due = [] →
    v.me.ending = none → (bd = true ∨ v.alone = true → v.bpops = [] ∧ ∀ c, v.me.chunk = some c → c.pushes = [] ∧ c.pops = []) →
    let t := v.finish bd was re a0
    (v.taken = true → t.me.arch.pc = v.npc ∧ t.me.arch.past = false) ∧
    (v.taken = false → (v.me.arch.endChecks v.me.arch.pc).2 = none → t.me.arch.pc = v.me.arch.pc + 8 ∧
      (t.me.arch.past = true ↔ v.me.arch.pc.toNat = 0xFFFF8)) ∧
    t.cur = v.cur ∧ t.me.wait = none ∧ t.me.latch = none ∧ (re = true → t.me.resume = false) ∧ t.me.arch.regs = v.me.arch.regs ∧
    t.me.arch.pw = v.me.arch.pw ∧ t.me.arch.bno = v.me.arch.bno + 1 ∧ t.mem = v.mem ∧
    (bd = false → v.alone = false → ∀ c, v.me.chunk = some c → c.count + 1 < 256 → c.last = false →
      ∃ y, t.me.chunk = some y ∧ y.count = c.count + 1 ∧ y.reads = c.reads ∧ y.writes = c.writes ∧ y.start = c.start)

/-- At a rotation boundary a starting slot enters the rotation, or is parked again, the earliest queued packet starts in a usable slot, and
a launch latch that may start does; at another cycle nothing happens. An item whose two cycles in the egress latch are over leaves the
core, another stays. A timing replay changes no register: the third one of a bundle raises the clock divider (R159, R333, R416). -/
def Obligations.CoreTiming : Prop :=
  ∀ (core : Nat) (s : State),
    let lpn := (s.core core).host
    let p := s.proc lpn
    ((s.core core).cycle % 16 ≠ 0 → Completes (.rotationBoundary core) s (fun t => t = s)) ∧
    ((s.core core).cycle % 16 = 0 → (s.core core).frozen = false → (s.core core).gated = false → p.alarm = false → s.ckPhase = .idle →
      tb 0 p.taskcfg = false →
      (p.arrq = [] → Completes (.rotationBoundary core) s (fun t => t.mem = s.mem ∧ ∀ n,
        let x := s.slot { lpn := lpn, slot := n }
        (t.slot { lpn := lpn, slot := n }).arch = x.arch ∧ (t.slot { lpn := lpn, slot := n }).st =
          if x.st = .starting then (if x.park.isSome then .parked else .ready) else x.st)) ∧
      (∀ c n, p.arrq = [c] → s.quiet core = false → p.usable c.ctx.bound = some n → Completes (.rotationBoundary core) s (fun t =>
        let w : Who := { lpn := lpn, slot := n }
        (t.proc lpn).arrq = [] ∧ (t.slot w).st = .starting ∧ (t.slot w).arch = c.ctx.arch ∧ (t.slot w).regs = c.ctx.regs ∧ t.mem = s.mem)) ∧
      (p.arrq = [] → (∀ e ∈ p.slots, e.2.st ≠ .starting) → s.latchReady core = true →
        Completes (.rotationBoundary core) s (fun t => .launchStart core ∈ t.agenda ∧ t.mem = s.mem))) ∧
    (∀ e who tag dst op, (s.core core).egress = [e] → s.item e.id = some (.win who tag dst op) → (∀ n, op ≠ .withdraw n) →
      (e.due ≤ (s.core core).cycle → lpn = dst → (s.core core).frozen = false → (s.core core).gated = false →
        Completes (.egressLatchRelease core) s (fun t => (t.core core).egress = [] ∧ t.agenda = s.agenda ++ [.remoteRequest e.id] ∧
          t.procs = s.procs ∧ t.mem = s.mem)) ∧
      ((s.core core).cycle < e.due → Completes (.egressLatchRelease core) s (fun t => (t.core core).egress = [e] ∧ t.agenda = s.agenda ∧
        t.procs = s.procs ∧ t.mem = s.mem))) ∧
    (∀ w : Who,
      let x := s.slot w
      let c := s.core (s.hostOf w.lpn)
      (x.st = .ready → x.replays < 2 → Completes (.timingReplay w.lpn w.slot) s (fun t => t.slot w = { x with replays := x.replays + 1 } ∧
        SameButProcs s t)) ∧
      (x.st = .ready → 2 ≤ x.replays → Completes (.timingReplay w.lpn w.slot) s (fun t => t.slot w = { x with replays := 0 } ∧ t.mem = s.mem ∧
        let y := t.core (s.hostOf w.lpn)
        fld 4 0 y.coreclk = min 31 (fld 4 0 c.coreclk + 1) ∧ fld 63 5 y.coreclk = fld 63 5 c.coreclk ∧
        fld 31 16 y.faultlog = min 65535 (fld 31 16 c.faultlog + 1) ∧ fld 15 0 y.faultlog = fld 15 0 c.faultlog ∧
        fld 63 32 y.faultlog = fld 63 32 c.faultlog)) ∧
      (x.st ≠ .ready → Completes (.timingReplay w.lpn w.slot) s (fun t => t = s)))

/-- The candidate with the largest RUN, the lowest among equals, is selected and enters saving; without one nothing happens. A save writes
the Cocoon to local memory, the slot becomes absent and reserved, and its resume record joins the ready queue; its registers are kept.
Lomter stops a slot, which halts with its context kept, and restarts it or releases it (R159, R394, R395). -/
def Obligations.Preemption : Prop :=
  ∀ (core : Nat) (s : State),
    let lpn := (s.core core).host
    let p := s.proc lpn
    (∀ r, (s.core core).save = none → (s.core core).frozen = false → p.ready = [r] →
      ((∃ n, IsCandidate p r n) → Completes (.preemptSelect core) s (fun t => ∃ n, IsCandidate p r n ∧
        (∀ m, IsCandidate p r m → runOf (p.slot m) < runOf (p.slot n) ∨ (runOf (p.slot m) = runOf (p.slot n) ∧ n ≤ m)) ∧
        (t.core core).save = some n ∧ t.mem = s.mem ∧
        let w : Who := { lpn := lpn, slot := n }
        (t.slot w).arch = (s.slot w).arch ∧ (s.saveLater w = false → (t.slot w).st = .saving))) ∧
      ((∀ n, ¬ IsCandidate p r n) → Completes (.preemptSelect core) s (fun t => t = s))) ∧
    (∀ n, n < 15 → (s.core core).save = some n →
      let w : Who := { lpn := lpn, slot := n }
      let x := s.slot w
      x.Quiet → x.st = .saving → x.latch = none → x.wait = none → s.inSlice w = false → x.heldMsgs = [] → x.pushq = [] →
      Completes (.cocoonSaveDone core) s (fun t =>
        let y := t.slot w
        y.st = .absent ∧ y.reserved = true ∧ y.arch = x.arch ∧ y.regs = x.regs ∧ (t.core core).save = none ∧
        (∃ r, (t.proc lpn).ready = p.ready ++ [r] ∧ r.resume = some n ∧ r.level = x.pri.toNat) ∧
        fld 19 0 (t.hwRead lpn (0x200 * n)) = x.arch.pc.toNat ∧
        (∀ i : Reg, i ≠ 0 → t.hwRead lpn (0x200 * n + 8 * i.toNat) = x.arch.rd i) ∧
        t.hwRead lpn (0x200 * n + 0x1E0) = x.regs.taddr ∧ SameMemBut s t lpn (0x200 * n) 0x200)) ∧
    (∀ w : Who,
      let x := s.slot w
      (x.st ≠ .absent → x.st ≠ .halted → x.chunk = none → Completes (.stopByLomter w.lpn w.slot) s (fun t =>
        t.slot w = { x with st := .halted } ∧ t.mem = s.mem)) ∧
      (x.st = .absent ∨ x.st = .halted → Completes (.stopByLomter w.lpn w.slot) s (fun t => t = s)) ∧
      (x.st = .halted →
        Completes (.slotRestart w.lpn w.slot false) s (fun t => t.slot w = { x with st := .ready } ∧ SameButProcs s t) ∧
        Completes (.slotRestart w.lpn w.slot true) s (fun t => (t.slot w).st = .absent ∧ t.mem = s.mem)) ∧
      (x.st ≠ .halted → ∀ b, Completes (.slotRestart w.lpn w.slot b) s (fun t => t = s)))

/-- A doorbell write sets TAIL of the mapped slot; for an unmapped queue it writes the tail word, sets the summary bit and notifies Imago.
It waits for earlier writes of its function, and a function that is not enabled gets nothing. The host reads HEAD, or all ones. A write
of DQPTR sets the pointers; one that maps a queue whose summary bit is set loads TAIL from the tail word and clears the bit (R376, R377,
R459, R462). What the host is answered stands in `outbox`, and the number of a notice is the model's (log 1, log 11, log 56). -/
def Obligations.Doorbells : Prop :=
  ∀ (u : BitVec 16) (v : BitVec 32) (p : W64) (s : State),
    let a := s.dbsum + u.toNat / 8
    let tail := s.dbsum + 0x2000 + 2 * u.toNat
    let answered (r : Res) (t : State) : Prop := t = { s with outbox := s.outbox ++ [.reply { lpn := 0x80000, slot := 0 } r] }
    (s.vfOn u.toNat = false → Completes (.doorbellWrite u v) s (answered .refused) ∧ Completes (.doorbellHeadRead u) s (answered .refused)) ∧
    (s.vfOn u.toNat = true →
      (s.hostBefore (u.toNat / 1024) s.nextId = true → Completes (.doorbellWrite u v) s (fun t => t.procs = s.procs ∧ t.mem = s.mem ∧
        t.dqs = s.dqs ∧ t.agenda = s.agenda ++ [.landingResult s.nextId] ∧ ∃ w : Who, w.slot = 17 ∧
          t.item s.nextId = some (.device w (0xF00000000000 + 4096 * u.toNat) 4 (some (v.setWidth 64)) false))) ∧
      (∀ k, s.mapped u.toNat = some k →
        (s.hostBefore (u.toNat / 1024) s.nextId = false → Completes (.doorbellWrite u v) s (fun t =>
          fld 31 16 (t.dq k).ptr = v.toNat % 65536 ∧ fld 15 0 (t.dq k).ptr = fld 15 0 (s.dq k).ptr ∧
          fld 63 32 (t.dq k).ptr = fld 63 32 (s.dq k).ptr ∧ t.mem = s.mem ∧ t.procs = s.procs)) ∧
        ∃ x : W64, x.toNat = fld 15 0 (s.dq k).ptr ∧ Completes (.doorbellHeadRead u) s (answered (.value x))) ∧
      (s.mapped u.toNat = none →
        (s.hostBefore (u.toNat / 1024) s.nextId = false → NothingCached s → s.secBad 0 a a = false → s.secBad 0 tail tail = false →
          Completes (.doorbellWrite u v) s (fun t => memRead t.mem tail 2 = v.toNat % 65536 ∧
            (memRead t.mem a 1).testBit (u.toNat % 8) = true ∧
            (∀ i, i < 8 → i ≠ u.toNat % 8 → (memRead t.mem a 1).testBit i = (memRead s.mem a 1).testBit i) ∧
            (∀ b, b ≠ a → b < tail ∨ tail + 2 ≤ b → memGet t.mem b = memGet s.mem b) ∧
            t.imago.notices = s.imago.notices ++ [(s.imago.seq, .notice 377 u.toNat)] ∧ t.dqs = s.dqs)) ∧
        Completes (.doorbellHeadRead u) s (answered (.value 0xFFFFFFFF)))) ∧
    (let k := fld 9 0 s.regs.dqsel;
      (tb 48 p = false → Completes (.dqptrWrite p) s (fun t => (t.dq k).ptr = p ∧ (t.dq k).cfg = (s.dq k).cfg ∧ (t.dq k).dep = none ∧
        t.agenda = s.agenda ++ [.depReread k] ∧ t.mem = s.mem)) ∧
      (tb 48 p = true → fld 47 32 p = u.toNat → NothingCached s → s.secBad 0 a a = false →
        ((memRead s.mem a 1).testBit (u.toNat % 8) = true → Completes (.dqptrWrite p) s (fun t => fld 31 16 (t.dq k).ptr = memRead s.mem tail 2 ∧
          fld 15 0 (t.dq k).ptr = fld 15 0 p ∧ fld 63 32 (t.dq k).ptr = fld 63 32 p ∧ (memRead t.mem a 1).testBit (u.toNat % 8) = false ∧
          ∀ b, b ≠ a → memGet t.mem b = memGet s.mem b)) ∧
        ((memRead s.mem a 1).testBit (u.toNat % 8) = false → Completes (.dqptrWrite p) s (fun t => (t.dq k).ptr = p ∧ t.mem = s.mem))))

/-- A malformed launch record is refused: a rectangle of no process or of more than its cores, one that leaves the mesh, modules past the
last, reserved bits, or a ring that may not start threads at G. The dispenser serves the one pending head and moves HEAD on: a refused
record ends with status 2 and starts nothing; a good one starts once its DEP dword read 0; a task record joins its process's ready
queue; one that may not be placed is discarded with a notice; a full level makes its queue wait 256 cycles; a task for a frozen core stays at the head (R335; log 70). A record with a pointer to a
page that is blocked waits (R49, R371, R372, R378 to R380). The number of a notice is the model's (log 56). -/
def Obligations.Dispatching : Prop :=
  ∀ (k : Nat) (q : DQ) (r : List W64) (s : State),
    (let z := r.getD 2 0;
      let n := fld 47 32 z;
      ∀ job vmid root pg, n = 0 ∨ (fld 24 19 z + 1) * (fld 31 25 z + 1) < n ∨ 64 < fld 11 6 z + fld 24 19 z + 1 ∨ 128 < fld 18 12 z + fld 31 25 z + 1 ∨
        63 < fld 5 0 z + fld 53 48 z ∨ fld 63 54 z ≠ 0 ∨ fld 63 24 (r.getD 0 0) ≠ 0 ∨ fld 2 0 (r.getD 0 0) ≠ 0 ∨ (pg = false ∧ tb 23 (r.getD 0 0) = true) →
        s.recRefused r job vmid root pg = true) ∧
    (OnlyHead s k q r →
      (tb 26 q.cfg = true →
        (s.recWaits r q.root q.vmid = true → Completes .dispatch s (fun t => t.dqs = s.dqs ∧ t.launches = s.launches ∧ t.mem = s.mem)) ∧
        (s.recWaits r q.root q.vmid = false → s.recRefused r q.job q.vmid q.root (tb 27 q.cfg) = true →
          (OnlyPointer r 0 → Completes .dispatch s (fun t => HeadMoved s t k ∧ t.launches = s.launches ∧ t.net = s.net ∧ t.mem = s.mem ∧
            t.procs = s.procs ∧ t.jobs = s.jobs)) ∧
          (∀ g h, OnlyPointer r 8 → r.getD 8 0 ≠ 0 → s.dispWritable q.root q.vmid (r.getD 8 0).toNat = some (g, h) → NothingCached s →
            Completes .dispatch s (fun t => HeadMoved s t k ∧ t.launches = s.launches ∧ memRead t.mem h 8 = 2 + 2 ^ 63 ∧
              ∀ b, b < h ∨ h + 8 ≤ b → memGet t.mem b = memGet s.mem b))) ∧
        (∀ cs lid, s.recWaits r q.root q.vmid = false → s.recRefused r q.job q.vmid q.root (tb 27 q.cfg) = false → s.recHere r = true → s.recCores r = some cs → cs ≠ [] →
          (∀ c ∈ cs, (s.core c).latch = none ∧ s.withheldAt c q.vmid = false) → lid < 65536 →
          (∀ l ∈ s.launches, l.job.toNat = q.job → l.vmid.toNat = q.vmid → l.lid ≠ lid) →
          (∀ n, n < lid → ∃ l ∈ s.launches, l.job.toNat = q.job ∧ l.vmid.toNat = q.vmid ∧ l.lid = n) →
          (q.dep = some true → Completes .dispatch s (fun t => HeadMoved s t k ∧
            Begun s t r (BitVec.ofNat 16 q.job) (BitVec.ofNat 8 q.vmid) lid cs false ∧ t.mem = s.mem ∧ t.procs = s.procs ∧
            (r.getD 3 0 ≠ 0 → ∀ c ∈ cs, (spGet Place.init t.place (s.coreNumber c)).core % 8192 = c % 8192))) ∧
          (q.dep ≠ some true → Completes .dispatch s (fun t => t.dqs = s.dqs ∧ t.launches = s.launches ∧ t.mem = s.mem))) ∧
        (q.dep ≠ some true →
          let v := s.dispRead q.root q.vmid (r.getD 7 0).toNat
          (s.ptrWaits q.root q.vmid false (r.getD 7 0) = true → Completes (.depReread k) s (fun t => t.dqs = s.dqs ∧
            t.timers = s.timers ++ [{ clock := .network, left := 1, ev := .depReread k }])) ∧
          (r.getD 7 0 = 0 ∨ v = some 0 ∨ (v = none ∧ s.ptrWaits q.root q.vmid false (r.getD 7 0) = false) →
            Completes (.depReread k) s (fun t => (t.dq k).dep = some true ∧ t.timers = s.timers)) ∧
          (∀ x, r.getD 7 0 ≠ 0 → v = some x → x ≠ 0 → Completes (.depReread k) s (fun t => (t.dq k).dep = some false ∧
            { clock := Clock.network, left := 1024, ev := .depReread k } ∈ t.timers ∧ t.mem = s.mem)))) ∧
      (tb 26 q.cfg = false →
        let x : TaskRec := Vector.ofFn fun i : Fin 8 => r.getD i.val 0
        let dst := fld 58 40 (r.getD 0 0)
        let level := fld 21 20 (r.getD 0 0)
        (s.taskPlaceable q x = false → Completes .dispatch s (fun t => HeadMoved s t k ∧ t.procs = s.procs ∧ t.mem = s.mem ∧
          t.imago.notices = s.imago.notices ++ [(s.imago.seq, .notice 380 k)])) ∧
        (s.taskPlaceable q x = true → (s.core (s.hostOf dst)).frozen = true → Completes .dispatch s (fun t => (t.dq k).ptr = q.ptr ∧ t.procs = s.procs ∧
          t.mem = s.mem)) ∧
        (s.taskPlaceable q x = true → s.withheldAt (s.hostOf dst) q.vmid = false → (s.core (s.hostOf dst)).frozen = false →
          (((s.proc dst).ready.filter fun y => y.level == level && y.resume.isNone).length < 8 → q.stuck = false →
            Completes .dispatch s (fun t => HeadMoved s t k ∧ t.mem = s.mem ∧ ∃ y, (t.proc dst).ready = (s.proc dst).ready ++ [y] ∧ y.rcd = x ∧
              y.level = level ∧ y.resume = none)) ∧
          (8 ≤ ((s.proc dst).ready.filter fun y => y.level == level && y.resume.isNone).length →
            (q.stuck = false → Completes .dispatch s (fun t => (t.dq k).stuck = true ∧ (t.dq k).ptr = q.ptr ∧ t.procs = s.procs ∧
              t.timers = s.timers ++ [{ clock := .network, left := 256, ev := .taskRecordRetry k }])) ∧
            (q.stuck = true → Completes (.taskRecordRetry k) s (fun t => (t.dq k).stuck = true ∧ t.procs = s.procs ∧
              t.timers = s.timers ++ [{ clock := .network, left := 256, ev := .taskRecordRetry k }]))) ∧
          (((s.proc dst).ready.filter fun y => y.level == level && y.resume.isNone).length < 8 → q.stuck = true →
            Completes (.taskRecordRetry k) s (fun t => (t.dq k).stuck = false ∧ (t.dq k).ptr = q.ptr ∧ t.procs = s.procs ∧ t.timers = s.timers)))))

/-- A wake writes CORETAG and XROOT of its core's process and fills the launch latch; it waits at a frozen core and follows a process that
has moved, and so does the latch of a launch that keeps the loaded image. With an image a core whose process is of no job takes the
process of its number first (log 22). From the latch slot 0 starts at the record's entry with its argument in g1; with an image the header's values, the body and
empty queues are installed first, a load that cannot go on ends with status 2, and a translation fault parks it. A launch of another
module starts in the same way, or is refused and reported (R30, R34, R373, R374, R379, R466). -/
def Obligations.Launches : Prop :=
  ∀ (id c : Nat) (x : Wake) (s : State),
    let lpn := (s.core c).host
    let p := s.proc lpn
    let r := x.rcd
    let tag := w64 (x.job.toNat + x.vmid.toNat * 65536)
    (s.item id = some (.wake c x) →
      ((if r.getD 3 0 = 0 then lpn = x.lpn else p.job ≠ 0 ∨ s.coreNumber c = lpn) → (s.core c).frozen = false → (s.core c).stash = [] →
        Completes (.launchWake id) s (fun t => (t.core c).latch = some x ∧ (t.proc lpn).coretag = tag ∧ (t.proc lpn).xroot = x.root ∧
          t.item id = none ∧ .launchStart c ∈ t.agenda ∧ (∀ w : Who, t.slot w = s.slot w) ∧ t.mem = s.mem ∧
          ((s.core c).gated = true → .coreWake c ∈ t.agenda))) ∧
      (r.getD 3 0 ≠ 0 → p.job = 0 → (s.core c).frozen = false → s.coreNumber c ≠ lpn → s.hostOf (s.coreNumber c) ≠ c →
        let d := s.hostOf (s.coreNumber c)
        Completes (.launchWake id) s (fun t => (t.core c).host = s.coreNumber c ∧ (t.proc (s.coreNumber c)).core = c ∧ (t.core d).host = lpn ∧
          (t.proc lpn).core = d ∧ (t.core c).latch = some x ∧ (t.proc (s.coreNumber c)).coretag = tag ∧ (t.proc lpn).coretag = p.coretag ∧
          (t.proc (s.coreNumber c)).xroot = x.root ∧ .launchStart c ∈ t.agenda)) ∧
      (r.getD 3 0 ≠ 0 ∨ lpn = x.lpn → (s.core c).frozen = true → Completes (.launchWake id) s (fun t =>
        (t.core c).held = (s.core c).held ++ [id] ∧ (t.core c).latch = (s.core c).latch ∧ t.procs = s.procs ∧ t.mem = s.mem)) ∧
      (r.getD 3 0 = 0 → lpn ≠ x.lpn → Completes (.launchWake id) s (fun t => t.item id = some (.wake (s.hostOf x.lpn) x) ∧
        t.agenda = s.agenda ++ [.launchWake id] ∧ t.procs = s.procs ∧ t.cores = s.cores))) ∧
    ((s.core c).latch = some x → s.latchReady c = true →
      let w : Who := { lpn := lpn, slot := 0 }
      let started (t : State) : Prop :=
        (t.core c).latch = none ∧ (t.slot w).st = .starting ∧ (t.slot w).arch.pc.toNat = fld 19 0 (r.getD 0 0) ∧
        (∀ i : Reg, (t.slot w).arch.rd i = if i = 1 then r.getD 1 0 else 0) ∧ (t.slot w).regs.fmt = r.getD 4 0 ∧ (t.slot w).regs.scp = r.getD 5 0 ∧
        fld 15 0 (t.slot w).regs.launch = x.lid % 65536 ∧ (t.slot w).pri.toNat = fld 21 20 (r.getD 0 0) ∧
        (t.slot w).priv = (if tb 23 (r.getD 0 0) then 1 else 0) ∧ (t.slot w).inTrap = false ∧
        ∀ l ∈ s.launches, l.id = x.launch → ∃ m ∈ t.launches, m.id = l.id ∧ m.counter = l.counter + 1 ∧ m.starting = l.starting - 1
      (r.getD 3 0 = 0 → lpn ≠ x.lpn → s.hostOf x.lpn ≠ c →
        ((s.core (s.hostOf x.lpn)).latch = none → Completes (.launchStart c) s (fun t => (t.core c).latch = none ∧
          (t.core (s.hostOf x.lpn)).latch = some x ∧ t.agenda = s.agenda ++ [.launchStart (s.hostOf x.lpn)] ∧ t.procs = s.procs)) ∧
        ((s.core (s.hostOf x.lpn)).latch ≠ none → Completes (.launchStart c) s (fun t => t = s))) ∧
      (r.getD 3 0 = 0 → lpn = x.lpn → Completes (.launchStart c) s (fun t => started t ∧ t.mem = s.mem ∧
        (∀ n, n ≠ 0 → t.slot { lpn := lpn, slot := n } = s.slot { lpn := lpn, slot := n }) ∧
        (t.slot w).sg = p.segt ∧ (t.slot w).regs.trapvec = p.tvdef)) ∧
      (r.getD 3 0 ≠ 0 → s.coreNumber c = lpn →
        (∀ l, s.loadAll { p with coretag := tag, xroot := x.root } (r.getD 3 0).toNat (if tb 23 (r.getD 0 0) then 1 else 0) = .ok l →
          Completes (.launchStart c) s (fun t => started t ∧
            (t.proc lpn).coretag = tag ∧ (t.proc lpn).xroot = x.root ∧ (t.proc lpn).lmmap = l.getD 2 0 ∧ (t.proc lpn).tvdef = l.getD 3 0 ∧
            (t.proc lpn).spillq = l.getD 4 0 ∧ (t.proc lpn).ready = [] ∧ (∀ i, (t.proc lpn).bar i = Bar.init) ∧
            ∀ i, i < (l.getD 1 0).toNat / 8 → t.hwRead lpn (0x4000 + 8 * i) = l.getD (32 + i) 0)) ∧
        (s.loadAll { p with coretag := tag, xroot := x.root } (r.getD 3 0).toNat (if tb 23 (r.getD 0 0) then 1 else 0) = .wait →
          Completes (.launchStart c) s (fun t => t = { s with timers := s.timers ++ [{ clock := .network, left := 1, ev := .launchStart c }] })) ∧
        (s.loadAll { p with coretag := tag, xroot := x.root } (r.getD 3 0).toNat (if tb 23 (r.getD 0 0) then 1 else 0) = .stop →
          Completes (.launchStart c) s (fun t => (t.core c).latch = none ∧ t.procs = s.procs ∧ t.mem = s.mem ∧
            ∀ l ∈ s.launches, l.id = x.launch → l.st = 0 → ∃ m ∈ t.launches, m.id = l.id ∧ m.st = 2 ∧ m.starting = l.starting - 1)) ∧
        (∀ f la, s.loadAll { p with coretag := tag, xroot := x.root } (r.getD 3 0).toNat (if tb 23 (r.getD 0 0) then 1 else 0) = .park f la →
          Completes (.launchStart c) s (fun t => (t.core c).latch = some x ∧ (t.core c).load = some s.nextId ∧ t.mem = s.mem ∧
            ∃ d, t.imago.faults = s.imago.faults ++ [(s.imago.seq, .fault d)] ∧ d.getD 1 0 = w64 (la % 2 ^ 56))))) ∧
    (s.latchReady c = false → Completes (.launchStart c) s (fun t => t = s)) ∧
    (∀ (lid : BitVec 16) pg cs,
      (s.recWaits r x.root x.vmid.toNat = true → Completes (.remoteLaunchRecord r x.job x.vmid x.root lid pg) s (fun t =>
        t = { s with timers := s.timers ++ [{ clock := .network, left := 1, ev := .remoteLaunchRecord r x.job x.vmid x.root lid pg }] })) ∧
      (s.recWaits r x.root x.vmid.toNat = false → s.recRefused r x.job.toNat x.vmid.toNat x.root pg = true → Completes (.remoteLaunchRecord r x.job x.vmid x.root lid pg) s (fun t =>
        t = { s with outbox := s.outbox ++ [.launchReport x.job x.vmid lid 2] })) ∧
      (s.recWaits r x.root x.vmid.toNat = false → s.recRefused r x.job.toNat x.vmid.toNat x.root pg = false → s.recHere r = true → s.recCores r = some cs →
        Completes (.remoteLaunchRecord r x.job x.vmid x.root lid pg) s (fun t => Begun s t r x.job x.vmid lid.toNat cs true ∧ t.procs = s.procs ∧
          t.mem = s.mem)))

/-- A launch whose counter and engine operations are 0 completes: its status dword is written with ST, its LID and V, its graph counter
falls by one, unless it is 0 already, and its job counts one launch less; a launch of another module reports there. A job whose counter
is 0 ends: CORETAG, XROOT, the used bits, the local memory and the placement entries of its processes are cleared (R30, R34, R64, R171
to R173, R382, R433). -/
def Obligations.LaunchEnds : Prop :=
  ∀ (l : Launch) (s : State),
    let jk := l.vmid.toNat * 65536 + l.job.toNat
    let gone (t : State) : Prop := t.launches = s.launches.filter (fun x => x.id != l.id) ∧ spGet 0 t.jobs jk = spGet 0 s.jobs jk - 1
    ((s.launches.find? fun x => x.id == l.id && x.past) = some l →
      (l.foreign = true → Completes (.launchComplete l.id) s (fun t => gone t ∧ t.mem = s.mem ∧
        t.outbox = s.outbox ++ [.launchReport l.job l.vmid (BitVec.ofNat 16 l.lid) l.st])) ∧
      (l.foreign = false → NothingCached s → (∀ d, (s.dom d).held = []) →
        (OnlyPointer l.rcd 0 → Completes (.launchComplete l.id) s (fun t => gone t ∧ t.mem = s.mem)) ∧
        (∀ g h, OnlyPointer l.rcd 8 → l.rcd.getD 8 0 ≠ 0 → s.dispWritable l.root l.vmid.toNat (l.rcd.getD 8 0).toNat = some (g, h) →
          Completes (.launchComplete l.id) s (fun t => gone t ∧ memRead t.mem h 8 = (l.st + l.lid * 2 ^ 16 + 2 ^ 63) % 2 ^ 64 ∧
            ∀ b, b < h ∨ h + 8 ≤ b → memGet t.mem b = memGet s.mem b)) ∧
        (∀ g h, OnlyPointer l.rcd 6 → l.rcd.getD 6 0 ≠ 0 → s.dispWritable l.root l.vmid.toNat (l.rcd.getD 6 0).toNat = some (g, h) →
          h % 128 = g % 128 →
          (memRead s.mem h 8 ≠ 0 → Completes (.launchComplete l.id) s (fun t => gone t ∧ memRead t.mem h 8 = memRead s.mem h 8 - 1 ∧
            ∀ b, b < h ∨ h + 8 ≤ b → memGet t.mem b = memGet s.mem b)) ∧
          (memRead s.mem h 8 = 0 → Completes (.launchComplete l.id) s (fun t => gone t ∧ t.mem = s.mem ∧
            t.imago.notices = s.imago.notices ++ [(s.imago.seq, .notice 172 0)]))))) ∧
    (l.job ≠ 0 → (∀ e ∈ s.jobs, e.1 % 65536 = l.job.toNat → e.2 = 0) → NothingCached s →
      Completes (.jobEnd l.job) s (fun t => ∀ n, (s.proc n).job = l.job.toNat →
        (t.proc n).coretag = 0 ∧ (t.proc n).xroot = 0 ∧ (t.proc n).used = 0 ∧ spHas t.place n = false ∧
        ∀ a, winAddr n 0 ≤ a → a < winAddr n 0x100000 → memGet t.mem a = 0)) ∧
    (l.job = 0 ∨ (∃ e ∈ s.jobs, e.1 % 65536 = l.job.toNat ∧ e.2 ≠ 0) → Completes (.jobEnd l.job) s (fun t => t = s))

/-- An access by BAR2 of a function without a tenant is aborted; another goes to the home slice of its address and reads or writes one
dword of the tenant's memory there, once earlier writes of its function are performed; one to a poisoned sector is aborted, and one that
stage two refuses is aborted with a fault record. A link comes up with the right domain and goes down by itself; what waited for a route
leaves; without a route a request is refused after its time (R459, R461, R462, R464 to R467). What leaves for the host is in `outbox`,
under Imago's number (log 1, log 11). -/
def Obligations.HostPorts : Prop :=
  ∀ (vf link id : Nat) (addr : BitVec 40) (wr : Bool) (v : W64) (domain : BitVec 8) (s : State),
    let m := spGet 0 s.regs.vfmap (vf % 64)
    let toHost (r : Res) : List Item := s.outbox ++ [.reply { lpn := 0x80000, slot := 0 } r]
    (tb 8 m = false → Completes (.bar2Access vf addr wr v) s (fun t => t = { s with outbox := toHost .refused })) ∧
    (tb 8 m = true → Completes (.bar2Access vf addr wr v) s (fun t => t.outbox = s.outbox ∧ t.mem = s.mem ∧ t.procs = s.procs ∧
      t.agenda = s.agenda ++ [if wr then .engineElementWrite s.nextId else .engineElementRead s.nextId] ∧
      ∃ r, t.item s.nextId = some (.pg r) ∧ r.kind = .eng wr 8 v ∧ r.who = { lpn := 0x80000, slot := 17 } ∧ r.vmid = fld 7 0 m ∧
        r.gpa = addr.toNat / 8 * 8 ∧ r.la = vf % 64 ∧ r.mt = 0)) ∧
    (∀ r : PgReq, s.item id = some (.pg r) → r.kind = .eng wr 8 v → r.who = { lpn := 0x80000, slot := 17 } → r.mt = 0 →
      let e : Instr := if wr then .engineElementWrite id else .engineElementRead id
      let u := s.s2Load r.vmid r.gpa
      (wr = true → s.hostBefore r.la id = true → Completes e s (fun t =>
        t = { s with timers := s.timers ++ [{ clock := .network, left := 1, ev := .engineElementWrite id }] })) ∧
      (ClearPath s r → (wr = true → s.hostBefore r.la id = false) → ∀ l, L2Has s r l → l.dir = .u ∨ (∃ cs, l.dir = .s cs) →
        let h := l.hline * 256 + r.gpa % 256
        (s.secBad r.vmid r.gpa h = true → Completes e s (fun t => t.outbox = toHost .refused ∧ t.item id = none ∧ t.mem = s.mem)) ∧
        (s.secBad r.vmid r.gpa h = false → wr = false → Completes e s (fun t => t.item id = none ∧ t.mem = s.mem ∧
          t.outbox = toHost (.value (w64 (s.pgRead r.vmid r.gpa h 8))))) ∧
        (s.secBad r.vmid r.gpa h = false → wr = true → s.w2Ok r = true → s.lineHeld (.paged r.vmid (r.gpa / 256)) none = false →
          r.gpa % 8 = 0 → Completes e s (fun t => t.item id = none ∧ t.outbox = toHost .done ∧ t.pgRead r.vmid r.gpa h 8 = v.toNat))) ∧
      (∀ f, s2Check r.vmid r.gpa 0 wr (u.s2Find r.vmid r.gpa) = .error f → s.errs = [] → s.soft = [] →
        Completes (.s2Translate id) s (fun t => t.outbox = toHost .refused ∧ t.item id = none ∧ t.procs = s.procs ∧ t.mem = u.mem ∧
          ∃ d, t.imago.faults = s.imago.faults ++ [(s.imago.seq, .fault d)] ∧ fld 2 0 (d.getD 0 0) = f.kind % 8 ∧
            d.getD 2 0 = w64 (f.gpa % 2 ^ 48)))) ∧
    (link < 36 → domain.toNat = fld 15 8 s.regs.brxcfg → Completes (.bronexLinkUp link domain) s (fun t =>
      (∀ n, n < 64 → tb n t.regs.brxup = (tb n s.regs.brxup || n == link)) ∧ t.procs = s.procs ∧ t.mem = s.mem ∧
      ∀ e ∈ s.net, (∃ x ∈ s.timers, x.ev = .routeWaitTimeout e.1) → e.2 ∈ t.outbox ∧ e ∉ t.net)) ∧
    (36 ≤ link ∨ domain.toNat ≠ fld 15 8 s.regs.brxcfg → Completes (.bronexLinkUp link domain) s (fun t => t = s)) ∧
    (link < 36 → Completes (.bronexLinkFail link) s (fun t => (∀ n, n < 64 → tb n t.regs.brxup = (tb n s.regs.brxup && n != link)) ∧
      t.procs = s.procs ∧ t.mem = s.mem ∧ t.net = s.net)) ∧
    Completes (.bronexAuthFail link) s (fun t => t = { s with agenda := s.agenda ++ [.chrysalisAlarm 5 []] }) ∧
    (∀ who tag dst op, s.item id = some (.win who tag dst op) → (∀ n, op ≠ .withdraw n) → Completes (.routeWaitTimeout id) s (fun t =>
      t.item id = some (.reply who .refused) ∧ t.agenda = s.agenda ++ [.refusalArrival id] ∧ t.procs = s.procs ∧ t.mem = s.mem)) ∧
    (∀ x, s.item id = some (.msg x) → Completes (.routeWaitTimeout id) s (fun t => t.item id = some (.msgRefused x 2) ∧
      t.agenda = s.agenda ++ [.messageRefused id] ∧ t.procs = s.procs ∧ t.mem = s.mem)) ∧
    (∀ c, s.item id = some (.carry c) → Completes (.routeWaitTimeout id) s (fun t => t.item id = some (.carryRef c 5) ∧
      t.agenda = s.agenda ++ [.carryRefused id] ∧ t.procs = s.procs ∧ t.mem = s.mem))

/-- A core idle for 2^16 cycles is gated with an empty stash; a wake powers it up at cycle 0, or restarts the idle count. A row's sensors
take their reading; at RUN the row goes to step 7 and raises source 3 for the tenants with a core in it. At the end of an interval USE of
each tenant is its measured power, and OVER says that it has reached its allotment: floor and want where all wants fit in the surplus
(R469, R470, R472 to R475). -/
def Obligations.Power : Prop :=
  ∀ (core row : Nat) (temp pwr : BitVec 12) (s : State),
    let c := s.core core
    let run := fld 35 24 s.regs.thermcfg
    (c.gated = false → 2 ^ 16 ≤ c.idle → s.gateable core = true → Completes (.powerGate core) s (fun t => (t.core core).gated = true ∧
      (t.core core).stash = [] ∧ (t.core core).idle = 0 ∧ t.procs = s.procs ∧ t.mem = s.mem)) ∧
    (c.gated = true ∨ c.idle < 2 ^ 16 ∨ s.gateable core = false → Completes (.powerGate core) s (fun t => t = s)) ∧
    ((∃ e ∈ (s.proc c.host).slots, e.2.st ≠ .absent) ∨ tb 8 c.coreclk = false ∨ c.copies ≠ [] → s.gateable core = false) ∧
    (c.gated = true → Completes (.coreWake core) s (fun t => t.core core = { c with gated := false, cycle := 0, idle := 0, wakeLatch := false } ∧
      t.procs = s.procs ∧ t.mem = s.mem)) ∧
    (c.gated = false → Completes (.coreWake core) s (fun t => t.core core = { c with idle := 0, wakeLatch := false } ∧ t.procs = s.procs ∧
      t.mem = s.mem)) ∧
    Completes (.rowSensorReading row temp pwr) s (fun t => (t.row row).temp = temp ∧ (t.row row).pwr = pwr ∧ (t.row row).ctl = (s.row row).ctl ∧
      (run ≤ temp.toNat → t.rowStep row = 7) ∧ t.procs = s.procs ∧ t.mem = s.mem ∧
      t.agenda = s.agenda ++ (if (s.row row).temp.toNat < run ∧ run ≤ temp.toNat then [.thermalRunaway row] else [])) ∧
    (run ≤ (s.row row).temp.toNat → Completes (.thermalRunaway row) s (fun t => ∃ vs, t = { s with agenda := s.agenda ++ [.chrysalisAlarm 3 vs] } ∧
      ∀ v, v ∈ vs ↔ v ≠ 0 ∧ ∃ p ∈ s.procs, p.2.vmid = v ∧ p.2.core / 16 = row)) ∧
    ((s.row row).temp.toNat < run → Completes (.thermalRunaway row) s (fun t => t = s)) ∧
    (let p (v : Nat) : W64 := spGet pwrtReset s.regs.pwrt v;
      let use (v : Nat) : Nat := (s.rows.map fun r => r.2.pwr.toNat * (s.procs.filter fun q => q.2.vmid == v && q.2.core / 16 == r.1).length).sum / 16;
      let want (v : Nat) : Nat := min (fld 31 16 (p v)) (if v ∈ s.withheld then use v + 64 else use v) - fld 15 0 (p v);
      let ts := (List.range 255).map fun i => i + 1;
      Completes .powerInterval s (fun t => t.withheld = [] ∧ t.procs = s.procs ∧ t.mem = s.mem ∧
        ∀ v, 1 ≤ v → v ≤ 255 →
          let q := spGet pwrtReset t.regs.pwrt v
          fld 55 40 q = min (use v) 65535 ∧ fld 39 0 q = fld 39 0 (p v) ∧ (use v < fld 15 0 (p v) → tb 56 q = false) ∧
          (fld 15 0 (p v) + want v ≤ use v → tb 56 q = true) ∧
          ((ts.map want).sum ≤ fld 15 0 s.regs.modpwr - (ts.map fun v => fld 15 0 (p v)).sum →
            tb 56 q = decide (fld 15 0 (p v) + want v ≤ use v))))

/-- Chrysalis raises a source for a glitch, an open loop or a refused write of its levels; an alarm is counted with its source and acts by
its level: a notice, a freeze of the tenants' cores, or zeroisation and the stop of the module, which then answers only a reset. Levels
change only within the lock; a report is signed while the key is held; only a good image boots (R335, R476 to R478). -/
def Obligations.Alarms : Prop :=
  ∀ (src : Nat) (vs : List Nat) (v version : W64) (ok : Bool) (hash nonce : BitVec 256) (s : State),
    let raised (k : Nat) (t : State) : Prop := t = { s with agenda := s.agenda ++ [.chrysalisAlarm k []] }
    Completes .voltageGlitch s (raised 0) ∧ Completes .clockGlitch s (raised 1) ∧ Completes .tamperLoopOpen s (raised 2) ∧
    (6 ≤ src → Completes (.chrysalisAlarm src vs) s (fun t => t = s)) ∧
    (src < 6 →
      let level := fld (2 * src + 1) (2 * src) s.regs.chalcfg
      Completes (.chrysalisAlarm src vs) s (fun t => fld 2 0 t.regs.challog = src ∧ fld 31 8 t.regs.challog = min (2 ^ 24 - 1) (fld 31 8 s.regs.challog + 1) ∧
        t.mem = s.mem ∧
        (level = 1 → t.imago.notices = s.imago.notices ++ [(s.imago.seq, .notice 335 src)] ∧ t.procs = s.procs) ∧
        (level = 2 → t.cores = s.cores ∧ ∀ n, (t.proc n).alarm = ((s.proc n).alarm || ((s.proc n).vmid != 0 && vs.contains (s.proc n).vmid)) ∧
          (t.proc n).slots = (s.proc n).slots) ∧
        (level = 3 → t.stopped = true ∧ t.chrys.attKey = false ∧ t.chrys.zeroised = s.chrys.zeroised + 1 ∧ t.regs.brxup = 0 ∧
          (∀ w : Who, (t.slot w).chunk = none ∧ (t.slot w).commit = none ∧ (t.slot w).arch = (s.slot w).arch) ∧ (∀ c, (t.core c).egress = []) ∧
          step t = .fault .moduleStopped))) ∧
    (let zero := (List.range 6).any fun k => fld (2 * k + 1) (2 * k) v == 0;
      let lower := (List.range 6).any fun k => decide (fld (2 * k + 1) (2 * k) v < fld (2 * k + 1) (2 * k) s.regs.chalcfg);
      (zero = true → Completes (.chalcfgWrite v) s (fun t => t = s)) ∧
      (zero = false → tb 16 s.regs.chalcfg = true → lower = true → Completes (.chalcfgWrite v) s (raised 4)) ∧
      (zero = false → tb 16 s.regs.chalcfg = false ∨ lower = false → Completes (.chalcfgWrite v) s (fun t => fld 11 0 t.regs.chalcfg = fld 11 0 v ∧
        tb 16 t.regs.chalcfg = (tb 16 v || tb 16 s.regs.chalcfg) ∧ { t with regs := s.regs } = s))) ∧
    Completes .challogClear s (fun t => t.regs.challog = 0 ∧ { t with regs := s.regs } = s) ∧
    (s.chrys.attKey = true → Completes (.attestationReport nonce) s (fun t => ∃ r, t.chrys.report = some r ∧ r.hash = s.chrys.hash ∧
      r.version = s.chrys.version ∧ r.zeroised = s.chrys.zeroised ∧ r.nonce = nonce ∧ t.procs = s.procs ∧ t.mem = s.mem)) ∧
    (s.chrys.attKey = false → Completes (.attestationReport nonce) s (fun t => t = s)) ∧
    (s.chrys.booted = false → s.chrys.failed = false → Completes (.chrysalisBoot ok version hash) s (fun t =>
      { t with chrys := s.chrys } = s ∧
      (ok = true ∧ s.chrys.fused.toNat ≤ version.toNat → t.chrys.booted = true ∧ t.chrys.failed = false ∧ t.chrys.version = version ∧
        t.chrys.hash = hash ∧ t.chrys.attKey = true) ∧
      (ok = false ∨ version.toNat < s.chrys.fused.toNat → t.chrys.booted = false ∧ t.chrys.failed = true))) ∧
    (s.chrys.booted = true ∨ s.chrys.failed = true → Completes (.chrysalisBoot ok version hash) s (fun t => t = s))

/-- A reset leaves the module as at reset: every slot absent, no CORETAG, the queue slots disabled, HBM4E and the local memories as nothing
had written them; the durable LPDDR6 and the fused values are kept. A thaw lets a core that an alarm or a checkpoint froze go on
(R130, R335, R477, R479; log 23). -/
def Obligations.ResetAndThaw : Prop :=
  ∀ (core : Nat) (s : State),
    Completes .reset s (fun t => t.stopped = false ∧ (∀ w : Who, t.slot w = Slot.init) ∧ (∀ n, (t.proc n).coretag = 0) ∧
      (∀ k, tb 32 (t.dq k).cfg = false) ∧ t.regs = ModRegs.init ∧ t.agenda = [] ∧ t.timers = [] ∧ t.net = [] ∧ t.chrys.booted = false ∧
      t.chrys.fused = s.chrys.fused ∧ t.chrys.zeroised = s.chrys.zeroised ∧
      ∀ a, memGet t.mem a = if 0x010000000000 ≤ a ∧ a < 0xF00000000000 then memGet s.mem a else memGet [] a) ∧
    ((s.core core).held = [] → (s.core core).sweeps = 0 → Completes (.thaw core) s (fun t => (t.core core).frzAlarm = false ∧
      (s.ckPhase = .idle → (t.core core).frzCkpt = false) ∧ (t.core core).frzSwap = (s.core core).frzSwap ∧
      (t.proc (s.core core).host).alarm = false ∧ (∀ w : Who, t.slot w = s.slot w) ∧ t.mem = s.mem))

/-- Reset: no core is gated, every CORETAG is 0, every slot is absent and the queue slots are disabled, and the registers hold the values
of the Reset columns (R479, R30, R34, R107 to R110, R118, R128, R219, R229, R260, R268, R270, R288, R310, R320, R356, R376, R384, R394, R419,
R443, R465, R468, R472 to R474, R478). -/
def Obligations.ResetState : Prop :=
  let s := State.reset
  (∀ c, (s.core c).gated = false ∧ fld 4 0 (s.core c).coreclk = 2 ∧ tb 8 (s.core c).coreclk = true ∧ (s.core c).faultlog = 0 ∧
    (s.core c).anmode = 0 ∧ (s.core c).antemp = 0 ∧ fld 3 0 (s.core c).ancool = 4 ∧ (s.core c).anfloor = 0 ∧ fld 4 0 (s.core c).anperiod = 12 ∧
    fld 12 8 (s.core c).anperiod = 16 ∧ fld 3 0 (s.core c).anedge = 2 ∧ fld 31 0 (s.core c).anseed = 1 ∧ (s.core c).anstat = 0 ∧
    ∀ n, spGet 0 (s.core c).andraw n = 0) ∧
  (∀ l, (s.proc l).coretag = 0 ∧ (s.proc l).xroot = 0 ∧ (s.proc l).lmmap = 0 ∧ (s.proc l).chgfill = 0 ∧ (s.proc l).chghit = 0 ∧ (s.proc l).chgwb = 0 ∧
    (s.proc l).inCount = 0 ∧ (s.proc l).inboxie = 0 ∧ (s.proc l).spillq = 0 ∧ tb 0 (s.proc l).taskcfg = true ∧ fld 15 8 (s.proc l).taskcfg = 64 ∧
    fld 30 16 (s.proc l).taskcfg = 0x7FFE ∧ fld 63 56 (s.proc l).taskcfg = 0 ∧ (s.proc l).fieldcfg = 0 ∧ fld 3 0 (s.proc l).crowd = 12 ∧
    (s.proc l).fieldbar = 0 ∧ (s.proc l).ftab = 0 ∧ (s.proc l).fstat = 0 ∧ (s.proc l).anc = false ∧ (s.proc l).lanc = false) ∧
  (∀ w : Who,
    let x := s.slot w
    x.st = .absent ∧ x.arch.lc0 = 0 ∧ x.arch.ls0 = 0 ∧ x.arch.lc1 = 0 ∧ x.arch.ls1 = 0 ∧ fld 2 0 x.arch.fcsr = 0 ∧ tb 3 x.arch.fcsr = true ∧
    fld 9 5 x.arch.fcsr = 0 ∧ (∀ n, ∀ h : n < 8, x.sg[n] = 0) ∧ (∀ n, ∀ h : n < 8, x.hbank[n] = 0) ∧ x.regs.waitlim = 0x01000000 ∧
    x.regs.barlim = 0x01000000 ∧ x.regs.sendlim = 0x01000000 ∧ x.regs.masklim = 0x0400 ∧ x.regs.uivec = 0 ∧ x.regs.uistat = 0 ∧ x.regs.pipecfg = 0 ∧
    x.regs.strview = 0 ∧ x.regs.ganglim = 0x00100000 ∧ fld 31 0 x.regs.quantum = 0x00040000 ∧ fld 63 32 x.regs.quantum = 0 ∧ x.regs.tcause = 0 ∧
    x.regs.taddr = 0 ∧ x.regs.tpc = 0 ∧ x.regs.tprog = 0 ∧ x.regs.tscr0 = 0 ∧ x.regs.tscr1 = 0 ∧ x.inTrap = false ∧ fld 1 0 x.regs.spinres = 0) ∧
  (∀ k, tb 32 (s.dq k).cfg = false ∧ fld 25 24 (s.dq k).cfg = 3 ∧ fld 23 0 (s.dq k).cfg = 0 ∧ (s.dq k).base = 0 ∧ (s.dq k).root = 0 ∧ (s.dq k).ptr = 0) ∧
  (fld 7 0 s.regs.l2cfg = 0 ∧ fld 11 8 s.regs.l2cfg = 4 ∧ fld 39 16 s.regs.l2cfg = 0x100000 ∧ s.regs.pgblk = 0 ∧ s.regs.pgcsrc = 0 ∧ s.regs.pgcdst = 0 ∧
    s.regs.ckpt = 0 ∧ s.regs.brxcfg = 0 ∧ s.regs.brxup = 0 ∧ s.regs.dqsel = 0 ∧ s.regs.dqage = 4096 ∧ s.regs.dbsum = 0 ∧ s.regs.rowsel = 0 ∧
    fld 11 0 s.regs.thermcfg = 340 ∧ fld 23 12 s.regs.thermcfg = 380 ∧ fld 35 24 s.regs.thermcfg = 420 ∧ s.regs.modpwr = 6200 ∧
    tb 16 s.regs.chalcfg = false ∧ s.regs.challog = 0) ∧
  (∀ v, spGet 0 s.regs.vmroot v = 0 ∧ spGet 0 s.regs.vfmap v = 0 ∧ s.l2Mask v = 0xFFFF ∧ fld 15 0 (spGet l2bwReset s.regs.l2bw v) = 0xFFFF ∧
    fld 35 16 (spGet l2bwReset s.regs.l2bw v) = 0xFFFFF ∧ fld 37 36 (spGet l2bwReset s.regs.l2bw v) = 3 ∧ fld 15 0 (spGet pwrtReset s.regs.pwrt v) = 0 ∧
    fld 31 16 (spGet pwrtReset s.regs.pwrt v) = 0xFFFF ∧ fld 33 32 (spGet pwrtReset s.regs.pwrt v) = 3 ∧ fld 56 40 (spGet pwrtReset s.regs.pwrt v) = 0) ∧
  (∀ n, fld 7 0 (s.row n).ctl = 160 ∧ fld 11 8 (s.row n).ctl = 0 ∧ fld 27 16 (s.row n).ctl = 4095)

/-- Words that the spec writes out decode to the instructions they are written for: one or more of each format, lone, with an extension, and
in pairs (R182, R189, R200, R215, R241, R248, R313, R422). -/
def Obligations.WrittenWords : Prop :=
  let nop : Instr := .nop { d := 0, a := 0, b := 0, g := 0, sa := false, sb := false, x := none }
  decodeWords 0x0A29888F 0x003A0980 = some { a := .ldW { d := 5, a := 6, seg := 1, o := 3, g := 2, la := 3, x := none }, b := some (.add { d := 7, a := 8, b := 9, sa := false, sb := true, g := 0, fn := 0 }) } ∧
  decodeWords 0x80000008 0 = some { a := .halt { d := 0, a := 0, b := 0, g := 0, sa := false, sb := false, x := none }, b := none } ∧
  decodeWords 0x52280000 0x00010000 = some { a := .ldsync { d := 5, a := 0, seg := 0, o := 0, g := 0, la := 0, x := some 0x10000 }, b := none } ∧
  decodeWords 0xBE014000 0 = some { a := .tlbiVa { d := 0, a := 5, b := 0, g := 0, sa := false, sb := false, x := none }, b := none } ∧
  decodeWords 0 0x20295F8F = some { a := nop, b := some (.addi { d := 5, a := 5, sa := false, imm := 0x3FF, g := 0 }) } ∧
  decodeWords 0 0x292E6F0F = some { a := nop, b := some (.movh { d := 5, imm := 0xCDEF, g := 0 }) } ∧
  decodeWords 0 0x40094604 = some { a := nop, b := some (.cmp { pd := 1, a := 5, b := 6, sa := false, sb := false, g := 0, cond := 4 }) } ∧
  decodeWords 0 0x4C214623 = some { a := nop, b := some (.sel { d := 4, a := 5, b := 6, sa := false, sb := false, g := 2, fn := 3 }) } ∧
  decodeWords 0 0x61190503 = some { a := nop, b := some (.vadds { d := 3, a := 4, b := 5, sa := false, sb := false, g := 0, fn := 3 }) } ∧
  decodeWords 0 0x80298705 = some { a := nop, b := some (.fadd { d := 5, a := 6, b := 7, sa := false, sb := false, g := 0, fn := 5 }) } ∧
  decodeWords 0x81FFFEFE 0 = some { a := .br { disp := 0x1FFFFE, g := 3 }, b := none } ∧
  decodeWords 0x83080005 0 = some { a := .call { d := 1, disp := 5, g := 0, x := none }, b := none } ∧
  decodeWords 0x85024083 0 = some { a := .loop { a := 9, sa := false, lc := true, bl := 3 }, b := none } ∧
  decodeWords 0x5641C000 0x10 = some { a := .afaaN { d := 8, a := 7, b := 0, g := 0, seg := 0, off := 0, la := 0, sz := true }, b := none } ∧
  decodeWords 0xA52A9608 0 = some { a := .bara { d := 5, a := 10, b := 11, g := 0, sa := false, sb := false, x := none }, b := none } ∧
  decodeWords 0x98581208 0 = some { a := .send { d := 11, a := 0, b := 9, g := 0, k := 1, n := 0, x := none }, b := none } ∧
  decodeWords 0x97000020 0 = some { a := .fenceH { a := 0, seg := 0, g := 0, x := none }, b := none } ∧
  decodeWords 0xB9401200 0 = some { a := .neigh { d := 8, a := 0, b := 9, g := 0, sa := false, sb := false, x := none }, b := none } ∧
  decodeWords 0xBD108220 0 = some { a := .sysw { d := 2, num := 0x106, g := 0, sd := false }, b := none }

/-- Decode of encode is the identity: every well-formed word instruction with every operand its encoding admits, alone in its bundle, and
every pair of a word A without an extension and a word B (R176, R177, R181 to R196). -/
def Clause.RoundTrip : Prop :=
  (∀ i : Instr, i.wf = true → i.isWordA = true ∨ i.isWordB = true → decodeWords (encode i).1 (encode i).2 = some i.bundle) ∧
  (∀ a b : Instr, a.wf = true → a.isWordA = true → a.ext = none → a.loneOnly = false → b.wf = true → b.isWordB = true →
    decodeWords (wordA false false a) b.encB = some { a := a, b := some b })

/-- A bundle has one encoding: words that decode are the encoding of what they decode to, so no bit of them is ignored, and every
instruction decoded is well-formed (R177, R181). -/
def Clause.OneEncoding : Prop :=
  ∀ (wa wb : W32) (u : Bundle), decodeWords wa wb = some u →
    u.a.wf = true ∧ u.a.isWordA = true ∧ (u.b = none → (wa, wb) = encode u.a) ∧
    (∀ b, u.b = some b → b.wf = true ∧ b.isWordB = true ∧ wa = wordA false false u.a ∧ wb = b.encB)

/-- Decode and encode agree, in both directions (the clauses say what each does and cite its rules). -/
def Obligations.Encodings : Prop :=
  Clause.RoundTrip ∧ Clause.OneEncoding

/-- Every step keeps the memory in its canonical form: addresses strictly rising, and no byte listed that reads as an unlisted one. -/
def Obligations.MemoryKept : Prop := ∀ s t : State, s.Inv → step s = .next t → t.Inv

/-- The memory is in its canonical form at reset. -/
def Obligations.MemoryAtReset : Prop := State.reset.Inv
end

