-- ==== Sys2Proof/Laws/Bits.lean ====
section
/-!
SUPPORT. The algebra of register fields: a field reads as what was put into it, and a put leaves every other field.
-/

namespace Sys2Proof.Machine

/-- The number a put leaves: what lies above the field, the field, what lies below it. -/
theorem setFld_toNat (hi lo x : Nat) (v : W64) (h : lo ≤ hi) (h64 : hi < 64) : (setFld hi lo x v).toNat =
    v.toNat / 2 ^ (hi + 1) * 2 ^ (hi + 1) + x % 2 ^ (hi - lo + 1) * 2 ^ lo + v.toNat % 2 ^ lo := by
  rw [setFld, BitVec.toNat_ofNat]
  apply Nat.mod_eq_of_lt
  have e : 2 ^ (hi + 1) = 2 ^ (hi - lo + 1) * 2 ^ lo := by rw [← Nat.pow_add]; congr 1; omega
  have k : 2 ^ 64 = 2 ^ (63 - hi) * 2 ^ (hi + 1) := by rw [← Nat.pow_add]; congr 1; omega
  have q : v.toNat / 2 ^ (hi + 1) < 2 ^ (63 - hi) := by
    apply Nat.div_lt_of_lt_mul; rw [Nat.mul_comm, ← k]; exact v.isLt
  have y : x % 2 ^ (hi - lo + 1) < 2 ^ (hi - lo + 1) := Nat.mod_lt _ (Nat.two_pow_pos _)
  have z : v.toNat % 2 ^ lo < 2 ^ lo := Nat.mod_lt _ (Nat.two_pow_pos _)
  have q' := Nat.mul_le_mul_right (2 ^ (hi + 1)) (Nat.succ_le_of_lt q)
  have y' := Nat.mul_le_mul_right (2 ^ lo) (Nat.succ_le_of_lt y)
  rw [Nat.succ_mul] at q' y'
  rw [k]
  omega

/-- A field reads as what was put into it. -/
theorem fld_setFld (hi lo x : Nat) (v : W64) (h : lo ≤ hi) (h64 : hi < 64) : fld hi lo (setFld hi lo x v) = x % 2 ^ (hi - lo + 1) := by
  have e : 2 ^ (hi + 1) = 2 ^ (hi - lo + 1) * 2 ^ lo := by rw [← Nat.pow_add]; congr 1; omega
  have z : v.toNat % 2 ^ lo < 2 ^ lo := Nat.mod_lt _ (Nat.two_pow_pos _)
  rw [fld, setFld_toNat hi lo x v h h64, e, ← Nat.mul_assoc, ← Nat.add_mul, Nat.mul_comm _ (2 ^ lo),
    Nat.mul_add_div (Nat.two_pow_pos _), Nat.div_eq_of_lt z, Nat.add_zero, Nat.mul_add_mod', Nat.mod_mod]

/-- A put leaves every field above it. -/
theorem fld_setFld_above (hi lo x : Nat) (v : W64) {hi' lo' : Nat} (h : lo ≤ hi) (h64 : hi < 64) (d : hi < lo') :
    fld hi' lo' (setFld hi lo x v) = fld hi' lo' v := by
  have e : 2 ^ (hi + 1) = 2 ^ (hi - lo + 1) * 2 ^ lo := by rw [← Nat.pow_add]; congr 1; omega
  have y : x % 2 ^ (hi - lo + 1) < 2 ^ (hi - lo + 1) := Nat.mod_lt _ (Nat.two_pow_pos _)
  have z : v.toNat % 2 ^ lo < 2 ^ lo := Nat.mod_lt _ (Nat.two_pow_pos _)
  have y' := Nat.mul_le_mul_right (2 ^ lo) (Nat.succ_le_of_lt y)
  rw [Nat.succ_mul] at y'
  have k : 2 ^ lo' = 2 ^ (hi + 1) * 2 ^ (lo' - (hi + 1)) := by rw [← Nat.pow_add]; congr 1; omega
  have n : (setFld hi lo x v).toNat / 2 ^ (hi + 1) = v.toNat / 2 ^ (hi + 1) := by
    have small : x % 2 ^ (hi - lo + 1) * 2 ^ lo + v.toNat % 2 ^ lo < 2 ^ (hi + 1) := by omega
    rw [setFld_toNat hi lo x v h h64, Nat.add_assoc, Nat.mul_comm _ (2 ^ (hi + 1)), Nat.mul_add_div (Nat.two_pow_pos _),
      Nat.div_eq_of_lt small, Nat.add_zero]
  rw [fld, fld, k, ← Nat.div_div_eq_div_mul, ← Nat.div_div_eq_div_mul, n]

/-- A put leaves every field below it. -/
theorem fld_setFld_below (hi lo x : Nat) (v : W64) {hi' lo' : Nat} (h : lo ≤ hi) (h64 : hi < 64) (l : lo' ≤ hi') (d : hi' < lo) :
    fld hi' lo' (setFld hi lo x v) = fld hi' lo' v := by
  have e : 2 ^ (hi + 1) = 2 ^ (hi - lo + 1) * 2 ^ lo := by rw [← Nat.pow_add]; congr 1; omega
  have n : (setFld hi lo x v).toNat % 2 ^ lo = v.toNat % 2 ^ lo := by
    rw [setFld_toNat hi lo x v h h64, e, ← Nat.mul_assoc, ← Nat.add_mul, Nat.mul_comm _ (2 ^ lo), Nat.mul_add_mod, Nat.mod_mod]
  have cut (m : Nat) : m / 2 ^ lo' % 2 ^ (hi' - lo' + 1) = m % 2 ^ lo % 2 ^ (hi' + 1) / 2 ^ lo' := by
    have k : 2 ^ (hi' + 1) = 2 ^ lo' * 2 ^ (hi' - lo' + 1) := by rw [← Nat.pow_add]; congr 1; omega
    rw [Nat.mod_mod_of_dvd m (Nat.pow_dvd_pow 2 (by omega : hi' + 1 ≤ lo)), k, Nat.mod_mul_right_div_self]
  rw [fld, fld, cut, cut, n]

/-- A bit as the field of its own place. -/
theorem tb_eq_fld (i : Nat) (v : W64) : tb i v = decide (fld i i v = 1) := by
  rw [tb, BitVec.getLsbD, Nat.testBit_eq_decide_div_mod_eq, fld, Nat.sub_self, Nat.zero_add, Nat.pow_one]

end Sys2Proof.Machine
end

