-- ==== Sys2Proof/Laws/Sparse.lean ====
section
/-!
SUPPORT. The laws of sparse maps and of the memory list: reads after writes, and that every memory operation keeps the
canonical form.
-/

namespace Sys2Proof.Machine

/-! ## Sparse maps -/

/-- A key reads as what was last put there. -/
@[simp] theorem spGet_spPut_same {α : Type} (d : α) (m : Sp α) (k : Nat) (v : α) : spGet d (spPut m k v) k = v := by
  induction m with
  | nil => simp [spPut, spGet]
  | cons e m ih =>
    obtain ⟨a, w⟩ := e
    simp only [spPut]
    split
    · simp [spGet]
    · split
      · simp [spGet]
      · rename_i h; simp [spGet, h, ih]

/-- A put leaves every other key as it is. -/
theorem spGet_spPut_ne {α : Type} (d : α) (m : Sp α) {j k : Nat} (v : α) (h : j ≠ k) :
    spGet d (spPut m k v) j = spGet d m j := by
  have h' : k ≠ j := fun e => h e.symm
  induction m with
  | nil => simp [spPut, spGet, h']
  | cons e m ih =>
    obtain ⟨a, w⟩ := e
    simp only [spPut]
    split
    · simp [spGet, h']
    · split
      · rename_i _ e; subst e; simp [spGet, h']
      · simp [spGet, ih]

/-- A read after a put, by cases. -/
theorem spGet_spPut {α : Type} (d : α) (m : Sp α) (j k : Nat) (v : α) :
    spGet d (spPut m k v) j = if j = k then v else spGet d m j := by
  split
  · rename_i h; subst h; simp
  · rename_i h; exact spGet_spPut_ne d m v h

/-- A put key is listed. -/
@[simp] theorem spHas_spPut_same {α : Type} (m : Sp α) (k : Nat) (v : α) : spHas (spPut m k v) k = true := by
  induction m with
  | nil => simp [spPut, spHas]
  | cons e m ih =>
    obtain ⟨a, w⟩ := e
    simp only [spPut]
    split
    · simp [spHas]
    · split <;> simp [spHas, ih]

/-- An unlisted key reads as the default. -/
theorem spGet_of_not_has {α : Type} (d : α) (m : Sp α) (k : Nat) (h : spHas m k = false) : spGet d m k = d := by
  induction m with
  | nil => rfl
  | cons e m ih =>
    obtain ⟨a, w⟩ := e
    simp only [spHas, Bool.or_eq_false_iff, beq_eq_false_iff_ne] at h
    simp [spGet, h.1, ih h.2]

/-- A removed key is not listed. -/
@[simp] theorem spHas_spDel_same {α : Type} (m : Sp α) (k : Nat) : spHas (spDel m k) k = false := by
  induction m with
  | nil => rfl
  | cons e m ih =>
    obtain ⟨a, w⟩ := e
    by_cases h : a = k
    · simp only [spDel, List.filter_cons, h, bne_self_eq_false, Bool.false_eq_true, ↓reduceIte]; exact ih
    · have h' : (a != k) = true := by simpa using h
      simp only [spDel, List.filter_cons, h', ↓reduceIte, spHas, Bool.or_eq_false_iff, beq_eq_false_iff_ne]
      exact ⟨h, ih⟩

/-- A removal leaves every other key as it is. -/
theorem spGet_spDel_ne {α : Type} (d : α) (m : Sp α) {j k : Nat} (h : j ≠ k) : spGet d (spDel m k) j = spGet d m j := by
  induction m with
  | nil => rfl
  | cons e m ih =>
    obtain ⟨a, w⟩ := e
    by_cases e : a = k
    · have : a ≠ j := fun e' => h (e' ▸ e)
      simp only [spDel, List.filter_cons, e, bne_self_eq_false, Bool.false_eq_true, ↓reduceIte, spGet]
      rw [if_neg (fun e' => h e'.symm)]; exact ih
    · have h' : (a != k) = true := by simpa using e
      simp only [spDel, List.filter_cons, h', ↓reduceIte, spGet]
      split
      · rfl
      · exact ih

/-- A change of every value changes what a listed key reads as. -/
theorem spGet_spMap {α : Type} (d : α) (m : Sp α) (f : Nat → α → α) (k : Nat) (h : spHas m k = true) :
    spGet d (spMap m f) k = f k (spGet d m k) := by
  induction m with
  | nil => simp [spHas] at h
  | cons e m ih =>
    obtain ⟨a, w⟩ := e
    by_cases e : a = k
    · subst e; simp [spMap, spGet]
    · simp only [spHas, Bool.or_eq_true, beq_iff_eq, e, false_or] at h
      have := ih h
      simp only [spMap, List.map_cons, spGet, e, ↓reduceIte] at this ⊢
      exact this

/-- A change of every value lists the same keys. -/
@[simp] theorem spHas_spMap {α : Type} (m : Sp α) (f : Nat → α → α) (k : Nat) : spHas (spMap m f) k = spHas m k := by
  induction m with
  | nil => rfl
  | cons e m ih =>
    obtain ⟨a, w⟩ := e
    simp only [spMap, List.map_cons, spHas] at ih ⊢
    rw [ih]

/-! ## The memory list -/

/-- A byte reads as what was last put there. -/
@[simp] theorem memGet_memPut_same (m : List Host.Cell) (k : Nat) (v : Byte) : memGet (memPut m k v) k = v := by
  unfold memPut
  split
  · rename_i h; subst h
    induction m with
    | nil => rfl
    | cons c m ih =>
      obtain ⟨a, b⟩ := c
      by_cases e : a = k
      · simp only [memDel, List.filter_cons, e, bne_self_eq_false, Bool.false_eq_true, ↓reduceIte]; exact ih
      · have e' : (a != k) = true := by simpa using e
        simp only [memDel, List.filter_cons, e', ↓reduceIte, memGet, e]; exact ih
  · induction m with
    | nil => simp [memIns, memGet]
    | cons c m ih =>
      obtain ⟨a, b⟩ := c
      simp only [memIns]
      split
      · simp [memGet]
      · split
        · simp [memGet]
        · rename_i e; simp [memGet, e, ih]

/-- A write of a byte leaves every other address as it is. -/
theorem memGet_memPut_ne (m : List Host.Cell) {j k : Nat} (v : Byte) (h : j ≠ k) : memGet (memPut m k v) j = memGet m j := by
  have h' : k ≠ j := fun e => h e.symm
  unfold memPut
  split
  · induction m with
    | nil => rfl
    | cons c m ih =>
      obtain ⟨a, b⟩ := c
      by_cases e : a = k
      · simp only [memDel, List.filter_cons, e, bne_self_eq_false, Bool.false_eq_true, ↓reduceIte, memGet]
        rw [if_neg h']; exact ih
      · have e' : (a != k) = true := by simpa using e
        simp only [memDel, List.filter_cons, e', ↓reduceIte, memGet]
        split
        · rfl
        · exact ih
  · induction m with
    | nil => simp [memIns, memGet, h']
    | cons c m ih =>
      obtain ⟨a, b⟩ := c
      simp only [memIns]
      split
      · simp [memGet, h']
      · split
        · rename_i _ e; subst e; simp [memGet, h']
        · simp [memGet, ih]

/-- A lower bound may be lowered. -/
theorem memAbove_mono (m : List Host.Cell) {a b : Nat} (h : a ≤ b) (w : memAbove b m = true) : memAbove a m = true := by
  cases m with
  | nil => rfl
  | cons c m =>
    simp only [memAbove, Bool.and_eq_true, decide_eq_true_eq] at w ⊢
    exact ⟨⟨Nat.le_trans h w.1.1, w.1.2⟩, w.2⟩

/-- Leaving cells out keeps the canonical form. -/
theorem memAbove_filter (m : List Host.Cell) (p : Host.Cell → Bool) {a : Nat} (w : memAbove a m = true) :
    memAbove a (m.filter p) = true := by
  induction m generalizing a with
  | nil => rfl
  | cons c m ih =>
    simp only [memAbove, Bool.and_eq_true, decide_eq_true_eq] at w
    simp only [List.filter_cons]
    split
    · simp only [memAbove, Bool.and_eq_true, decide_eq_true_eq]; exact ⟨w.1, ih w.2⟩
    · exact memAbove_mono _ (by omega) (ih w.2)

/-- Listing a cell keeps the canonical form. -/
theorem memAbove_memIns (m : List Host.Cell) (k : Nat) (v : Byte) (hv : v ≠ 0) {a : Nat} (ha : a ≤ k) (w : memAbove a m = true) :
    memAbove a (memIns k v m) = true := by
  have hv' : (v != 0) = true := by simpa using hv
  induction m generalizing a with
  | nil => simp only [memIns, memAbove, hv', Bool.and_true, decide_eq_true_eq]; exact ha
  | cons c m ih =>
    obtain ⟨x, b⟩ := c
    simp only [memAbove, Bool.and_eq_true, decide_eq_true_eq] at w
    simp only [memIns]
    split
    · rename_i h
      simp only [memAbove, Bool.and_eq_true, decide_eq_true_eq]
      exact ⟨⟨ha, hv'⟩, ⟨by omega, w.1.2⟩, w.2⟩
    · split
      · rename_i _ h; subst h
        simp only [memAbove, Bool.and_eq_true, decide_eq_true_eq]
        exact ⟨⟨ha, hv'⟩, w.2⟩
      · simp only [memAbove, Bool.and_eq_true, decide_eq_true_eq]
        exact ⟨w.1, ih (by omega) w.2⟩

/-- Leaving cells out keeps the canonical form. -/
theorem wf_filter (m : List Host.Cell) (p : Host.Cell → Bool) (w : Memory.wf m = true) : Memory.wf (m.filter p) = true :=
  memAbove_filter m p w

/-- A write of a byte keeps the canonical form. -/
theorem wf_memPut (m : List Host.Cell) (k : Nat) (v : Byte) (w : Memory.wf m = true) : Memory.wf (memPut m k v) = true := by
  unfold memPut
  split
  · exact wf_filter m _ w
  · rename_i h; exact memAbove_memIns m k v h (Nat.zero_le k) w

/-- A write of several bytes keeps the canonical form. -/
theorem wf_memWrite (m : List Host.Cell) (a n v : Nat) (w : Memory.wf m = true) : Memory.wf (memWrite m a n v) = true := by
  induction n generalizing m a v with
  | zero => exact w
  | succ n ih => exact ih _ _ _ (wf_memPut m a _ w)

/-- A write of a sector keeps the canonical form. -/
theorem wf_secToMem (m : List Host.Cell) (a : Nat) (d : BitVec 1024) (w : Memory.wf m = true) : Memory.wf (secToMem m a d) = true :=
  wf_memWrite m a 128 d.toNat w

/-- A write of n bytes leaves what lies outside them. -/
theorem memGet_memWrite_out (m : List Host.Cell) (a n v : Nat) {j : Nat} (h : j < a ∨ a + n ≤ j) :
    memGet (memWrite m a n v) j = memGet m j := by
  induction n generalizing m a v with
  | zero => rfl
  | succ n ih =>
    simp only [memWrite]
    rw [ih _ _ _ (by omega), memGet_memPut_ne _ _ (by omega)]

/-- A byte that a write of n bytes covers is the value's. -/
theorem memGet_memWrite_in (m : List Host.Cell) (a n v : Nat) {i : Nat} (h : i < n) :
    memGet (memWrite m a n v) (a + i) = BitVec.ofNat 8 (v / 256 ^ i) := by
  induction n generalizing m a v i with
  | zero => omega
  | succ n ih =>
    simp only [memWrite]
    cases i with
    | zero => rw [Nat.add_zero, memGet_memWrite_out _ _ _ _ (by omega)]; simp
    | succ i =>
      have := ih (memPut m a (BitVec.ofNat 8 v)) (a + 1) (v / 256) (i := i) (by omega)
      rw [show a + (i + 1) = a + 1 + i by omega, this, Nat.div_div_eq_div_mul, ← Nat.pow_succ']

/-- n bytes read after they were written. -/
theorem memRead_memWrite (m : List Host.Cell) (a n v : Nat) : memRead (memWrite m a n v) a n = v % 256 ^ n := by
  induction n generalizing m a v with
  | zero => simp [memRead, Nat.mod_one]
  | succ n ih =>
    simp only [memRead, memWrite]
    rw [memGet_memWrite_out _ _ _ _ (by omega), memGet_memPut_same, ih, BitVec.toNat_ofNat, Nat.pow_succ' (m := 256), Nat.mod_mul (x := v) (a := 256)]

end Sys2Proof.Machine
end

