-- ==== Sys2Proof/Laws/State.lean ====
section
/-!
SUPPORT. The small lemmas of State: what each named update leaves of every field, and what the accessors read after each
update.
-/

namespace Sys2Proof.Machine

variable (s : State) (l n : Nat) (w : Who) (f : Proc → Proc) (g : Slot → Slot) (c : Nat) (h : Core → Core) (d : Nat)
  (k : Dom → Dom) (e : Ev) (es : List Ev) (clk : Clock) (i : Item)

/-! ## One lemma per field per update -/

@[simp] theorem State.modProc_cores : (s.modProc l f).cores = s.cores := rfl
@[simp] theorem State.modProc_mem : (s.modProc l f).mem = s.mem := rfl
@[simp] theorem State.modProc_empty : (s.modProc l f).empty = s.empty := rfl
@[simp] theorem State.modProc_badWords : (s.modProc l f).badWords = s.badWords := rfl
@[simp] theorem State.modProc_poison : (s.modProc l f).poison = s.poison := rfl
@[simp] theorem State.modProc_errs : (s.modProc l f).errs = s.errs := rfl
@[simp] theorem State.modProc_soft : (s.modProc l f).soft = s.soft := rfl
@[simp] theorem State.modProc_secs : (s.modProc l f).secs = s.secs := rfl
@[simp] theorem State.modProc_regs : (s.modProc l f).regs = s.regs := rfl
@[simp] theorem State.modProc_ports : (s.modProc l f).ports = s.ports := rfl
@[simp] theorem State.modProc_slices : (s.modProc l f).slices = s.slices := rfl
@[simp] theorem State.modProc_pools : (s.modProc l f).pools = s.pools := rfl
@[simp] theorem State.modProc_bwOld : (s.modProc l f).bwOld = s.bwOld := rfl
@[simp] theorem State.modProc_combine : (s.modProc l f).combine = s.combine := rfl
@[simp] theorem State.modProc_bases : (s.modProc l f).bases = s.bases := rfl
@[simp] theorem State.modProc_doms : (s.modProc l f).doms = s.doms := rfl
@[simp] theorem State.modProc_blocks : (s.modProc l f).blocks = s.blocks := rfl
@[simp] theorem State.modProc_repairs : (s.modProc l f).repairs = s.repairs := rfl
@[simp] theorem State.modProc_copyBusy : (s.modProc l f).copyBusy = s.copyBusy := rfl
@[simp] theorem State.modProc_copySrc : (s.modProc l f).copySrc = s.copySrc := rfl
@[simp] theorem State.modProc_ckPhase : (s.modProc l f).ckPhase = s.ckPhase := rfl
@[simp] theorem State.modProc_ckStart : (s.modProc l f).ckStart = s.ckStart := rfl
@[simp] theorem State.modProc_ckPoison : (s.modProc l f).ckPoison = s.ckPoison := rfl
@[simp] theorem State.modProc_dqs : (s.modProc l f).dqs = s.dqs := rfl
@[simp] theorem State.modProc_dqLast : (s.modProc l f).dqLast = s.dqLast := rfl
@[simp] theorem State.modProc_dispatches : (s.modProc l f).dispatches = s.dispatches := rfl
@[simp] theorem State.modProc_launches : (s.modProc l f).launches = s.launches := rfl
@[simp] theorem State.modProc_jobs : (s.modProc l f).jobs = s.jobs := rfl
@[simp] theorem State.modProc_place : (s.modProc l f).place = s.place := rfl
@[simp] theorem State.modProc_imago : (s.modProc l f).imago = s.imago := rfl
@[simp] theorem State.modProc_rows : (s.modProc l f).rows = s.rows := rfl
@[simp] theorem State.modProc_withheld : (s.modProc l f).withheld = s.withheld := rfl
@[simp] theorem State.modProc_chrys : (s.modProc l f).chrys = s.chrys := rfl
@[simp] theorem State.modProc_stopped : (s.modProc l f).stopped = s.stopped := rfl
@[simp] theorem State.modProc_links : (s.modProc l f).links = s.links := rfl
@[simp] theorem State.modProc_net : (s.modProc l f).net = s.net := rfl
@[simp] theorem State.modProc_outbox : (s.modProc l f).outbox = s.outbox := rfl
@[simp] theorem State.modProc_tlbis : (s.modProc l f).tlbis = s.tlbis := rfl
@[simp] theorem State.modProc_clk : (s.modProc l f).clk = s.clk := rfl
@[simp] theorem State.modProc_timers : (s.modProc l f).timers = s.timers := rfl
@[simp] theorem State.modProc_agenda : (s.modProc l f).agenda = s.agenda := rfl
@[simp] theorem State.modProc_turn : (s.modProc l f).turn = s.turn := rfl
@[simp] theorem State.modProc_nextId : (s.modProc l f).nextId = s.nextId := rfl
@[simp] theorem State.modProc_free : (s.modProc l f).free = s.free := rfl
@[simp] theorem State.modProc_cur : (s.modProc l f).cur = s.cur := rfl
@[simp] theorem State.modProc_bword : (s.modProc l f).bword = s.bword := rfl
@[simp] theorem State.modProc_opnd : (s.modProc l f).opnd = s.opnd := rfl
@[simp] theorem State.modProc_opw : (s.modProc l f).opw = s.opw := rfl
@[simp] theorem State.modProc_orm : (s.modProc l f).orm = s.orm := rfl
@[simp] theorem State.modProc_npc : (s.modProc l f).npc = s.npc := rfl
@[simp] theorem State.modProc_taken : (s.modProc l f).taken = s.taken := rfl
@[simp] theorem State.modProc_bst : (s.modProc l f).bst = s.bst := rfl
@[simp] theorem State.modProc_bpops : (s.modProc l f).bpops = s.bpops := rfl
@[simp] theorem State.modProc_useg : (s.modProc l f).useg = s.useg := rfl
@[simp] theorem State.modProc_leaving : (s.modProc l f).leaving = s.leaving := rfl
@[simp] theorem State.modProc_alone : (s.modProc l f).alone = s.alone := rfl
@[simp] theorem State.modProc_osat : (s.modProc l f).osat = s.osat := rfl

@[simp] theorem State.modSlot_cores : (s.modSlot w g).cores = s.cores := rfl
@[simp] theorem State.modSlot_mem : (s.modSlot w g).mem = s.mem := rfl
@[simp] theorem State.modSlot_empty : (s.modSlot w g).empty = s.empty := rfl
@[simp] theorem State.modSlot_badWords : (s.modSlot w g).badWords = s.badWords := rfl
@[simp] theorem State.modSlot_poison : (s.modSlot w g).poison = s.poison := rfl
@[simp] theorem State.modSlot_errs : (s.modSlot w g).errs = s.errs := rfl
@[simp] theorem State.modSlot_soft : (s.modSlot w g).soft = s.soft := rfl
@[simp] theorem State.modSlot_secs : (s.modSlot w g).secs = s.secs := rfl
@[simp] theorem State.modSlot_regs : (s.modSlot w g).regs = s.regs := rfl
@[simp] theorem State.modSlot_ports : (s.modSlot w g).ports = s.ports := rfl
@[simp] theorem State.modSlot_slices : (s.modSlot w g).slices = s.slices := rfl
@[simp] theorem State.modSlot_pools : (s.modSlot w g).pools = s.pools := rfl
@[simp] theorem State.modSlot_bwOld : (s.modSlot w g).bwOld = s.bwOld := rfl
@[simp] theorem State.modSlot_combine : (s.modSlot w g).combine = s.combine := rfl
@[simp] theorem State.modSlot_bases : (s.modSlot w g).bases = s.bases := rfl
@[simp] theorem State.modSlot_doms : (s.modSlot w g).doms = s.doms := rfl
@[simp] theorem State.modSlot_blocks : (s.modSlot w g).blocks = s.blocks := rfl
@[simp] theorem State.modSlot_repairs : (s.modSlot w g).repairs = s.repairs := rfl
@[simp] theorem State.modSlot_copyBusy : (s.modSlot w g).copyBusy = s.copyBusy := rfl
@[simp] theorem State.modSlot_copySrc : (s.modSlot w g).copySrc = s.copySrc := rfl
@[simp] theorem State.modSlot_ckPhase : (s.modSlot w g).ckPhase = s.ckPhase := rfl
@[simp] theorem State.modSlot_ckStart : (s.modSlot w g).ckStart = s.ckStart := rfl
@[simp] theorem State.modSlot_ckPoison : (s.modSlot w g).ckPoison = s.ckPoison := rfl
@[simp] theorem State.modSlot_dqs : (s.modSlot w g).dqs = s.dqs := rfl
@[simp] theorem State.modSlot_dqLast : (s.modSlot w g).dqLast = s.dqLast := rfl
@[simp] theorem State.modSlot_dispatches : (s.modSlot w g).dispatches = s.dispatches := rfl
@[simp] theorem State.modSlot_launches : (s.modSlot w g).launches = s.launches := rfl
@[simp] theorem State.modSlot_jobs : (s.modSlot w g).jobs = s.jobs := rfl
@[simp] theorem State.modSlot_place : (s.modSlot w g).place = s.place := rfl
@[simp] theorem State.modSlot_imago : (s.modSlot w g).imago = s.imago := rfl
@[simp] theorem State.modSlot_rows : (s.modSlot w g).rows = s.rows := rfl
@[simp] theorem State.modSlot_withheld : (s.modSlot w g).withheld = s.withheld := rfl
@[simp] theorem State.modSlot_chrys : (s.modSlot w g).chrys = s.chrys := rfl
@[simp] theorem State.modSlot_stopped : (s.modSlot w g).stopped = s.stopped := rfl
@[simp] theorem State.modSlot_links : (s.modSlot w g).links = s.links := rfl
@[simp] theorem State.modSlot_net : (s.modSlot w g).net = s.net := rfl
@[simp] theorem State.modSlot_outbox : (s.modSlot w g).outbox = s.outbox := rfl
@[simp] theorem State.modSlot_tlbis : (s.modSlot w g).tlbis = s.tlbis := rfl
@[simp] theorem State.modSlot_clk : (s.modSlot w g).clk = s.clk := rfl
@[simp] theorem State.modSlot_timers : (s.modSlot w g).timers = s.timers := rfl
@[simp] theorem State.modSlot_agenda : (s.modSlot w g).agenda = s.agenda := rfl
@[simp] theorem State.modSlot_turn : (s.modSlot w g).turn = s.turn := rfl
@[simp] theorem State.modSlot_nextId : (s.modSlot w g).nextId = s.nextId := rfl
@[simp] theorem State.modSlot_free : (s.modSlot w g).free = s.free := rfl
@[simp] theorem State.modSlot_cur : (s.modSlot w g).cur = s.cur := rfl
@[simp] theorem State.modSlot_bword : (s.modSlot w g).bword = s.bword := rfl
@[simp] theorem State.modSlot_opnd : (s.modSlot w g).opnd = s.opnd := rfl
@[simp] theorem State.modSlot_opw : (s.modSlot w g).opw = s.opw := rfl
@[simp] theorem State.modSlot_orm : (s.modSlot w g).orm = s.orm := rfl
@[simp] theorem State.modSlot_npc : (s.modSlot w g).npc = s.npc := rfl
@[simp] theorem State.modSlot_taken : (s.modSlot w g).taken = s.taken := rfl
@[simp] theorem State.modSlot_bst : (s.modSlot w g).bst = s.bst := rfl
@[simp] theorem State.modSlot_bpops : (s.modSlot w g).bpops = s.bpops := rfl
@[simp] theorem State.modSlot_useg : (s.modSlot w g).useg = s.useg := rfl
@[simp] theorem State.modSlot_leaving : (s.modSlot w g).leaving = s.leaving := rfl
@[simp] theorem State.modSlot_alone : (s.modSlot w g).alone = s.alone := rfl
@[simp] theorem State.modSlot_osat : (s.modSlot w g).osat = s.osat := rfl

@[simp] theorem State.modMe_cores : (s.modMe g).cores = s.cores := rfl
@[simp] theorem State.modMe_mem : (s.modMe g).mem = s.mem := rfl
@[simp] theorem State.modMe_empty : (s.modMe g).empty = s.empty := rfl
@[simp] theorem State.modMe_badWords : (s.modMe g).badWords = s.badWords := rfl
@[simp] theorem State.modMe_poison : (s.modMe g).poison = s.poison := rfl
@[simp] theorem State.modMe_errs : (s.modMe g).errs = s.errs := rfl
@[simp] theorem State.modMe_soft : (s.modMe g).soft = s.soft := rfl
@[simp] theorem State.modMe_secs : (s.modMe g).secs = s.secs := rfl
@[simp] theorem State.modMe_regs : (s.modMe g).regs = s.regs := rfl
@[simp] theorem State.modMe_ports : (s.modMe g).ports = s.ports := rfl
@[simp] theorem State.modMe_slices : (s.modMe g).slices = s.slices := rfl
@[simp] theorem State.modMe_pools : (s.modMe g).pools = s.pools := rfl
@[simp] theorem State.modMe_bwOld : (s.modMe g).bwOld = s.bwOld := rfl
@[simp] theorem State.modMe_combine : (s.modMe g).combine = s.combine := rfl
@[simp] theorem State.modMe_bases : (s.modMe g).bases = s.bases := rfl
@[simp] theorem State.modMe_doms : (s.modMe g).doms = s.doms := rfl
@[simp] theorem State.modMe_blocks : (s.modMe g).blocks = s.blocks := rfl
@[simp] theorem State.modMe_repairs : (s.modMe g).repairs = s.repairs := rfl
@[simp] theorem State.modMe_copyBusy : (s.modMe g).copyBusy = s.copyBusy := rfl
@[simp] theorem State.modMe_copySrc : (s.modMe g).copySrc = s.copySrc := rfl
@[simp] theorem State.modMe_ckPhase : (s.modMe g).ckPhase = s.ckPhase := rfl
@[simp] theorem State.modMe_ckStart : (s.modMe g).ckStart = s.ckStart := rfl
@[simp] theorem State.modMe_ckPoison : (s.modMe g).ckPoison = s.ckPoison := rfl
@[simp] theorem State.modMe_dqs : (s.modMe g).dqs = s.dqs := rfl
@[simp] theorem State.modMe_dqLast : (s.modMe g).dqLast = s.dqLast := rfl
@[simp] theorem State.modMe_dispatches : (s.modMe g).dispatches = s.dispatches := rfl
@[simp] theorem State.modMe_launches : (s.modMe g).launches = s.launches := rfl
@[simp] theorem State.modMe_jobs : (s.modMe g).jobs = s.jobs := rfl
@[simp] theorem State.modMe_place : (s.modMe g).place = s.place := rfl
@[simp] theorem State.modMe_imago : (s.modMe g).imago = s.imago := rfl
@[simp] theorem State.modMe_rows : (s.modMe g).rows = s.rows := rfl
@[simp] theorem State.modMe_withheld : (s.modMe g).withheld = s.withheld := rfl
@[simp] theorem State.modMe_chrys : (s.modMe g).chrys = s.chrys := rfl
@[simp] theorem State.modMe_stopped : (s.modMe g).stopped = s.stopped := rfl
@[simp] theorem State.modMe_links : (s.modMe g).links = s.links := rfl
@[simp] theorem State.modMe_net : (s.modMe g).net = s.net := rfl
@[simp] theorem State.modMe_outbox : (s.modMe g).outbox = s.outbox := rfl
@[simp] theorem State.modMe_tlbis : (s.modMe g).tlbis = s.tlbis := rfl
@[simp] theorem State.modMe_clk : (s.modMe g).clk = s.clk := rfl
@[simp] theorem State.modMe_timers : (s.modMe g).timers = s.timers := rfl
@[simp] theorem State.modMe_agenda : (s.modMe g).agenda = s.agenda := rfl
@[simp] theorem State.modMe_turn : (s.modMe g).turn = s.turn := rfl
@[simp] theorem State.modMe_nextId : (s.modMe g).nextId = s.nextId := rfl
@[simp] theorem State.modMe_free : (s.modMe g).free = s.free := rfl
@[simp] theorem State.modMe_cur : (s.modMe g).cur = s.cur := rfl
@[simp] theorem State.modMe_bword : (s.modMe g).bword = s.bword := rfl
@[simp] theorem State.modMe_opnd : (s.modMe g).opnd = s.opnd := rfl
@[simp] theorem State.modMe_opw : (s.modMe g).opw = s.opw := rfl
@[simp] theorem State.modMe_orm : (s.modMe g).orm = s.orm := rfl
@[simp] theorem State.modMe_npc : (s.modMe g).npc = s.npc := rfl
@[simp] theorem State.modMe_taken : (s.modMe g).taken = s.taken := rfl
@[simp] theorem State.modMe_bst : (s.modMe g).bst = s.bst := rfl
@[simp] theorem State.modMe_bpops : (s.modMe g).bpops = s.bpops := rfl
@[simp] theorem State.modMe_useg : (s.modMe g).useg = s.useg := rfl
@[simp] theorem State.modMe_leaving : (s.modMe g).leaving = s.leaving := rfl
@[simp] theorem State.modMe_alone : (s.modMe g).alone = s.alone := rfl
@[simp] theorem State.modMe_osat : (s.modMe g).osat = s.osat := rfl

@[simp] theorem State.modCore_procs : (s.modCore c h).procs = s.procs := rfl
@[simp] theorem State.modCore_mem : (s.modCore c h).mem = s.mem := rfl
@[simp] theorem State.modCore_empty : (s.modCore c h).empty = s.empty := rfl
@[simp] theorem State.modCore_badWords : (s.modCore c h).badWords = s.badWords := rfl
@[simp] theorem State.modCore_poison : (s.modCore c h).poison = s.poison := rfl
@[simp] theorem State.modCore_errs : (s.modCore c h).errs = s.errs := rfl
@[simp] theorem State.modCore_soft : (s.modCore c h).soft = s.soft := rfl
@[simp] theorem State.modCore_secs : (s.modCore c h).secs = s.secs := rfl
@[simp] theorem State.modCore_regs : (s.modCore c h).regs = s.regs := rfl
@[simp] theorem State.modCore_ports : (s.modCore c h).ports = s.ports := rfl
@[simp] theorem State.modCore_slices : (s.modCore c h).slices = s.slices := rfl
@[simp] theorem State.modCore_pools : (s.modCore c h).pools = s.pools := rfl
@[simp] theorem State.modCore_bwOld : (s.modCore c h).bwOld = s.bwOld := rfl
@[simp] theorem State.modCore_combine : (s.modCore c h).combine = s.combine := rfl
@[simp] theorem State.modCore_bases : (s.modCore c h).bases = s.bases := rfl
@[simp] theorem State.modCore_doms : (s.modCore c h).doms = s.doms := rfl
@[simp] theorem State.modCore_blocks : (s.modCore c h).blocks = s.blocks := rfl
@[simp] theorem State.modCore_repairs : (s.modCore c h).repairs = s.repairs := rfl
@[simp] theorem State.modCore_copyBusy : (s.modCore c h).copyBusy = s.copyBusy := rfl
@[simp] theorem State.modCore_copySrc : (s.modCore c h).copySrc = s.copySrc := rfl
@[simp] theorem State.modCore_ckPhase : (s.modCore c h).ckPhase = s.ckPhase := rfl
@[simp] theorem State.modCore_ckStart : (s.modCore c h).ckStart = s.ckStart := rfl
@[simp] theorem State.modCore_ckPoison : (s.modCore c h).ckPoison = s.ckPoison := rfl
@[simp] theorem State.modCore_dqs : (s.modCore c h).dqs = s.dqs := rfl
@[simp] theorem State.modCore_dqLast : (s.modCore c h).dqLast = s.dqLast := rfl
@[simp] theorem State.modCore_dispatches : (s.modCore c h).dispatches = s.dispatches := rfl
@[simp] theorem State.modCore_launches : (s.modCore c h).launches = s.launches := rfl
@[simp] theorem State.modCore_jobs : (s.modCore c h).jobs = s.jobs := rfl
@[simp] theorem State.modCore_place : (s.modCore c h).place = s.place := rfl
@[simp] theorem State.modCore_imago : (s.modCore c h).imago = s.imago := rfl
@[simp] theorem State.modCore_rows : (s.modCore c h).rows = s.rows := rfl
@[simp] theorem State.modCore_withheld : (s.modCore c h).withheld = s.withheld := rfl
@[simp] theorem State.modCore_chrys : (s.modCore c h).chrys = s.chrys := rfl
@[simp] theorem State.modCore_stopped : (s.modCore c h).stopped = s.stopped := rfl
@[simp] theorem State.modCore_links : (s.modCore c h).links = s.links := rfl
@[simp] theorem State.modCore_net : (s.modCore c h).net = s.net := rfl
@[simp] theorem State.modCore_outbox : (s.modCore c h).outbox = s.outbox := rfl
@[simp] theorem State.modCore_tlbis : (s.modCore c h).tlbis = s.tlbis := rfl
@[simp] theorem State.modCore_clk : (s.modCore c h).clk = s.clk := rfl
@[simp] theorem State.modCore_timers : (s.modCore c h).timers = s.timers := rfl
@[simp] theorem State.modCore_agenda : (s.modCore c h).agenda = s.agenda := rfl
@[simp] theorem State.modCore_turn : (s.modCore c h).turn = s.turn := rfl
@[simp] theorem State.modCore_nextId : (s.modCore c h).nextId = s.nextId := rfl
@[simp] theorem State.modCore_free : (s.modCore c h).free = s.free := rfl
@[simp] theorem State.modCore_cur : (s.modCore c h).cur = s.cur := rfl
@[simp] theorem State.modCore_bword : (s.modCore c h).bword = s.bword := rfl
@[simp] theorem State.modCore_opnd : (s.modCore c h).opnd = s.opnd := rfl
@[simp] theorem State.modCore_opw : (s.modCore c h).opw = s.opw := rfl
@[simp] theorem State.modCore_orm : (s.modCore c h).orm = s.orm := rfl
@[simp] theorem State.modCore_npc : (s.modCore c h).npc = s.npc := rfl
@[simp] theorem State.modCore_taken : (s.modCore c h).taken = s.taken := rfl
@[simp] theorem State.modCore_bst : (s.modCore c h).bst = s.bst := rfl
@[simp] theorem State.modCore_bpops : (s.modCore c h).bpops = s.bpops := rfl
@[simp] theorem State.modCore_useg : (s.modCore c h).useg = s.useg := rfl
@[simp] theorem State.modCore_leaving : (s.modCore c h).leaving = s.leaving := rfl
@[simp] theorem State.modCore_alone : (s.modCore c h).alone = s.alone := rfl
@[simp] theorem State.modCore_osat : (s.modCore c h).osat = s.osat := rfl

@[simp] theorem State.modMyCore_procs : (s.modMyCore h).procs = s.procs := rfl
@[simp] theorem State.modMyCore_mem : (s.modMyCore h).mem = s.mem := rfl
@[simp] theorem State.modMyCore_empty : (s.modMyCore h).empty = s.empty := rfl
@[simp] theorem State.modMyCore_badWords : (s.modMyCore h).badWords = s.badWords := rfl
@[simp] theorem State.modMyCore_poison : (s.modMyCore h).poison = s.poison := rfl
@[simp] theorem State.modMyCore_errs : (s.modMyCore h).errs = s.errs := rfl
@[simp] theorem State.modMyCore_soft : (s.modMyCore h).soft = s.soft := rfl
@[simp] theorem State.modMyCore_secs : (s.modMyCore h).secs = s.secs := rfl
@[simp] theorem State.modMyCore_regs : (s.modMyCore h).regs = s.regs := rfl
@[simp] theorem State.modMyCore_ports : (s.modMyCore h).ports = s.ports := rfl
@[simp] theorem State.modMyCore_slices : (s.modMyCore h).slices = s.slices := rfl
@[simp] theorem State.modMyCore_pools : (s.modMyCore h).pools = s.pools := rfl
@[simp] theorem State.modMyCore_bwOld : (s.modMyCore h).bwOld = s.bwOld := rfl
@[simp] theorem State.modMyCore_combine : (s.modMyCore h).combine = s.combine := rfl
@[simp] theorem State.modMyCore_bases : (s.modMyCore h).bases = s.bases := rfl
@[simp] theorem State.modMyCore_doms : (s.modMyCore h).doms = s.doms := rfl
@[simp] theorem State.modMyCore_blocks : (s.modMyCore h).blocks = s.blocks := rfl
@[simp] theorem State.modMyCore_repairs : (s.modMyCore h).repairs = s.repairs := rfl
@[simp] theorem State.modMyCore_copyBusy : (s.modMyCore h).copyBusy = s.copyBusy := rfl
@[simp] theorem State.modMyCore_copySrc : (s.modMyCore h).copySrc = s.copySrc := rfl
@[simp] theorem State.modMyCore_ckPhase : (s.modMyCore h).ckPhase = s.ckPhase := rfl
@[simp] theorem State.modMyCore_ckStart : (s.modMyCore h).ckStart = s.ckStart := rfl
@[simp] theorem State.modMyCore_ckPoison : (s.modMyCore h).ckPoison = s.ckPoison := rfl
@[simp] theorem State.modMyCore_dqs : (s.modMyCore h).dqs = s.dqs := rfl
@[simp] theorem State.modMyCore_dqLast : (s.modMyCore h).dqLast = s.dqLast := rfl
@[simp] theorem State.modMyCore_dispatches : (s.modMyCore h).dispatches = s.dispatches := rfl
@[simp] theorem State.modMyCore_launches : (s.modMyCore h).launches = s.launches := rfl
@[simp] theorem State.modMyCore_jobs : (s.modMyCore h).jobs = s.jobs := rfl
@[simp] theorem State.modMyCore_place : (s.modMyCore h).place = s.place := rfl
@[simp] theorem State.modMyCore_imago : (s.modMyCore h).imago = s.imago := rfl
@[simp] theorem State.modMyCore_rows : (s.modMyCore h).rows = s.rows := rfl
@[simp] theorem State.modMyCore_withheld : (s.modMyCore h).withheld = s.withheld := rfl
@[simp] theorem State.modMyCore_chrys : (s.modMyCore h).chrys = s.chrys := rfl
@[simp] theorem State.modMyCore_stopped : (s.modMyCore h).stopped = s.stopped := rfl
@[simp] theorem State.modMyCore_links : (s.modMyCore h).links = s.links := rfl
@[simp] theorem State.modMyCore_net : (s.modMyCore h).net = s.net := rfl
@[simp] theorem State.modMyCore_outbox : (s.modMyCore h).outbox = s.outbox := rfl
@[simp] theorem State.modMyCore_tlbis : (s.modMyCore h).tlbis = s.tlbis := rfl
@[simp] theorem State.modMyCore_clk : (s.modMyCore h).clk = s.clk := rfl
@[simp] theorem State.modMyCore_timers : (s.modMyCore h).timers = s.timers := rfl
@[simp] theorem State.modMyCore_agenda : (s.modMyCore h).agenda = s.agenda := rfl
@[simp] theorem State.modMyCore_turn : (s.modMyCore h).turn = s.turn := rfl
@[simp] theorem State.modMyCore_nextId : (s.modMyCore h).nextId = s.nextId := rfl
@[simp] theorem State.modMyCore_free : (s.modMyCore h).free = s.free := rfl
@[simp] theorem State.modMyCore_cur : (s.modMyCore h).cur = s.cur := rfl
@[simp] theorem State.modMyCore_bword : (s.modMyCore h).bword = s.bword := rfl
@[simp] theorem State.modMyCore_opnd : (s.modMyCore h).opnd = s.opnd := rfl
@[simp] theorem State.modMyCore_opw : (s.modMyCore h).opw = s.opw := rfl
@[simp] theorem State.modMyCore_orm : (s.modMyCore h).orm = s.orm := rfl
@[simp] theorem State.modMyCore_npc : (s.modMyCore h).npc = s.npc := rfl
@[simp] theorem State.modMyCore_taken : (s.modMyCore h).taken = s.taken := rfl
@[simp] theorem State.modMyCore_bst : (s.modMyCore h).bst = s.bst := rfl
@[simp] theorem State.modMyCore_bpops : (s.modMyCore h).bpops = s.bpops := rfl
@[simp] theorem State.modMyCore_useg : (s.modMyCore h).useg = s.useg := rfl
@[simp] theorem State.modMyCore_leaving : (s.modMyCore h).leaving = s.leaving := rfl
@[simp] theorem State.modMyCore_alone : (s.modMyCore h).alone = s.alone := rfl
@[simp] theorem State.modMyCore_osat : (s.modMyCore h).osat = s.osat := rfl

@[simp] theorem State.modDom_procs : (s.modDom d k).procs = s.procs := rfl
@[simp] theorem State.modDom_cores : (s.modDom d k).cores = s.cores := rfl
@[simp] theorem State.modDom_mem : (s.modDom d k).mem = s.mem := rfl
@[simp] theorem State.modDom_empty : (s.modDom d k).empty = s.empty := rfl
@[simp] theorem State.modDom_badWords : (s.modDom d k).badWords = s.badWords := rfl
@[simp] theorem State.modDom_poison : (s.modDom d k).poison = s.poison := rfl
@[simp] theorem State.modDom_errs : (s.modDom d k).errs = s.errs := rfl
@[simp] theorem State.modDom_soft : (s.modDom d k).soft = s.soft := rfl
@[simp] theorem State.modDom_secs : (s.modDom d k).secs = s.secs := rfl
@[simp] theorem State.modDom_regs : (s.modDom d k).regs = s.regs := rfl
@[simp] theorem State.modDom_ports : (s.modDom d k).ports = s.ports := rfl
@[simp] theorem State.modDom_slices : (s.modDom d k).slices = s.slices := rfl
@[simp] theorem State.modDom_pools : (s.modDom d k).pools = s.pools := rfl
@[simp] theorem State.modDom_bwOld : (s.modDom d k).bwOld = s.bwOld := rfl
@[simp] theorem State.modDom_combine : (s.modDom d k).combine = s.combine := rfl
@[simp] theorem State.modDom_bases : (s.modDom d k).bases = s.bases := rfl
@[simp] theorem State.modDom_blocks : (s.modDom d k).blocks = s.blocks := rfl
@[simp] theorem State.modDom_repairs : (s.modDom d k).repairs = s.repairs := rfl
@[simp] theorem State.modDom_copyBusy : (s.modDom d k).copyBusy = s.copyBusy := rfl
@[simp] theorem State.modDom_copySrc : (s.modDom d k).copySrc = s.copySrc := rfl
@[simp] theorem State.modDom_ckPhase : (s.modDom d k).ckPhase = s.ckPhase := rfl
@[simp] theorem State.modDom_ckStart : (s.modDom d k).ckStart = s.ckStart := rfl
@[simp] theorem State.modDom_ckPoison : (s.modDom d k).ckPoison = s.ckPoison := rfl
@[simp] theorem State.modDom_dqs : (s.modDom d k).dqs = s.dqs := rfl
@[simp] theorem State.modDom_dqLast : (s.modDom d k).dqLast = s.dqLast := rfl
@[simp] theorem State.modDom_dispatches : (s.modDom d k).dispatches = s.dispatches := rfl
@[simp] theorem State.modDom_launches : (s.modDom d k).launches = s.launches := rfl
@[simp] theorem State.modDom_jobs : (s.modDom d k).jobs = s.jobs := rfl
@[simp] theorem State.modDom_place : (s.modDom d k).place = s.place := rfl
@[simp] theorem State.modDom_imago : (s.modDom d k).imago = s.imago := rfl
@[simp] theorem State.modDom_rows : (s.modDom d k).rows = s.rows := rfl
@[simp] theorem State.modDom_withheld : (s.modDom d k).withheld = s.withheld := rfl
@[simp] theorem State.modDom_chrys : (s.modDom d k).chrys = s.chrys := rfl
@[simp] theorem State.modDom_stopped : (s.modDom d k).stopped = s.stopped := rfl
@[simp] theorem State.modDom_links : (s.modDom d k).links = s.links := rfl
@[simp] theorem State.modDom_net : (s.modDom d k).net = s.net := rfl
@[simp] theorem State.modDom_outbox : (s.modDom d k).outbox = s.outbox := rfl
@[simp] theorem State.modDom_tlbis : (s.modDom d k).tlbis = s.tlbis := rfl
@[simp] theorem State.modDom_clk : (s.modDom d k).clk = s.clk := rfl
@[simp] theorem State.modDom_timers : (s.modDom d k).timers = s.timers := rfl
@[simp] theorem State.modDom_agenda : (s.modDom d k).agenda = s.agenda := rfl
@[simp] theorem State.modDom_turn : (s.modDom d k).turn = s.turn := rfl
@[simp] theorem State.modDom_nextId : (s.modDom d k).nextId = s.nextId := rfl
@[simp] theorem State.modDom_free : (s.modDom d k).free = s.free := rfl
@[simp] theorem State.modDom_cur : (s.modDom d k).cur = s.cur := rfl
@[simp] theorem State.modDom_bword : (s.modDom d k).bword = s.bword := rfl
@[simp] theorem State.modDom_opnd : (s.modDom d k).opnd = s.opnd := rfl
@[simp] theorem State.modDom_opw : (s.modDom d k).opw = s.opw := rfl
@[simp] theorem State.modDom_orm : (s.modDom d k).orm = s.orm := rfl
@[simp] theorem State.modDom_npc : (s.modDom d k).npc = s.npc := rfl
@[simp] theorem State.modDom_taken : (s.modDom d k).taken = s.taken := rfl
@[simp] theorem State.modDom_bst : (s.modDom d k).bst = s.bst := rfl
@[simp] theorem State.modDom_bpops : (s.modDom d k).bpops = s.bpops := rfl
@[simp] theorem State.modDom_useg : (s.modDom d k).useg = s.useg := rfl
@[simp] theorem State.modDom_leaving : (s.modDom d k).leaving = s.leaving := rfl
@[simp] theorem State.modDom_alone : (s.modDom d k).alone = s.alone := rfl
@[simp] theorem State.modDom_osat : (s.modDom d k).osat = s.osat := rfl

@[simp] theorem State.post_procs : (s.post e).procs = s.procs := rfl
@[simp] theorem State.post_cores : (s.post e).cores = s.cores := rfl
@[simp] theorem State.post_mem : (s.post e).mem = s.mem := rfl
@[simp] theorem State.post_empty : (s.post e).empty = s.empty := rfl
@[simp] theorem State.post_badWords : (s.post e).badWords = s.badWords := rfl
@[simp] theorem State.post_poison : (s.post e).poison = s.poison := rfl
@[simp] theorem State.post_errs : (s.post e).errs = s.errs := rfl
@[simp] theorem State.post_soft : (s.post e).soft = s.soft := rfl
@[simp] theorem State.post_secs : (s.post e).secs = s.secs := rfl
@[simp] theorem State.post_regs : (s.post e).regs = s.regs := rfl
@[simp] theorem State.post_ports : (s.post e).ports = s.ports := rfl
@[simp] theorem State.post_slices : (s.post e).slices = s.slices := rfl
@[simp] theorem State.post_pools : (s.post e).pools = s.pools := rfl
@[simp] theorem State.post_bwOld : (s.post e).bwOld = s.bwOld := rfl
@[simp] theorem State.post_combine : (s.post e).combine = s.combine := rfl
@[simp] theorem State.post_bases : (s.post e).bases = s.bases := rfl
@[simp] theorem State.post_doms : (s.post e).doms = s.doms := rfl
@[simp] theorem State.post_blocks : (s.post e).blocks = s.blocks := rfl
@[simp] theorem State.post_repairs : (s.post e).repairs = s.repairs := rfl
@[simp] theorem State.post_copyBusy : (s.post e).copyBusy = s.copyBusy := rfl
@[simp] theorem State.post_copySrc : (s.post e).copySrc = s.copySrc := rfl
@[simp] theorem State.post_ckPhase : (s.post e).ckPhase = s.ckPhase := rfl
@[simp] theorem State.post_ckStart : (s.post e).ckStart = s.ckStart := rfl
@[simp] theorem State.post_ckPoison : (s.post e).ckPoison = s.ckPoison := rfl
@[simp] theorem State.post_dqs : (s.post e).dqs = s.dqs := rfl
@[simp] theorem State.post_dqLast : (s.post e).dqLast = s.dqLast := rfl
@[simp] theorem State.post_dispatches : (s.post e).dispatches = s.dispatches := rfl
@[simp] theorem State.post_launches : (s.post e).launches = s.launches := rfl
@[simp] theorem State.post_jobs : (s.post e).jobs = s.jobs := rfl
@[simp] theorem State.post_place : (s.post e).place = s.place := rfl
@[simp] theorem State.post_imago : (s.post e).imago = s.imago := rfl
@[simp] theorem State.post_rows : (s.post e).rows = s.rows := rfl
@[simp] theorem State.post_withheld : (s.post e).withheld = s.withheld := rfl
@[simp] theorem State.post_chrys : (s.post e).chrys = s.chrys := rfl
@[simp] theorem State.post_stopped : (s.post e).stopped = s.stopped := rfl
@[simp] theorem State.post_links : (s.post e).links = s.links := rfl
@[simp] theorem State.post_net : (s.post e).net = s.net := rfl
@[simp] theorem State.post_outbox : (s.post e).outbox = s.outbox := rfl
@[simp] theorem State.post_tlbis : (s.post e).tlbis = s.tlbis := rfl
@[simp] theorem State.post_clk : (s.post e).clk = s.clk := rfl
@[simp] theorem State.post_timers : (s.post e).timers = s.timers := rfl
@[simp] theorem State.post_turn : (s.post e).turn = s.turn := rfl
@[simp] theorem State.post_nextId : (s.post e).nextId = s.nextId := rfl
@[simp] theorem State.post_free : (s.post e).free = s.free := rfl
@[simp] theorem State.post_cur : (s.post e).cur = s.cur := rfl
@[simp] theorem State.post_bword : (s.post e).bword = s.bword := rfl
@[simp] theorem State.post_opnd : (s.post e).opnd = s.opnd := rfl
@[simp] theorem State.post_opw : (s.post e).opw = s.opw := rfl
@[simp] theorem State.post_orm : (s.post e).orm = s.orm := rfl
@[simp] theorem State.post_npc : (s.post e).npc = s.npc := rfl
@[simp] theorem State.post_taken : (s.post e).taken = s.taken := rfl
@[simp] theorem State.post_bst : (s.post e).bst = s.bst := rfl
@[simp] theorem State.post_bpops : (s.post e).bpops = s.bpops := rfl
@[simp] theorem State.post_useg : (s.post e).useg = s.useg := rfl
@[simp] theorem State.post_leaving : (s.post e).leaving = s.leaving := rfl
@[simp] theorem State.post_alone : (s.post e).alone = s.alone := rfl
@[simp] theorem State.post_osat : (s.post e).osat = s.osat := rfl

@[simp] theorem State.postAll_procs : (s.postAll es).procs = s.procs := rfl
@[simp] theorem State.postAll_cores : (s.postAll es).cores = s.cores := rfl
@[simp] theorem State.postAll_mem : (s.postAll es).mem = s.mem := rfl
@[simp] theorem State.postAll_empty : (s.postAll es).empty = s.empty := rfl
@[simp] theorem State.postAll_badWords : (s.postAll es).badWords = s.badWords := rfl
@[simp] theorem State.postAll_poison : (s.postAll es).poison = s.poison := rfl
@[simp] theorem State.postAll_errs : (s.postAll es).errs = s.errs := rfl
@[simp] theorem State.postAll_soft : (s.postAll es).soft = s.soft := rfl
@[simp] theorem State.postAll_secs : (s.postAll es).secs = s.secs := rfl
@[simp] theorem State.postAll_regs : (s.postAll es).regs = s.regs := rfl
@[simp] theorem State.postAll_ports : (s.postAll es).ports = s.ports := rfl
@[simp] theorem State.postAll_slices : (s.postAll es).slices = s.slices := rfl
@[simp] theorem State.postAll_pools : (s.postAll es).pools = s.pools := rfl
@[simp] theorem State.postAll_bwOld : (s.postAll es).bwOld = s.bwOld := rfl
@[simp] theorem State.postAll_combine : (s.postAll es).combine = s.combine := rfl
@[simp] theorem State.postAll_bases : (s.postAll es).bases = s.bases := rfl
@[simp] theorem State.postAll_doms : (s.postAll es).doms = s.doms := rfl
@[simp] theorem State.postAll_blocks : (s.postAll es).blocks = s.blocks := rfl
@[simp] theorem State.postAll_repairs : (s.postAll es).repairs = s.repairs := rfl
@[simp] theorem State.postAll_copyBusy : (s.postAll es).copyBusy = s.copyBusy := rfl
@[simp] theorem State.postAll_copySrc : (s.postAll es).copySrc = s.copySrc := rfl
@[simp] theorem State.postAll_ckPhase : (s.postAll es).ckPhase = s.ckPhase := rfl
@[simp] theorem State.postAll_ckStart : (s.postAll es).ckStart = s.ckStart := rfl
@[simp] theorem State.postAll_ckPoison : (s.postAll es).ckPoison = s.ckPoison := rfl
@[simp] theorem State.postAll_dqs : (s.postAll es).dqs = s.dqs := rfl
@[simp] theorem State.postAll_dqLast : (s.postAll es).dqLast = s.dqLast := rfl
@[simp] theorem State.postAll_dispatches : (s.postAll es).dispatches = s.dispatches := rfl
@[simp] theorem State.postAll_launches : (s.postAll es).launches = s.launches := rfl
@[simp] theorem State.postAll_jobs : (s.postAll es).jobs = s.jobs := rfl
@[simp] theorem State.postAll_place : (s.postAll es).place = s.place := rfl
@[simp] theorem State.postAll_imago : (s.postAll es).imago = s.imago := rfl
@[simp] theorem State.postAll_rows : (s.postAll es).rows = s.rows := rfl
@[simp] theorem State.postAll_withheld : (s.postAll es).withheld = s.withheld := rfl
@[simp] theorem State.postAll_chrys : (s.postAll es).chrys = s.chrys := rfl
@[simp] theorem State.postAll_stopped : (s.postAll es).stopped = s.stopped := rfl
@[simp] theorem State.postAll_links : (s.postAll es).links = s.links := rfl
@[simp] theorem State.postAll_net : (s.postAll es).net = s.net := rfl
@[simp] theorem State.postAll_outbox : (s.postAll es).outbox = s.outbox := rfl
@[simp] theorem State.postAll_tlbis : (s.postAll es).tlbis = s.tlbis := rfl
@[simp] theorem State.postAll_clk : (s.postAll es).clk = s.clk := rfl
@[simp] theorem State.postAll_timers : (s.postAll es).timers = s.timers := rfl
@[simp] theorem State.postAll_turn : (s.postAll es).turn = s.turn := rfl
@[simp] theorem State.postAll_nextId : (s.postAll es).nextId = s.nextId := rfl
@[simp] theorem State.postAll_free : (s.postAll es).free = s.free := rfl
@[simp] theorem State.postAll_cur : (s.postAll es).cur = s.cur := rfl
@[simp] theorem State.postAll_bword : (s.postAll es).bword = s.bword := rfl
@[simp] theorem State.postAll_opnd : (s.postAll es).opnd = s.opnd := rfl
@[simp] theorem State.postAll_opw : (s.postAll es).opw = s.opw := rfl
@[simp] theorem State.postAll_orm : (s.postAll es).orm = s.orm := rfl
@[simp] theorem State.postAll_npc : (s.postAll es).npc = s.npc := rfl
@[simp] theorem State.postAll_taken : (s.postAll es).taken = s.taken := rfl
@[simp] theorem State.postAll_bst : (s.postAll es).bst = s.bst := rfl
@[simp] theorem State.postAll_bpops : (s.postAll es).bpops = s.bpops := rfl
@[simp] theorem State.postAll_useg : (s.postAll es).useg = s.useg := rfl
@[simp] theorem State.postAll_leaving : (s.postAll es).leaving = s.leaving := rfl
@[simp] theorem State.postAll_alone : (s.postAll es).alone = s.alone := rfl
@[simp] theorem State.postAll_osat : (s.postAll es).osat = s.osat := rfl

@[simp] theorem State.after_procs : (s.after clk n e).procs = s.procs := rfl
@[simp] theorem State.after_cores : (s.after clk n e).cores = s.cores := rfl
@[simp] theorem State.after_mem : (s.after clk n e).mem = s.mem := rfl
@[simp] theorem State.after_empty : (s.after clk n e).empty = s.empty := rfl
@[simp] theorem State.after_badWords : (s.after clk n e).badWords = s.badWords := rfl
@[simp] theorem State.after_poison : (s.after clk n e).poison = s.poison := rfl
@[simp] theorem State.after_errs : (s.after clk n e).errs = s.errs := rfl
@[simp] theorem State.after_soft : (s.after clk n e).soft = s.soft := rfl
@[simp] theorem State.after_secs : (s.after clk n e).secs = s.secs := rfl
@[simp] theorem State.after_regs : (s.after clk n e).regs = s.regs := rfl
@[simp] theorem State.after_ports : (s.after clk n e).ports = s.ports := rfl
@[simp] theorem State.after_slices : (s.after clk n e).slices = s.slices := rfl
@[simp] theorem State.after_pools : (s.after clk n e).pools = s.pools := rfl
@[simp] theorem State.after_bwOld : (s.after clk n e).bwOld = s.bwOld := rfl
@[simp] theorem State.after_combine : (s.after clk n e).combine = s.combine := rfl
@[simp] theorem State.after_bases : (s.after clk n e).bases = s.bases := rfl
@[simp] theorem State.after_doms : (s.after clk n e).doms = s.doms := rfl
@[simp] theorem State.after_blocks : (s.after clk n e).blocks = s.blocks := rfl
@[simp] theorem State.after_repairs : (s.after clk n e).repairs = s.repairs := rfl
@[simp] theorem State.after_copyBusy : (s.after clk n e).copyBusy = s.copyBusy := rfl
@[simp] theorem State.after_copySrc : (s.after clk n e).copySrc = s.copySrc := rfl
@[simp] theorem State.after_ckPhase : (s.after clk n e).ckPhase = s.ckPhase := rfl
@[simp] theorem State.after_ckStart : (s.after clk n e).ckStart = s.ckStart := rfl
@[simp] theorem State.after_ckPoison : (s.after clk n e).ckPoison = s.ckPoison := rfl
@[simp] theorem State.after_dqs : (s.after clk n e).dqs = s.dqs := rfl
@[simp] theorem State.after_dqLast : (s.after clk n e).dqLast = s.dqLast := rfl
@[simp] theorem State.after_dispatches : (s.after clk n e).dispatches = s.dispatches := rfl
@[simp] theorem State.after_launches : (s.after clk n e).launches = s.launches := rfl
@[simp] theorem State.after_jobs : (s.after clk n e).jobs = s.jobs := rfl
@[simp] theorem State.after_place : (s.after clk n e).place = s.place := rfl
@[simp] theorem State.after_imago : (s.after clk n e).imago = s.imago := rfl
@[simp] theorem State.after_rows : (s.after clk n e).rows = s.rows := rfl
@[simp] theorem State.after_withheld : (s.after clk n e).withheld = s.withheld := rfl
@[simp] theorem State.after_chrys : (s.after clk n e).chrys = s.chrys := rfl
@[simp] theorem State.after_stopped : (s.after clk n e).stopped = s.stopped := rfl
@[simp] theorem State.after_links : (s.after clk n e).links = s.links := rfl
@[simp] theorem State.after_net : (s.after clk n e).net = s.net := rfl
@[simp] theorem State.after_outbox : (s.after clk n e).outbox = s.outbox := rfl
@[simp] theorem State.after_tlbis : (s.after clk n e).tlbis = s.tlbis := rfl
@[simp] theorem State.after_clk : (s.after clk n e).clk = s.clk := rfl
@[simp] theorem State.after_agenda : (s.after clk n e).agenda = s.agenda := rfl
@[simp] theorem State.after_turn : (s.after clk n e).turn = s.turn := rfl
@[simp] theorem State.after_nextId : (s.after clk n e).nextId = s.nextId := rfl
@[simp] theorem State.after_free : (s.after clk n e).free = s.free := rfl
@[simp] theorem State.after_cur : (s.after clk n e).cur = s.cur := rfl
@[simp] theorem State.after_bword : (s.after clk n e).bword = s.bword := rfl
@[simp] theorem State.after_opnd : (s.after clk n e).opnd = s.opnd := rfl
@[simp] theorem State.after_opw : (s.after clk n e).opw = s.opw := rfl
@[simp] theorem State.after_orm : (s.after clk n e).orm = s.orm := rfl
@[simp] theorem State.after_npc : (s.after clk n e).npc = s.npc := rfl
@[simp] theorem State.after_taken : (s.after clk n e).taken = s.taken := rfl
@[simp] theorem State.after_bst : (s.after clk n e).bst = s.bst := rfl
@[simp] theorem State.after_bpops : (s.after clk n e).bpops = s.bpops := rfl
@[simp] theorem State.after_useg : (s.after clk n e).useg = s.useg := rfl
@[simp] theorem State.after_leaving : (s.after clk n e).leaving = s.leaving := rfl
@[simp] theorem State.after_alone : (s.after clk n e).alone = s.alone := rfl
@[simp] theorem State.after_osat : (s.after clk n e).osat = s.osat := rfl

@[simp] theorem State.fresh_procs : (s.fresh).procs = s.procs := rfl
@[simp] theorem State.fresh_cores : (s.fresh).cores = s.cores := rfl
@[simp] theorem State.fresh_mem : (s.fresh).mem = s.mem := rfl
@[simp] theorem State.fresh_empty : (s.fresh).empty = s.empty := rfl
@[simp] theorem State.fresh_badWords : (s.fresh).badWords = s.badWords := rfl
@[simp] theorem State.fresh_poison : (s.fresh).poison = s.poison := rfl
@[simp] theorem State.fresh_errs : (s.fresh).errs = s.errs := rfl
@[simp] theorem State.fresh_soft : (s.fresh).soft = s.soft := rfl
@[simp] theorem State.fresh_secs : (s.fresh).secs = s.secs := rfl
@[simp] theorem State.fresh_regs : (s.fresh).regs = s.regs := rfl
@[simp] theorem State.fresh_ports : (s.fresh).ports = s.ports := rfl
@[simp] theorem State.fresh_slices : (s.fresh).slices = s.slices := rfl
@[simp] theorem State.fresh_pools : (s.fresh).pools = s.pools := rfl
@[simp] theorem State.fresh_bwOld : (s.fresh).bwOld = s.bwOld := rfl
@[simp] theorem State.fresh_combine : (s.fresh).combine = s.combine := rfl
@[simp] theorem State.fresh_bases : (s.fresh).bases = s.bases := rfl
@[simp] theorem State.fresh_doms : (s.fresh).doms = s.doms := rfl
@[simp] theorem State.fresh_blocks : (s.fresh).blocks = s.blocks := rfl
@[simp] theorem State.fresh_repairs : (s.fresh).repairs = s.repairs := rfl
@[simp] theorem State.fresh_copyBusy : (s.fresh).copyBusy = s.copyBusy := rfl
@[simp] theorem State.fresh_copySrc : (s.fresh).copySrc = s.copySrc := rfl
@[simp] theorem State.fresh_ckPhase : (s.fresh).ckPhase = s.ckPhase := rfl
@[simp] theorem State.fresh_ckStart : (s.fresh).ckStart = s.ckStart := rfl
@[simp] theorem State.fresh_ckPoison : (s.fresh).ckPoison = s.ckPoison := rfl
@[simp] theorem State.fresh_dqs : (s.fresh).dqs = s.dqs := rfl
@[simp] theorem State.fresh_dqLast : (s.fresh).dqLast = s.dqLast := rfl
@[simp] theorem State.fresh_dispatches : (s.fresh).dispatches = s.dispatches := rfl
@[simp] theorem State.fresh_launches : (s.fresh).launches = s.launches := rfl
@[simp] theorem State.fresh_jobs : (s.fresh).jobs = s.jobs := rfl
@[simp] theorem State.fresh_place : (s.fresh).place = s.place := rfl
@[simp] theorem State.fresh_imago : (s.fresh).imago = s.imago := rfl
@[simp] theorem State.fresh_rows : (s.fresh).rows = s.rows := rfl
@[simp] theorem State.fresh_withheld : (s.fresh).withheld = s.withheld := rfl
@[simp] theorem State.fresh_chrys : (s.fresh).chrys = s.chrys := rfl
@[simp] theorem State.fresh_stopped : (s.fresh).stopped = s.stopped := rfl
@[simp] theorem State.fresh_links : (s.fresh).links = s.links := rfl
@[simp] theorem State.fresh_net : (s.fresh).net = s.net := rfl
@[simp] theorem State.fresh_outbox : (s.fresh).outbox = s.outbox := rfl
@[simp] theorem State.fresh_tlbis : (s.fresh).tlbis = s.tlbis := rfl
@[simp] theorem State.fresh_clk : (s.fresh).clk = s.clk := rfl
@[simp] theorem State.fresh_timers : (s.fresh).timers = s.timers := rfl
@[simp] theorem State.fresh_agenda : (s.fresh).agenda = s.agenda := rfl
@[simp] theorem State.fresh_turn : (s.fresh).turn = s.turn := rfl
@[simp] theorem State.fresh_free : (s.fresh).free = s.free := rfl
@[simp] theorem State.fresh_cur : (s.fresh).cur = s.cur := rfl
@[simp] theorem State.fresh_bword : (s.fresh).bword = s.bword := rfl
@[simp] theorem State.fresh_opnd : (s.fresh).opnd = s.opnd := rfl
@[simp] theorem State.fresh_opw : (s.fresh).opw = s.opw := rfl
@[simp] theorem State.fresh_orm : (s.fresh).orm = s.orm := rfl
@[simp] theorem State.fresh_npc : (s.fresh).npc = s.npc := rfl
@[simp] theorem State.fresh_taken : (s.fresh).taken = s.taken := rfl
@[simp] theorem State.fresh_bst : (s.fresh).bst = s.bst := rfl
@[simp] theorem State.fresh_bpops : (s.fresh).bpops = s.bpops := rfl
@[simp] theorem State.fresh_useg : (s.fresh).useg = s.useg := rfl
@[simp] theorem State.fresh_leaving : (s.fresh).leaving = s.leaving := rfl
@[simp] theorem State.fresh_alone : (s.fresh).alone = s.alone := rfl
@[simp] theorem State.fresh_osat : (s.fresh).osat = s.osat := rfl

@[simp] theorem State.launchItem_procs : (s.launchItem i).procs = s.procs := rfl
@[simp] theorem State.launchItem_cores : (s.launchItem i).cores = s.cores := rfl
@[simp] theorem State.launchItem_mem : (s.launchItem i).mem = s.mem := rfl
@[simp] theorem State.launchItem_empty : (s.launchItem i).empty = s.empty := rfl
@[simp] theorem State.launchItem_badWords : (s.launchItem i).badWords = s.badWords := rfl
@[simp] theorem State.launchItem_poison : (s.launchItem i).poison = s.poison := rfl
@[simp] theorem State.launchItem_errs : (s.launchItem i).errs = s.errs := rfl
@[simp] theorem State.launchItem_soft : (s.launchItem i).soft = s.soft := rfl
@[simp] theorem State.launchItem_secs : (s.launchItem i).secs = s.secs := rfl
@[simp] theorem State.launchItem_regs : (s.launchItem i).regs = s.regs := rfl
@[simp] theorem State.launchItem_ports : (s.launchItem i).ports = s.ports := rfl
@[simp] theorem State.launchItem_slices : (s.launchItem i).slices = s.slices := rfl
@[simp] theorem State.launchItem_pools : (s.launchItem i).pools = s.pools := rfl
@[simp] theorem State.launchItem_bwOld : (s.launchItem i).bwOld = s.bwOld := rfl
@[simp] theorem State.launchItem_combine : (s.launchItem i).combine = s.combine := rfl
@[simp] theorem State.launchItem_bases : (s.launchItem i).bases = s.bases := rfl
@[simp] theorem State.launchItem_doms : (s.launchItem i).doms = s.doms := rfl
@[simp] theorem State.launchItem_blocks : (s.launchItem i).blocks = s.blocks := rfl
@[simp] theorem State.launchItem_repairs : (s.launchItem i).repairs = s.repairs := rfl
@[simp] theorem State.launchItem_copyBusy : (s.launchItem i).copyBusy = s.copyBusy := rfl
@[simp] theorem State.launchItem_copySrc : (s.launchItem i).copySrc = s.copySrc := rfl
@[simp] theorem State.launchItem_ckPhase : (s.launchItem i).ckPhase = s.ckPhase := rfl
@[simp] theorem State.launchItem_ckStart : (s.launchItem i).ckStart = s.ckStart := rfl
@[simp] theorem State.launchItem_ckPoison : (s.launchItem i).ckPoison = s.ckPoison := rfl
@[simp] theorem State.launchItem_dqs : (s.launchItem i).dqs = s.dqs := rfl
@[simp] theorem State.launchItem_dqLast : (s.launchItem i).dqLast = s.dqLast := rfl
@[simp] theorem State.launchItem_dispatches : (s.launchItem i).dispatches = s.dispatches := rfl
@[simp] theorem State.launchItem_launches : (s.launchItem i).launches = s.launches := rfl
@[simp] theorem State.launchItem_jobs : (s.launchItem i).jobs = s.jobs := rfl
@[simp] theorem State.launchItem_place : (s.launchItem i).place = s.place := rfl
@[simp] theorem State.launchItem_imago : (s.launchItem i).imago = s.imago := rfl
@[simp] theorem State.launchItem_rows : (s.launchItem i).rows = s.rows := rfl
@[simp] theorem State.launchItem_withheld : (s.launchItem i).withheld = s.withheld := rfl
@[simp] theorem State.launchItem_chrys : (s.launchItem i).chrys = s.chrys := rfl
@[simp] theorem State.launchItem_stopped : (s.launchItem i).stopped = s.stopped := rfl
@[simp] theorem State.launchItem_links : (s.launchItem i).links = s.links := rfl
@[simp] theorem State.launchItem_outbox : (s.launchItem i).outbox = s.outbox := rfl
@[simp] theorem State.launchItem_tlbis : (s.launchItem i).tlbis = s.tlbis := rfl
@[simp] theorem State.launchItem_clk : (s.launchItem i).clk = s.clk := rfl
@[simp] theorem State.launchItem_timers : (s.launchItem i).timers = s.timers := rfl
@[simp] theorem State.launchItem_agenda : (s.launchItem i).agenda = s.agenda := rfl
@[simp] theorem State.launchItem_turn : (s.launchItem i).turn = s.turn := rfl
@[simp] theorem State.launchItem_free : (s.launchItem i).free = s.free := rfl
@[simp] theorem State.launchItem_cur : (s.launchItem i).cur = s.cur := rfl
@[simp] theorem State.launchItem_bword : (s.launchItem i).bword = s.bword := rfl
@[simp] theorem State.launchItem_opnd : (s.launchItem i).opnd = s.opnd := rfl
@[simp] theorem State.launchItem_opw : (s.launchItem i).opw = s.opw := rfl
@[simp] theorem State.launchItem_orm : (s.launchItem i).orm = s.orm := rfl
@[simp] theorem State.launchItem_npc : (s.launchItem i).npc = s.npc := rfl
@[simp] theorem State.launchItem_taken : (s.launchItem i).taken = s.taken := rfl
@[simp] theorem State.launchItem_bst : (s.launchItem i).bst = s.bst := rfl
@[simp] theorem State.launchItem_bpops : (s.launchItem i).bpops = s.bpops := rfl
@[simp] theorem State.launchItem_useg : (s.launchItem i).useg = s.useg := rfl
@[simp] theorem State.launchItem_leaving : (s.launchItem i).leaving = s.leaving := rfl
@[simp] theorem State.launchItem_alone : (s.launchItem i).alone = s.alone := rfl
@[simp] theorem State.launchItem_osat : (s.launchItem i).osat = s.osat := rfl

@[simp] theorem State.dropItem_procs : (s.dropItem n).procs = s.procs := rfl
@[simp] theorem State.dropItem_cores : (s.dropItem n).cores = s.cores := rfl
@[simp] theorem State.dropItem_mem : (s.dropItem n).mem = s.mem := rfl
@[simp] theorem State.dropItem_empty : (s.dropItem n).empty = s.empty := rfl
@[simp] theorem State.dropItem_badWords : (s.dropItem n).badWords = s.badWords := rfl
@[simp] theorem State.dropItem_poison : (s.dropItem n).poison = s.poison := rfl
@[simp] theorem State.dropItem_errs : (s.dropItem n).errs = s.errs := rfl
@[simp] theorem State.dropItem_soft : (s.dropItem n).soft = s.soft := rfl
@[simp] theorem State.dropItem_secs : (s.dropItem n).secs = s.secs := rfl
@[simp] theorem State.dropItem_regs : (s.dropItem n).regs = s.regs := rfl
@[simp] theorem State.dropItem_ports : (s.dropItem n).ports = s.ports := rfl
@[simp] theorem State.dropItem_slices : (s.dropItem n).slices = s.slices := rfl
@[simp] theorem State.dropItem_pools : (s.dropItem n).pools = s.pools := rfl
@[simp] theorem State.dropItem_bwOld : (s.dropItem n).bwOld = s.bwOld := rfl
@[simp] theorem State.dropItem_combine : (s.dropItem n).combine = s.combine := rfl
@[simp] theorem State.dropItem_bases : (s.dropItem n).bases = s.bases := rfl
@[simp] theorem State.dropItem_doms : (s.dropItem n).doms = s.doms := rfl
@[simp] theorem State.dropItem_blocks : (s.dropItem n).blocks = s.blocks := rfl
@[simp] theorem State.dropItem_repairs : (s.dropItem n).repairs = s.repairs := rfl
@[simp] theorem State.dropItem_copyBusy : (s.dropItem n).copyBusy = s.copyBusy := rfl
@[simp] theorem State.dropItem_copySrc : (s.dropItem n).copySrc = s.copySrc := rfl
@[simp] theorem State.dropItem_ckPhase : (s.dropItem n).ckPhase = s.ckPhase := rfl
@[simp] theorem State.dropItem_ckStart : (s.dropItem n).ckStart = s.ckStart := rfl
@[simp] theorem State.dropItem_ckPoison : (s.dropItem n).ckPoison = s.ckPoison := rfl
@[simp] theorem State.dropItem_dqs : (s.dropItem n).dqs = s.dqs := rfl
@[simp] theorem State.dropItem_dqLast : (s.dropItem n).dqLast = s.dqLast := rfl
@[simp] theorem State.dropItem_dispatches : (s.dropItem n).dispatches = s.dispatches := rfl
@[simp] theorem State.dropItem_launches : (s.dropItem n).launches = s.launches := rfl
@[simp] theorem State.dropItem_jobs : (s.dropItem n).jobs = s.jobs := rfl
@[simp] theorem State.dropItem_place : (s.dropItem n).place = s.place := rfl
@[simp] theorem State.dropItem_imago : (s.dropItem n).imago = s.imago := rfl
@[simp] theorem State.dropItem_rows : (s.dropItem n).rows = s.rows := rfl
@[simp] theorem State.dropItem_withheld : (s.dropItem n).withheld = s.withheld := rfl
@[simp] theorem State.dropItem_chrys : (s.dropItem n).chrys = s.chrys := rfl
@[simp] theorem State.dropItem_stopped : (s.dropItem n).stopped = s.stopped := rfl
@[simp] theorem State.dropItem_links : (s.dropItem n).links = s.links := rfl
@[simp] theorem State.dropItem_outbox : (s.dropItem n).outbox = s.outbox := rfl
@[simp] theorem State.dropItem_tlbis : (s.dropItem n).tlbis = s.tlbis := rfl
@[simp] theorem State.dropItem_clk : (s.dropItem n).clk = s.clk := rfl
@[simp] theorem State.dropItem_timers : (s.dropItem n).timers = s.timers := rfl
@[simp] theorem State.dropItem_agenda : (s.dropItem n).agenda = s.agenda := rfl
@[simp] theorem State.dropItem_turn : (s.dropItem n).turn = s.turn := rfl
@[simp] theorem State.dropItem_nextId : (s.dropItem n).nextId = s.nextId := rfl
@[simp] theorem State.dropItem_free : (s.dropItem n).free = s.free := rfl
@[simp] theorem State.dropItem_cur : (s.dropItem n).cur = s.cur := rfl
@[simp] theorem State.dropItem_bword : (s.dropItem n).bword = s.bword := rfl
@[simp] theorem State.dropItem_opnd : (s.dropItem n).opnd = s.opnd := rfl
@[simp] theorem State.dropItem_opw : (s.dropItem n).opw = s.opw := rfl
@[simp] theorem State.dropItem_orm : (s.dropItem n).orm = s.orm := rfl
@[simp] theorem State.dropItem_npc : (s.dropItem n).npc = s.npc := rfl
@[simp] theorem State.dropItem_taken : (s.dropItem n).taken = s.taken := rfl
@[simp] theorem State.dropItem_bst : (s.dropItem n).bst = s.bst := rfl
@[simp] theorem State.dropItem_bpops : (s.dropItem n).bpops = s.bpops := rfl
@[simp] theorem State.dropItem_useg : (s.dropItem n).useg = s.useg := rfl
@[simp] theorem State.dropItem_leaving : (s.dropItem n).leaving = s.leaving := rfl
@[simp] theorem State.dropItem_alone : (s.dropItem n).alone = s.alone := rfl
@[simp] theorem State.dropItem_osat : (s.dropItem n).osat = s.osat := rfl

@[simp] theorem State.tick_procs : (s.tick).procs = s.procs := rfl
@[simp] theorem State.tick_cores : (s.tick).cores = s.cores := rfl
@[simp] theorem State.tick_mem : (s.tick).mem = s.mem := rfl
@[simp] theorem State.tick_empty : (s.tick).empty = s.empty := rfl
@[simp] theorem State.tick_badWords : (s.tick).badWords = s.badWords := rfl
@[simp] theorem State.tick_poison : (s.tick).poison = s.poison := rfl
@[simp] theorem State.tick_errs : (s.tick).errs = s.errs := rfl
@[simp] theorem State.tick_soft : (s.tick).soft = s.soft := rfl
@[simp] theorem State.tick_secs : (s.tick).secs = s.secs := rfl
@[simp] theorem State.tick_regs : (s.tick).regs = s.regs := rfl
@[simp] theorem State.tick_ports : (s.tick).ports = s.ports := rfl
@[simp] theorem State.tick_slices : (s.tick).slices = s.slices := rfl
@[simp] theorem State.tick_pools : (s.tick).pools = s.pools := rfl
@[simp] theorem State.tick_bwOld : (s.tick).bwOld = s.bwOld := rfl
@[simp] theorem State.tick_combine : (s.tick).combine = s.combine := rfl
@[simp] theorem State.tick_bases : (s.tick).bases = s.bases := rfl
@[simp] theorem State.tick_doms : (s.tick).doms = s.doms := rfl
@[simp] theorem State.tick_blocks : (s.tick).blocks = s.blocks := rfl
@[simp] theorem State.tick_repairs : (s.tick).repairs = s.repairs := rfl
@[simp] theorem State.tick_copyBusy : (s.tick).copyBusy = s.copyBusy := rfl
@[simp] theorem State.tick_copySrc : (s.tick).copySrc = s.copySrc := rfl
@[simp] theorem State.tick_ckPhase : (s.tick).ckPhase = s.ckPhase := rfl
@[simp] theorem State.tick_ckStart : (s.tick).ckStart = s.ckStart := rfl
@[simp] theorem State.tick_ckPoison : (s.tick).ckPoison = s.ckPoison := rfl
@[simp] theorem State.tick_dqs : (s.tick).dqs = s.dqs := rfl
@[simp] theorem State.tick_dqLast : (s.tick).dqLast = s.dqLast := rfl
@[simp] theorem State.tick_dispatches : (s.tick).dispatches = s.dispatches := rfl
@[simp] theorem State.tick_launches : (s.tick).launches = s.launches := rfl
@[simp] theorem State.tick_jobs : (s.tick).jobs = s.jobs := rfl
@[simp] theorem State.tick_place : (s.tick).place = s.place := rfl
@[simp] theorem State.tick_imago : (s.tick).imago = s.imago := rfl
@[simp] theorem State.tick_rows : (s.tick).rows = s.rows := rfl
@[simp] theorem State.tick_withheld : (s.tick).withheld = s.withheld := rfl
@[simp] theorem State.tick_chrys : (s.tick).chrys = s.chrys := rfl
@[simp] theorem State.tick_stopped : (s.tick).stopped = s.stopped := rfl
@[simp] theorem State.tick_links : (s.tick).links = s.links := rfl
@[simp] theorem State.tick_net : (s.tick).net = s.net := rfl
@[simp] theorem State.tick_outbox : (s.tick).outbox = s.outbox := rfl
@[simp] theorem State.tick_tlbis : (s.tick).tlbis = s.tlbis := rfl
@[simp] theorem State.tick_clk : (s.tick).clk = s.clk := rfl
@[simp] theorem State.tick_timers : (s.tick).timers = s.timers := rfl
@[simp] theorem State.tick_agenda : (s.tick).agenda = s.agenda := rfl
@[simp] theorem State.tick_turn : (s.tick).turn = s.turn := rfl
@[simp] theorem State.tick_nextId : (s.tick).nextId = s.nextId := rfl
@[simp] theorem State.tick_cur : (s.tick).cur = s.cur := rfl
@[simp] theorem State.tick_bword : (s.tick).bword = s.bword := rfl
@[simp] theorem State.tick_opnd : (s.tick).opnd = s.opnd := rfl
@[simp] theorem State.tick_opw : (s.tick).opw = s.opw := rfl
@[simp] theorem State.tick_orm : (s.tick).orm = s.orm := rfl
@[simp] theorem State.tick_npc : (s.tick).npc = s.npc := rfl
@[simp] theorem State.tick_taken : (s.tick).taken = s.taken := rfl
@[simp] theorem State.tick_bst : (s.tick).bst = s.bst := rfl
@[simp] theorem State.tick_bpops : (s.tick).bpops = s.bpops := rfl
@[simp] theorem State.tick_useg : (s.tick).useg = s.useg := rfl
@[simp] theorem State.tick_leaving : (s.tick).leaving = s.leaving := rfl
@[simp] theorem State.tick_alone : (s.tick).alone = s.alone := rfl
@[simp] theorem State.tick_osat : (s.tick).osat = s.osat := rfl

/-! ## What is written -/

@[simp] theorem State.post_agenda : (s.post e).agenda = s.agenda ++ [e] := rfl
@[simp] theorem State.postAll_agenda : (s.postAll es).agenda = s.agenda ++ es := rfl
@[simp] theorem State.after_timers : (s.after clk n e).timers = s.timers ++ [{ clock := clk, left := n, ev := e }] := rfl
@[simp] theorem State.fresh_nextId : s.fresh.nextId = s.nextId + 1 := rfl
@[simp] theorem State.tick_free : s.tick.free = s.free + 1 := rfl
@[simp] theorem State.launchItem_nextId : (s.launchItem i).nextId = s.nextId + 1 := rfl

/-! ## Processes, cores, domains -/

/-- A process reads as the change of it says, and every other process as before. -/
theorem State.proc_modProc (j : Nat) : (s.modProc l f).proc j = if j = l then f (s.proc l) else s.proc j := by
  simp only [State.proc, State.modProc, spGet_spPut]

@[simp] theorem State.proc_modProc_same : (s.modProc l f).proc l = f (s.proc l) := by simp [State.proc_modProc]

theorem State.proc_modProc_ne {j : Nat} (hj : j ≠ l) : (s.modProc l f).proc j = s.proc j := by simp [State.proc_modProc, hj]

/-- A core reads as the change of it says, and every other core as before. -/
theorem State.core_modCore (j : Nat) : (s.modCore c h).core j = if j = c then h (s.core c) else s.core j := by
  simp only [State.core, State.modCore, spGet_spPut]

@[simp] theorem State.core_modCore_same : (s.modCore c h).core c = h (s.core c) := by simp [State.core_modCore]

theorem State.core_modCore_ne {j : Nat} (hj : j ≠ c) : (s.modCore c h).core j = s.core j := by simp [State.core_modCore, hj]

/-- A domain reads as the change of it says, and every other domain as before. -/
theorem State.dom_modDom (j : Nat) : (s.modDom d k).dom j = if j = d then k (s.dom d) else s.dom j := by
  simp only [State.dom, State.modDom, spGet_spPut]

@[simp] theorem State.proc_modCore (j : Nat) : (s.modCore c h).proc j = s.proc j := rfl
@[simp] theorem State.proc_modMyCore (j : Nat) : (s.modMyCore h).proc j = s.proc j := rfl
@[simp] theorem State.proc_modDom (j : Nat) : (s.modDom d k).proc j = s.proc j := rfl
@[simp] theorem State.proc_post (j : Nat) : (s.post e).proc j = s.proc j := rfl
@[simp] theorem State.proc_postAll (j : Nat) : (s.postAll es).proc j = s.proc j := rfl
@[simp] theorem State.proc_after (j : Nat) : (s.after clk n e).proc j = s.proc j := rfl
@[simp] theorem State.proc_fresh (j : Nat) : s.fresh.proc j = s.proc j := rfl
@[simp] theorem State.proc_tick (j : Nat) : s.tick.proc j = s.proc j := rfl
@[simp] theorem State.proc_launchItem (j : Nat) : (s.launchItem i).proc j = s.proc j := rfl
@[simp] theorem State.proc_dropItem (j : Nat) : (s.dropItem n).proc j = s.proc j := rfl
@[simp] theorem State.core_modProc (j : Nat) : (s.modProc l f).core j = s.core j := rfl
@[simp] theorem State.core_modSlot (j : Nat) : (s.modSlot w g).core j = s.core j := rfl
@[simp] theorem State.core_modMe (j : Nat) : (s.modMe g).core j = s.core j := rfl
@[simp] theorem State.core_post (j : Nat) : (s.post e).core j = s.core j := rfl
@[simp] theorem State.core_postAll (j : Nat) : (s.postAll es).core j = s.core j := rfl
@[simp] theorem State.core_fresh (j : Nat) : s.fresh.core j = s.core j := rfl
@[simp] theorem State.core_launchItem (j : Nat) : (s.launchItem i).core j = s.core j := rfl
@[simp] theorem State.core_dropItem (j : Nat) : (s.dropItem n).core j = s.core j := rfl

/-! ## Slots -/

/-- A slot reads as the change of it says, and every other slot of every process as before. -/
theorem State.slot_modSlot (v : Who) : (s.modSlot w g).slot v = if v = w then g (s.slot w) else s.slot v := by
  obtain ⟨vl, vs⟩ := v
  obtain ⟨wl, ws⟩ := w
  simp only [State.slot, State.modSlot, State.proc_modProc, Who.mk.injEq]
  by_cases hl : vl = wl
  · subst hl
    simp only [↓reduceIte, Proc.slot, spGet_spPut, true_and]
  · simp [hl]

@[simp] theorem State.slot_modSlot_same : (s.modSlot w g).slot w = g (s.slot w) := by simp [State.slot_modSlot]

theorem State.slot_modSlot_ne {v : Who} (hv : v ≠ w) : (s.modSlot w g).slot v = s.slot v := by simp [State.slot_modSlot, hv]

/-- A change of a slot leaves a process's own registers. -/
theorem State.modSlot_proc_rest (j : Nat) : { (s.modSlot w g).proc j with slots := [] } = { s.proc j with slots := [] } := by
  simp only [State.modSlot, State.proc_modProc]
  split
  · rename_i hj; subst hj; rfl
  · rfl

@[simp] theorem State.me_modMe : (s.modMe g).me = g s.me := by simp [State.me, State.modMe]

/-- A change of the running slot leaves every other slot. -/
theorem State.slot_modMe_ne {v : Who} (hv : v ≠ s.cur) : (s.modMe g).slot v = s.slot v := State.slot_modSlot_ne s s.cur g hv

@[simp] theorem State.slot_modCore (v : Who) : (s.modCore c h).slot v = s.slot v := rfl
@[simp] theorem State.slot_modMyCore (v : Who) : (s.modMyCore h).slot v = s.slot v := rfl
@[simp] theorem State.slot_modDom (v : Who) : (s.modDom d k).slot v = s.slot v := rfl
@[simp] theorem State.slot_post (v : Who) : (s.post e).slot v = s.slot v := rfl
@[simp] theorem State.slot_postAll (v : Who) : (s.postAll es).slot v = s.slot v := rfl
@[simp] theorem State.slot_after (v : Who) : (s.after clk n e).slot v = s.slot v := rfl
@[simp] theorem State.slot_fresh (v : Who) : s.fresh.slot v = s.slot v := rfl
@[simp] theorem State.slot_tick (v : Who) : s.tick.slot v = s.slot v := rfl
@[simp] theorem State.slot_launchItem (v : Who) : (s.launchItem i).slot v = s.slot v := rfl
@[simp] theorem State.slot_dropItem (v : Who) : (s.dropItem n).slot v = s.slot v := rfl
@[simp] theorem State.me_modCore : (s.modCore c h).me = s.me := rfl
@[simp] theorem State.me_modMyCore : (s.modMyCore h).me = s.me := rfl
@[simp] theorem State.me_modDom : (s.modDom d k).me = s.me := rfl
@[simp] theorem State.me_post : (s.post e).me = s.me := rfl
@[simp] theorem State.me_postAll : (s.postAll es).me = s.me := rfl
@[simp] theorem State.me_after : (s.after clk n e).me = s.me := rfl
@[simp] theorem State.me_fresh : s.fresh.me = s.me := rfl
@[simp] theorem State.me_tick : s.tick.me = s.me := rfl
@[simp] theorem State.me_launchItem : (s.launchItem i).me = s.me := rfl
@[simp] theorem State.me_dropItem : (s.dropItem n).me = s.me := rfl

/-! ## Two changes of one slot -/

/-- Two changes of the running slot are one. -/
theorem State.modMe_me_modMe (g' : Slot → Slot) : ((s.modMe g).modMe g').me = g' (g s.me) := by simp

/-! ## Operands do not change while a bundle is performed (R178) -/

@[simp] theorem State.rd_modMe (r : Reg) : (s.modMe g).rd r = s.rd r := rfl
@[simp] theorem State.rd_modSlot (r : Reg) : (s.modSlot w g).rd r = s.rd r := rfl
@[simp] theorem State.rd_modProc (r : Reg) : (s.modProc l f).rd r = s.rd r := rfl
@[simp] theorem State.rd_modCore (r : Reg) : (s.modCore c h).rd r = s.rd r := rfl
@[simp] theorem State.rdB_modMe (r : Reg) (x : Option W32) : (s.modMe g).rdB r x = s.rdB r x := rfl
@[simp] theorem State.guard_modMe (p : Sys2Proof.Pred) : (s.modMe g).guard p = s.guard p := rfl
@[simp] theorem State.guard_modSlot (p : Sys2Proof.Pred) : (s.modSlot w g).guard p = s.guard p := rfl
@[simp] theorem State.guard_modProc (p : Sys2Proof.Pred) : (s.modProc l f).guard p = s.guard p := rfl
@[simp] theorem State.guard_modCore (p : Sys2Proof.Pred) : (s.modCore c h).guard p = s.guard p := rfl

/-- g0 reads 0 (R201). -/
@[simp] theorem State.rd_zero : s.rd 0 = 0 := rfl

/-- p0 is true (R179). -/
@[simp] theorem State.guard_zero : s.guard 0 = true := rfl

end Sys2Proof.Machine
end

