-- ==== Sys2Proof/Laws/Ops.lean ====
section
/-!
SUPPORT. One lemma per shared operation that says what it does: register and predicate writes, guards, flags, a trap that is
taken at once, landing entries, local memory and its full bits, and the canonical form of the memory.
-/

namespace Sys2Proof.Machine

/-! ## Completion and guards -/

/-- An instruction whose meaning is a change of the state completes with it. -/
theorem completes_of_next {i : Instr} {s t : State} {P : State → Prop} (h : exec i s = .next t) (p : P t) : Completes i s P :=
  ⟨t, h, p⟩

/-- What holds of every next state holds of this one. -/
theorem Completes.mono {i : Instr} {s : State} {P Q : State → Prop} (h : Completes i s P) (pq : ∀ t, P t → Q t) : Completes i s Q := by
  obtain ⟨t, e, p⟩ := h
  exact ⟨t, e, pq t p⟩

/-- A guarded word acts when its guard is true, and else leaves the state as it is (R179). -/
theorem guarded_when {i : Instr} {g : Sys2Proof.Pred} {s : State} {f : State → State} {P : State → Prop}
    (h : exec i s = .next (s.when g f)) (p : s.guard g = true → P (f s)) : Guarded i g s P := by
  refine ⟨_, h, fun hg => ?_, fun hg => ?_⟩
  · simpa [State.when, hg] using p hg
  · simp [State.when, hg]

/-! ## Frames -/

theorem SameButProcs.refl (s : State) : SameButProcs s s := rfl

theorem SameMem.refl (s : State) : SameMem s s := fun _ => rfl

theorem SameMem.trans {s t u : State} (a : SameMem s t) (b : SameMem t u) : SameMem s u := fun x => (b x).trans (a x)

theorem OnlyMe.refl (s : State) : OnlyMe s s := ⟨rfl, fun _ => rfl, fun _ _ => rfl, fun _ => rfl⟩

/-- A change of the running slot changes nothing else. -/
theorem onlyMe_modMe (s : State) (g : Slot → Slot) : OnlyMe s (s.modMe g) where
  rest := rfl
  mem := fun _ => rfl
  slots := fun _ h => State.slot_modMe_ne s g h
  procs := fun l => State.modSlot_proc_rest s s.cur g l

/-- Two changes of the running slot change nothing else. -/
theorem OnlyMe.trans {s t u : State} (a : OnlyMe s t) (b : OnlyMe t u) : OnlyMe s u where
  rest := Eq.trans b.rest a.rest
  mem := SameMem.trans a.mem b.mem
  slots := fun w h => by
    have e := a.rest
    have c : t.cur = s.cur := (congrArg State.cur e : _)
    rw [b.slots w (c ▸ h), a.slots w h]
  procs := fun l => (b.procs l).trans (a.procs l)

/-! ## Single bits -/

/-- A one shifted to place p has that bit alone. -/
theorem getLsbD_oneAt {w p q : Nat} (hq : q < w) : (1#w <<< p).getLsbD q = (q == p) := by
  simp only [BitVec.getLsbD_shiftLeft, hq, decide_true, Bool.true_and, BitVec.getLsbD_one]
  by_cases hl : q < p
  · have : (q == p) = false := by simpa using Nat.ne_of_lt hl
    simp [hl, this]
  · by_cases e : q = p
    · subst e; simp; omega
    · have : (q == p) = false := by simpa using e
      simp only [hl, decide_false, Bool.not_false, Bool.true_and, this, Bool.and_eq_false_imp, decide_eq_true_eq, decide_eq_false_iff_not]
      omega

/-- Putting a bit in its place leaves every other bit. -/
theorem getLsbD_putBit {w : Nat} (x : BitVec w) (b : Bool) {p q : Nat} (hq : q < w) :
    (if b then x ||| (1#w <<< p) else x &&& ~~~(1#w <<< p)).getLsbD q = if q = p then b else x.getLsbD q := by
  cases b
  · simp only [Bool.false_eq_true, ↓reduceIte, BitVec.getLsbD_and, BitVec.getLsbD_not, hq, decide_true, Bool.true_and, getLsbD_oneAt hq]
    by_cases e : q = p <;> simp [e]
  · simp only [↓reduceIte, BitVec.getLsbD_or, getLsbD_oneAt hq]
    by_cases e : q = p <;> simp [e]

/-! ## Register writes (R166, R201, R214) -/

/-- A register reads as what was written to it; g0 reads as before. -/
theorem Arch.rd_wr (a : Arch) (r q : Reg) (v : W64) : (a.wr r v).rd q = if q = r ∧ r ≠ 0 then v else a.rd q := by
  unfold Arch.wr
  by_cases h0 : r = 0
  · simp [h0]
  · simp only [h0, ↓reduceIte, Arch.rd, Vector.getElem_set, ne_eq, not_false_eq_true, and_true]
    by_cases h : q = r
    · simp [h]
    · have : r.toNat ≠ q.toNat := fun e => h (BitVec.eq_of_toNat_eq e.symm)
      simp [h, this]

/-- A written register is full, and every other full bit is as before. -/
theorem Arch.isF_wr (a : Arch) (r q : Reg) (v : W64) : (a.wr r v).isF q = (a.isF q || (q == r && r != 0)) := by
  unfold Arch.wr
  by_cases h0 : r = 0
  · simp [h0]
  · have hr : (r != 0) = true := by simpa using h0
    simp only [h0, ↓reduceIte, Arch.isF, BitVec.getLsbD_or, hr, Bool.and_true]
    congr 1
    rw [getLsbD_oneAt q.isLt]
    by_cases h : q = r
    · simp [h]
    · have hn : q.toNat ≠ r.toNat := fun e => h (BitVec.eq_of_toNat_eq e)
      rw [beq_eq_false_iff_ne.mpr hn, beq_eq_false_iff_ne.mpr h]

/-- A cleared register is not full, and every other full bit is as before; g0 stays full (R166). -/
theorem Arch.isF_clearF (a : Arch) (r q : Reg) : (a.clearF r).isF q = (a.isF q && !(q == r && q != 0)) := by
  unfold Arch.clearF
  by_cases h0 : r = 0
  · subst h0
    rw [bne, if_pos rfl, Bool.and_not_self, Bool.not_false, Bool.and_true]
  · simp only [h0, ↓reduceIte, Arch.isF, BitVec.getLsbD_and, BitVec.getLsbD_not, q.isLt, decide_true, Bool.true_and, getLsbD_oneAt q.isLt]
    by_cases h : q = r
    · subst h
      rw [bne, beq_eq_false_iff_ne.mpr h0]
      simp
    · have hn : q.toNat ≠ r.toNat := fun e => h (BitVec.eq_of_toNat_eq e)
      rw [beq_eq_false_iff_ne.mpr hn, beq_eq_false_iff_ne.mpr h]
      simp

@[simp] theorem Arch.regs_clearF (a : Arch) (r : Reg) : (a.clearF r).regs = a.regs := by unfold Arch.clearF; split <;> rfl
@[simp] theorem Arch.pw_clearF (a : Arch) (r : Reg) : (a.clearF r).pw = a.pw := by unfold Arch.clearF; split <;> rfl
@[simp] theorem Arch.landing_clearF (a : Arch) (r : Reg) : (a.clearF r).landing = a.landing := by unfold Arch.clearF; split <;> rfl

/-- A write of a general register changes that register alone (R166, R201). -/
theorem onlyReg_wr (x : Slot) (r : Reg) (v : W64) : OnlyReg x { x with arch := x.arch.wr r v } r v where
  regs := fun q => Arch.rd_wr x.arch r q v
  full := fun q => Arch.isF_wr x.arch r q v
  rest := by
    unfold Arch.wr
    split <;> rfl

/-- A push joins the running chunk and changes nothing else of the slot (R137, R214). -/
theorem onlyPush_push (x : Slot) (n : Nat) (v : W64) : OnlyPush x (x.push n v x.arch.pc) n v where
  pushes := by
    cases h : x.chunk <;> simp [Slot.push, Slot.openChunk, Slot.pushed, h, Slot.newChunk]
  rest := by
    cases h : x.chunk <;> simp [Slot.push, Slot.openChunk, h] <;> (cases x; simp_all)

/-- WRITING A REGISTER FIELD: the field's place takes the value and nothing else changes (R166, R201, R214). -/
theorem wr_wrote (s : State) (r : Reg) (v : W64) : Wrote s (s.wr r v) r v := by
  refine ⟨onlyMe_modMe s _, ?_⟩
  have m : (s.wr r v).me = s.me.wrField r v := State.me_modMe s _
  rw [m]
  unfold Slot.wrField
  cases s.me.field r with
  | gen => exact onlyReg_wr s.me r v
  | bank n => rfl
  | stream n => exact onlyPush_push s.me n v
  | down => exact onlyPush_push s.me 4 v
  | up => rfl

/-- WRITING A PREDICATE: it reads as b, p0 stays, and nothing else changes (R189, R209). -/
theorem wrPred_wrote (s : State) (p : Sys2Proof.Pred) (b : Bool) : WrotePred s (s.wrPred p b) p b := by
  unfold State.wrPred
  by_cases h0 : p = 0
  · simp only [h0, ↓reduceIte]
    exact ⟨OnlyMe.refl s, fun q => by simp, by cases s.me; rfl⟩
  · simp only [h0, ↓reduceIte]
    refine ⟨onlyMe_modMe s _, fun q => ?_, by rw [State.me_modMe]⟩
    rw [State.me_modMe]
    have hb := getLsbD_putBit s.me.arch.pw b (p := p.toNat) (q := q.toNat) q.isLt
    simp only [hb, h0, ne_eq, not_false_eq_true, and_true]
    by_cases h : q = p
    · simp [h]
    · have hn : q.toNat ≠ p.toNat := fun e => h (BitVec.eq_of_toNat_eq e)
      simp [h, hn]

/-- RAISING FLAGS ORs them into FCSR and changes nothing else (R289). -/
theorem raiseFlags_raised (s : State) (fl : Nat) : RaisedFlags s (s.raiseFlags fl) fl where
  only := onlyMe_modMe s _
  fcsr := by simp [State.raiseFlags]
  rest := by simp [State.raiseFlags]

/-! ## Traps (R320, R322) -/

/-- With no chunk of its own a thread ends none. -/
theorem endChunk_none {s : State} {w : Who} (h : (s.slot w).chunk = none) : s.endChunk w = s := by
  simp [State.endChunk, h]

@[simp] theorem State.slot_record (s : State) (r : Record) (w : Who) : (s.record r).slot w = s.slot w := rfl

/-- A halted slot keeps everything but its standing (R159). -/
theorem slot_halt (s : State) (w : Who) (code : Nat) :
    (s.halt w code).slot w = { s.slot w with st := .halted, wait := none, latch := none, issued := none, arrived := false, sdesc := none, fence := [] } := by
  simp [State.halt]

/-- Where a bundle goes on does not touch a slot. -/
theorem slot_ifTaken (p : Prop) [Decidable p] (s : State) (w : Who) (x : BitVec 20) :
    (if p then { s with npc := x, taken := true } else s).slot w = s.slot w := by split <;> rfl

/-- Nor the thread that runs. -/
theorem cur_ifTaken (p : Prop) [Decidable p] (s : State) (x : BitVec 20) :
    (if p then { s with npc := x, taken := true } else s).cur = s.cur := by split <;> rfl

/-- TAKING A TRAP outside a handler leaves what R322 says. -/
theorem enterTrap_took {s : State} {w : Who} {t : Due} (hT : (s.slot w).inTrap = false) (hp : t.p = false) (hd : t.deferred = false)
    (hprog : t.prog = 0) (hpc : t.pc = (s.slot w).arch.pc) (hc : t.code < 256) (hs : t.seg < 8) (hr : t.reason < 8) :
    TookTrap (s.slot w) ((s.enterTrap w t).slot w) t.code t.seg t.reason t.addr := by
  have cw : causeWord t = w64 (t.code + t.seg * 256 + t.reason * 2048) := by
    simp [causeWord, hp, hd, Nat.mod_eq_of_lt hc, Nat.mod_eq_of_lt hs, Nat.mod_eq_of_lt hr]
  simp only [State.enterTrap, hT, Bool.false_eq_true, ↓reduceIte, Bool.not_eq_true']
  by_cases en : tb 0 (s.slot w).regs.trapvec = true
  · rw [if_neg (by simpa using en), slot_ifTaken]
    simp only [State.slot_modSlot_same]
    have small (v : W64) : fld 1 0 v < 4 := Nat.mod_lt _ (by decide)
    have small' (v : W64) : fld 2 1 v < 4 := Nat.mod_lt _ (by decide)
    refine { cause := cw, addr := rfl, pc := by rw [hpc], prog := hprog, enter := fun _ => ⟨?_, ?_, ?_, ?_⟩,
             halt := fun h => absurd en (by simp [h]), regs := ⟨rfl, rfl, rfl, rfl⟩ }
    · have : fld 19 3 (s.slot w).regs.trapvec < 2 ^ 17 := Nat.mod_lt _ (by decide)
      simp only [BitVec.toNat_ofNat]
      omega
    · exact (fld_setFld 4 3 _ _ (by decide) (by decide)).trans (Nat.mod_eq_of_lt (small _))
    · rw [Slot.inTrap, tb_eq_fld]
      simp only [fld_setFld_below 4 3 _ _ (hi' := 2) (lo' := 2) (by decide) (by decide) (by decide) (by decide),
        fld_setFld 2 2 _ _ (by decide) (by decide)]
      rfl
    · simp only [Slot.priv, fld_setFld_below 4 3 _ _ (hi' := 1) (lo' := 0) (by decide) (by decide) (by decide) (by decide),
        fld_setFld_below 2 2 _ _ (hi' := 1) (lo' := 0) (by decide) (by decide) (by decide) (by decide),
        fld_setFld 1 0 _ _ (by decide) (by decide)]
      exact Nat.mod_eq_of_lt (Nat.max_lt.mpr ⟨small _, small' _⟩)
  · rw [if_pos (by simpa using en)]
    simp only [slot_halt, State.slot_modSlot_same]
    exact { cause := cw, addr := rfl, pc := by rw [hpc], prog := hprog, enter := fun h => absurd h en,
            halt := fun _ => ⟨rfl, rfl⟩, regs := ⟨rfl, rfl, rfl, rfl⟩ }

/-- Landing nothing changes nothing. -/
theorem landAll_of_quiet {x : Slot} (q : x.Quiet) : x.landAll = x := by simp [Slot.landAll, q.landing, Slot.land]

/-- What a trap leaves depends on the registers, the slot registers and the handler bank alone. -/
theorem TookTrap.of_eq {x x' y : Slot} {code seg reason : Nat} {addr : W64} (h : TookTrap x y code seg reason addr)
    (a : x'.arch = x.arch) (r : x'.regs = x.regs) (b : x'.hbank = x.hbank) : TookTrap x' y code seg reason addr := by
  obtain ⟨h1, h2, h3, h4, h5, h6, h7⟩ := h
  refine ⟨h1, h2, ?_, h4, ?_, ?_, ?_⟩
  · rw [a]; exact h3
  · simpa only [Slot.priv, r] using h5
  · rw [r]; exact h6
  · rw [a, b]; exact h7

/-- Taking a trap goes on with the same thread. -/
theorem enterTrap_cur (s : State) (w : Who) (t : Due) : (s.enterTrap w t).cur = s.cur := by
  unfold State.enterTrap
  dsimp only
  split
  · simp [State.halt, State.record]
  · split
    · simp [State.halt, State.record]
    · rw [cur_ifTaken]; rfl

/-- A trap that is due in a quiet thread at its bundle is taken at once (R168, R322). -/
theorem raiseFor_quiet {s : State} {w : Who} {t : Due} (q : (s.slot w).Quiet) (hpc : t.pc = (s.slot w).arch.pc) :
    ∃ m : State, s.raiseFor w t = m.enterTrap w t ∧ m.cur = s.cur ∧ (m.slot w).arch = (s.slot w).arch ∧
      (m.slot w).regs = (s.slot w).regs ∧ (m.slot w).hbank = (s.slot w).hbank := by
  obtain ⟨qc, qk, ql, qd, qr⟩ := q
  have st : (if (s.slot w).st = .waiting then SlotSt.ready else (s.slot w).st) ≠ SlotSt.halted := by split <;> simp_all
  let wake (x : Slot) : Slot :=
    { x with due := x.due ++ [t], st := if x.st = .waiting then .ready else x.st, wait := none, latch := none }
  have same : (if t.code = cSENDSTALL then { t with pc := (s.slot w).arch.pc } else t) = t := by cases t; simp_all
  refine ⟨(s.modSlot w wake).modSlot w fun x => ({ x with due := [] }).landAll, ?_, rfl, ?_, ?_, ?_⟩
  · simp only [State.raiseFor]
    rw [endChunk_none (by simp [qc])]
    simp [wake, State.takeDue, qd, Slot.canTrap, ql, Slot.settled, qc, qk, st, same]
  all_goals simp [wake, Slot.landAll, ql, Slot.land]

/-- How a bundle stands is no part of its slot. -/
theorem State.me_bst (s : State) (b : BundleSt) : State.me { s with bst := b } = s.me := rfl

/-- A TRAP OF THE RUNNING BUNDLE in a quiet thread outside a handler is taken at once (R168, R322). -/
theorem raiseDue_took {s : State} {t : Due} (q : s.me.Quiet) (hT : s.me.inTrap = false) (hp : t.p = false) (hd : t.deferred = false)
    (hprog : t.prog = 0) (hpc : t.pc = s.me.arch.pc) (hc : t.code < 256) (hs : t.seg < 8) (hr : t.reason < 8) :
    (s.raiseDue t).bst = .stop ∧ TookTrap s.me (s.raiseDue t).me t.code t.seg t.reason t.addr := by
  refine ⟨rfl, ?_⟩
  let s' := s.modMe fun x =>
    { x with chunk := match x.chunk with
        | some c => if c.count = 0 && c.pushes.isEmpty && c.pops.isEmpty then none else some c
        | none => none }
  have e : s'.me = s.me := by
    have := q.chunk
    simp only [s', State.me_modMe, this]
    exact (congrArg (fun c => { s.me with chunk := c }) this.symm)
  have q' : (s'.slot s.cur).Quiet := by rw [show s'.slot s.cur = s.me from e]; exact q
  obtain ⟨m, hm, mc, ma, mr, mb⟩ := raiseFor_quiet (t := t) q' (by rw [show s'.slot s.cur = s.me from e]; exact hpc)
  rw [show s'.slot s.cur = s.me from e] at ma mr mb
  have f : (s.raiseDue t).me = (m.enterTrap s.cur t).slot s.cur := by
    have d : s.raiseDue t = { s'.raiseFor s.cur t with bst := .stop } := by unfold State.raiseDue; rfl
    rw [d, State.me_bst, hm, State.me, enterTrap_cur, mc]
    rfl
  rw [f]
  refine TookTrap.of_eq (enterTrap_took (t := t) ?_ hp hd hprog ?_ hc hs hr) ma.symm mr.symm mb.symm
  · simpa only [Slot.inTrap, mr] using hT
  · rw [ma]; exact hpc

/-- The same from the trap's fields. -/
theorem raise_took {s : State} {code seg reason : Nat} {addr : W64} (q : s.me.Quiet) (hT : s.me.inTrap = false) (hc : code < 256)
    (hs : seg < 8) (hr : reason < 8) :
    (s.raise code seg reason addr).bst = .stop ∧ TookTrap s.me (s.raise code seg reason addr).me code seg reason addr :=
  raiseDue_took (t := mkDue code seg reason addr s.me.arch.pc) q hT rfl rfl rfl rfl hc hs hr

/-! ## Landing entries (R164 to R166) -/

/-- Opening a landing enters the result with its window; the destination is not full until it lands, and no value changes. -/
theorem openLand_entry (s : State) (d : Reg) (la : Nat) (v : W64) (addr : W64) (sync : Bool) :
    LandEntry s (s.openLand d la (.value v) addr sync) d la v := by
  have m : (s.openLand d la (.value v) addr sync).me = _ := State.me_modMe s.fresh _
  rw [State.me_fresh] at m
  by_cases g : s.me.field d = .gen
  · simp only [g, ↓reduceIte] at m
    constructor <;> rw [m]
    · exact ⟨_, by rw [Arch.landing_clearF], rfl, rfl, rfl, rfl⟩
    · intro q
      rw [Arch.isF_clearF, g]
      simp [Arch.isF]
    · exact Arch.regs_clearF _ _
    · exact Arch.pw_clearF _ _
  · have gb : (s.me.field d == Field.gen) = false := by simpa using g
    simp only [g, ↓reduceIte] at m
    constructor <;> rw [m]
    · exact ⟨_, rfl, rfl, rfl, rfl, rfl⟩
    · intro q
      rw [gb]
      simp [Arch.isF]

end Sys2Proof.Machine
end

