-- ==== Sys2Proof/Laws/Memory.lean ====
section
/-!
SUPPORT. Local memory, its full bits, and the canonical form: every operation that writes memory keeps it.
-/

namespace Sys2Proof.Machine

/-! ## The invariant -/

/-- Reset memory is canonical: nothing is listed. -/
theorem wf_nil : Memory.wf [] = true := rfl

/-- A step that leaves the memory keeps its canonical form. -/
theorem Inv.of_mem_eq {s t : State} (h : t.mem = s.mem) (i : s.Inv) : t.Inv := by rw [State.Inv, h]; exact i

theorem inv_modProc {s : State} (l : Nat) (f : Proc → Proc) (i : s.Inv) : (s.modProc l f).Inv := i
theorem inv_modSlot {s : State} (w : Who) (g : Slot → Slot) (i : s.Inv) : (s.modSlot w g).Inv := i
theorem inv_modMe {s : State} (g : Slot → Slot) (i : s.Inv) : (s.modMe g).Inv := i
theorem inv_modCore {s : State} (c : Nat) (h : Core → Core) (i : s.Inv) : (s.modCore c h).Inv := i
theorem inv_post {s : State} (e : Ev) (i : s.Inv) : (s.post e).Inv := i
theorem inv_wr {s : State} (r : Reg) (v : W64) (i : s.Inv) : (s.wr r v).Inv := i
theorem inv_wrPred {s : State} (p : Sys2Proof.Pred) (b : Bool) (i : s.Inv) : (s.wrPred p b).Inv := by
  unfold State.wrPred; split <;> exact i

/-- A loop over steps that keep the form keeps it. -/
theorem inv_forEach {α : Type} (l : List α) {s : State} (f : State → α → State) (step : ∀ t a, t.Inv → (f t a).Inv) (i : s.Inv) :
    (forEach l s f).Inv := by
  unfold forEach
  induction l generalizing s with
  | nil => exact i
  | cons a l ih => exact ih (step s a i)

/-! ## Splices of the canonical list -/

/-- A list below a bound, followed by a canonical list from the bound on, is canonical. -/
theorem memAbove_append {m m' : List Host.Cell} {a b : Nat} (w : memAbove a m = true) (below : ∀ c ∈ m, c.1 < b)
    (w' : memAbove b m' = true) (hab : a ≤ b) : memAbove a (m ++ m') = true := by
  induction m generalizing a with
  | nil => exact memAbove_mono m' hab w'
  | cons c m ih =>
    simp only [memAbove, Bool.and_eq_true, decide_eq_true_eq, List.cons_append] at w ⊢
    have hc : c.1 < b := below c (by simp)
    exact ⟨w.1, ih w.2 (fun x hx => below x (by simp [hx])) (by omega)⟩

/-- The cells at or above a bound form a canonical list from the bound on. -/
theorem memAbove_from {m : List Host.Cell} {a b : Nat} (w : memAbove a m = true) (p : Host.Cell → Bool) (hp : ∀ c, p c = true → b ≤ c.1) :
    memAbove b (m.filter p) = true := by
  induction m generalizing a with
  | nil => rfl
  | cons c m ih =>
    simp only [memAbove, Bool.and_eq_true, decide_eq_true_eq] at w
    simp only [List.filter_cons]
    split
    · rename_i hc
      simp only [memAbove, Bool.and_eq_true, decide_eq_true_eq]
      exact ⟨⟨hp c hc, w.1.2⟩, memAbove_filter m p w.2⟩
    · exact ih w.2

/-- Cells moved by a distance keep the form. -/
theorem memAbove_move {m : List Host.Cell} {a src dst : Nat} (w : memAbove a m = true) (h : src ≤ a) :
    memAbove (a - src + dst) (m.map fun c => (c.1 - src + dst, c.2)) = true := by
  induction m generalizing a with
  | nil => rfl
  | cons c m ih =>
    simp only [memAbove, Bool.and_eq_true, decide_eq_true_eq, List.map_cons] at w ⊢
    refine ⟨⟨by omega, w.1.2⟩, ?_⟩
    have := ih w.2 (by omega)
    rwa [show c.1 - src + dst + 1 = c.1 + 1 - src + dst by omega]

/-- A part of the memory replaced by a canonical list that stays inside it leaves the memory canonical. -/
theorem wf_splice {m x : List Host.Cell} {a b : Nat} (w : Memory.wf m = true) (wx : memAbove a x = true) (inside : ∀ c ∈ x, c.1 < b)
    (hab : a ≤ b) : Memory.wf ((m.filter fun c => c.1 < a) ++ x ++ (m.filter fun c => b ≤ c.1)) = true := by
  have low : ∀ c ∈ m.filter (fun c => decide (c.1 < a)), c.1 < a := fun c hc => by simpa using (List.mem_filter.mp hc).2
  have mid := memAbove_append (memAbove_filter m (fun c => decide (c.1 < a)) w) low wx (Nat.zero_le a)
  refine memAbove_append mid (fun c hc => ?_) (memAbove_from w (fun c => decide (b ≤ c.1)) fun c h => by simpa using h) (Nat.zero_le b)
  rcases List.mem_append.mp hc with h | h
  · exact Nat.lt_of_lt_of_le (low c h) hab
  · exact inside c h

/-- A copy keeps the canonical form. -/
theorem wf_memCopy (m : List Host.Cell) (src dst n : Nat) (w : Memory.wf m = true) : Memory.wf (memCopy m src dst n) = true := by
  have moved := memAbove_move (dst := dst)
    (memAbove_from (b := src) w (fun c => decide (src ≤ c.1) && decide (c.1 < src + n)) fun c h => by simp at h; exact h.1) (Nat.le_refl src)
  rw [Nat.sub_self, Nat.zero_add] at moved
  refine wf_splice w moved (fun c hc => ?_) (Nat.le_add_right dst n)
  obtain ⟨x, hx, rfl⟩ := List.mem_map.mp hc
  have := (List.mem_filter.mp hx).2
  simp at this
  show x.1 - src + dst < dst + n
  omega

/-- A write inside a part of the address space lists no cell outside it. -/
theorem mem_memPut_inside {m : List Host.Cell} {k lo hi : Nat} {v : Byte} (h : ∀ c ∈ m, lo ≤ c.1 ∧ c.1 < hi) (hk : lo ≤ k ∧ k < hi) :
    ∀ c ∈ memPut m k v, lo ≤ c.1 ∧ c.1 < hi := by
  unfold memPut
  split
  · exact fun c hc => h c (List.mem_filter.mp hc).1
  · induction m with
    | nil => intro c hc; simp [memIns] at hc; subst hc; exact hk
    | cons x m ih =>
      obtain ⟨a, b⟩ := x
      intro c hc
      simp only [memIns] at hc
      have ht : ∀ c ∈ m, lo ≤ c.1 ∧ c.1 < hi := fun c hc => h c (by simp [hc])
      have hx : lo ≤ a ∧ a < hi := h (a, b) (by simp)
      split at hc
      · rcases List.mem_cons.mp hc with rfl | hc
        · exact hk
        · exact h c hc
      · split at hc
        · rcases List.mem_cons.mp hc with rfl | hc
          · exact hk
          · exact ht c hc
        · rcases List.mem_cons.mp hc with rfl | hc
          · exact hx
          · exact ih ht c hc

/-- The same for a write of several bytes. -/
theorem mem_memWrite_inside {m : List Host.Cell} {a n v lo hi : Nat} (h : ∀ c ∈ m, lo ≤ c.1 ∧ c.1 < hi) (ha : lo ≤ a) (hn : a + n ≤ hi) :
    ∀ c ∈ memWrite m a n v, lo ≤ c.1 ∧ c.1 < hi := by
  induction n generalizing m a v with
  | zero => exact h
  | succ n ih => exact ih (mem_memPut_inside h ⟨ha, by omega⟩) (by omega) (by omega)

/-! ## Local memory (R2, R63) -/

/-- A write of a byte of local memory keeps the canonical form. -/
theorem inv_locPut {s : State} (lpn priv off : Nat) (v : Byte) (i : s.Inv) : (s.locPut lpn priv off v).Inv := by
  unfold State.locPut
  split
  · exact i
  · split
    · exact i
    · exact wf_memPut s.mem _ v i

/-- So does a write of several bytes. -/
theorem inv_locWriteBytes {s : State} (lpn priv off n v : Nat) (i : s.Inv) : (s.locWriteBytes lpn priv off n v).Inv := by
  induction n generalizing s off v with
  | zero => exact i
  | succ n ih => exact ih _ _ (inv_locPut lpn priv off _ i)

/-- So does a write that may end a word's poison. -/
theorem inv_locWrite {s : State} (lpn priv off n v : Nat) (i : s.Inv) : (s.locWrite lpn priv off n v).Inv := by
  have := inv_locWriteBytes lpn priv off n v i
  unfold State.locWrite
  dsimp only
  split <;> exact this

/-- So does a write of the hardware's own. -/
theorem inv_hwWrite {s : State} (lpn off : Nat) (v : W64) (i : s.Inv) : (s.hwWrite lpn off v).Inv := inv_locWrite lpn 2 off 8 _ i

/-- So does a sector written to memory. -/
theorem inv_secStore {s : State} (vmid line k hline : Nat) (p : Bool) (i : s.Inv) : (s.secStore vmid line k hline p).Inv :=
  wf_secToMem s.mem _ _ i

/-- So does a write at the home of a paged sector. -/
theorem inv_pgWrite {s : State} (vmid gpa hpa n v : Nat) (i : s.Inv) : (s.pgWrite vmid gpa hpa n v).Inv := by
  unfold State.pgWrite
  dsimp only
  split
  · split
    · split
      · simp only [State.l2Mod]
        exact i
      · exact i
    · exact i
  · exact wf_memWrite s.mem hpa n v i

/-- A byte written outside the stash and the hardware areas reads as written, and every other address as before. -/
theorem memGet_locPut {s : State} {lpn priv off : Nat} {v : Byte} (area : (priv != 2 && hwArea (s.proc lpn).lmmap off) = false)
    (plain : s.stashSec lpn off = none) (a : Nat) :
    memGet (s.locPut lpn priv off v).mem a = if a = winAddr lpn off then v else memGet s.mem a := by
  simp only [State.locPut, area, Bool.false_eq_true, ↓reduceIte, plain, State.modProc_mem]
  split
  · rename_i h; subst h; exact memGet_memPut_same _ _ _
  · rename_i h; exact memGet_memPut_ne _ _ h

/-- Two offsets of one window have different addresses. -/
theorem winAddr_inj {lpn a b : Nat} : winAddr lpn a = winAddr lpn b ↔ a = b := by
  simp only [winAddr]; omega

/-! ## Full bits (R65) -/

/-- A number put into a list is in it. -/
theorem mem_insNat (k x : Nat) (l : List Nat) : x ∈ insNat k l ↔ x = k ∨ x ∈ l := by
  induction l with
  | nil => simp [insNat]
  | cons a l ih =>
    simp only [insNat]
    split
    · simp
    · split
      · rename_i _ h; subst h; simp
      · simp only [List.mem_cons, ih]
        constructor
        · rintro (h | h | h) <;> simp [h]
        · rintro (h | h | h) <;> simp [h]

/-- A FULL BIT reads as it was set, and every other word's as before. -/
theorem isFull_setFull (s : State) (lpn off : Nat) (b : Bool) (a : Nat) :
    (s.setFull lpn off b).isFull lpn 2 a = if a / 8 = off / 8 then b else s.isFull lpn 2 a := by
  have e : winAddr lpn (a / 8 * 8) = winAddr lpn (off / 8 * 8) ↔ a / 8 = off / 8 := by rw [winAddr_inj]; omega
  have n : ((2 : Nat) != 2) = false := rfl
  simp only [State.isFull, n, Bool.false_and, Bool.false_or, State.setFull]
  by_cases h : a / 8 = off / 8
  · rw [e.mpr h]
    cases b <;> simp [h, mem_insNat]
  · have h' : winAddr lpn (a / 8 * 8) ≠ winAddr lpn (off / 8 * 8) := fun x => h (e.mp x)
    cases b
    · simp only [Bool.false_eq_true, ↓reduceIte, h]
      congr 1
      rw [Bool.eq_iff_iff]
      simp [mem_insNat, h']
    · simp only [↓reduceIte, h]
      congr 1
      rw [Bool.eq_iff_iff]
      simp [h']

end Sys2Proof.Machine
end

