-- ==== Sys2Proof/Laws/PerInstr.lean ====
section
/-!
SUPPORT. Facts of every instruction as syntax, one lemma per constructor.
-/

namespace Sys2Proof.Laws.Shape

/-- A row of the table stands for a word A, a word B or an event, never for two of them; an instruction of word B carries no
extension, and one that must stand alone in its bundle is of word A (R177, R181). -/
def Statement (i : Instr) : Prop :=
  (i.isWordA && i.isWordB) = false ∧ (i.isWordB = true → i.ext = none) ∧ (i.loneOnly = true → i.isWordA = true)

theorem nop (r : AR) : Statement (.nop r) := ⟨rfl, fun h => (nomatch h), fun _ => rfl⟩
theorem halt (r : AR) : Statement (.halt r) := ⟨rfl, fun h => (nomatch h), fun _ => rfl⟩
theorem yield (r : AR) : Statement (.yield r) := ⟨rfl, fun h => (nomatch h), fun _ => rfl⟩
theorem br (r : AB) : Statement (.br r) := ⟨rfl, fun h => (nomatch h), fun _ => rfl⟩
theorem jmp (r : AB) : Statement (.jmp r) := ⟨rfl, fun h => (nomatch h), fun _ => rfl⟩
theorem call (r : AC) : Statement (.call r) := ⟨rfl, fun h => (nomatch h), fun _ => rfl⟩
theorem jr (r : AR) : Statement (.jr r) := ⟨rfl, fun h => (nomatch h), fun _ => rfl⟩
theorem loop (r : LoopR) : Statement (.loop r) := ⟨rfl, fun h => (nomatch h), fun _ => rfl⟩
theorem loopi (r : LoopI) : Statement (.loopi r) := ⟨rfl, fun h => (nomatch h), fun _ => rfl⟩
theorem ldB (r : AM) : Statement (.ldB r) := ⟨rfl, fun h => (nomatch h), fun _ => rfl⟩
theorem ldH (r : AM) : Statement (.ldH r) := ⟨rfl, fun h => (nomatch h), fun _ => rfl⟩
theorem ldW (r : AM) : Statement (.ldW r) := ⟨rfl, fun h => (nomatch h), fun _ => rfl⟩
theorem ldD (r : AM) : Statement (.ldD r) := ⟨rfl, fun h => (nomatch h), fun _ => rfl⟩
theorem ldsB (r : AM) : Statement (.ldsB r) := ⟨rfl, fun h => (nomatch h), fun _ => rfl⟩
theorem ldsH (r : AM) : Statement (.ldsH r) := ⟨rfl, fun h => (nomatch h), fun _ => rfl⟩
theorem ldsW (r : AM) : Statement (.ldsW r) := ⟨rfl, fun h => (nomatch h), fun _ => rfl⟩
theorem st (r : AS) : Statement (.st r) := ⟨rfl, fun h => (nomatch h), fun _ => rfl⟩
theorem ldx (r : AX) : Statement (.ldx r) := ⟨rfl, fun h => (nomatch h), fun _ => rfl⟩
theorem stx (r : AX) : Statement (.stx r) := ⟨rfl, fun h => (nomatch h), fun _ => rfl⟩
theorem ldsync (r : AM) : Statement (.ldsync r) := ⟨rfl, fun h => (nomatch h), fun _ => rfl⟩
theorem ldff (r : AM) : Statement (.ldff r) := ⟨rfl, fun h => (nomatch h), fun _ => rfl⟩
theorem stsync (r : AS) : Statement (.stsync r) := ⟨rfl, fun h => (nomatch h), fun _ => rfl⟩
theorem stfill (r : AS) : Statement (.stfill r) := ⟨rfl, fun h => (nomatch h), fun _ => rfl⟩
theorem sete (r : AS) : Statement (.sete r) := ⟨rfl, fun h => (nomatch h), fun _ => rfl⟩
theorem afaa (r : AA) : Statement (.afaa r) := ⟨rfl, fun h => (nomatch h), fun _ => rfl⟩
theorem axchg (r : AA) : Statement (.axchg r) := ⟨rfl, fun h => (nomatch h), fun _ => rfl⟩
theorem acas (r : AA) : Statement (.acas r) := ⟨rfl, fun h => (nomatch h), fun _ => rfl⟩
theorem amin (r : AA) : Statement (.amin r) := ⟨rfl, fun h => (nomatch h), fun _ => rfl⟩
theorem amax (r : AA) : Statement (.amax r) := ⟨rfl, fun h => (nomatch h), fun _ => rfl⟩
theorem aminu (r : AA) : Statement (.aminu r) := ⟨rfl, fun h => (nomatch h), fun _ => rfl⟩
theorem amaxu (r : AA) : Statement (.amaxu r) := ⟨rfl, fun h => (nomatch h), fun _ => rfl⟩
theorem aand (r : AA) : Statement (.aand r) := ⟨rfl, fun h => (nomatch h), fun _ => rfl⟩
theorem aor (r : AA) : Statement (.aor r) := ⟨rfl, fun h => (nomatch h), fun _ => rfl⟩
theorem afaaN (r : AA) : Statement (.afaaN r) := ⟨rfl, fun h => (nomatch h), fun _ => rfl⟩
theorem axchgN (r : AA) : Statement (.axchgN r) := ⟨rfl, fun h => (nomatch h), fun _ => rfl⟩
theorem acasN (r : AA) : Statement (.acasN r) := ⟨rfl, fun h => (nomatch h), fun _ => rfl⟩
theorem aminN (r : AA) : Statement (.aminN r) := ⟨rfl, fun h => (nomatch h), fun _ => rfl⟩
theorem amaxN (r : AA) : Statement (.amaxN r) := ⟨rfl, fun h => (nomatch h), fun _ => rfl⟩
theorem aminuN (r : AA) : Statement (.aminuN r) := ⟨rfl, fun h => (nomatch h), fun _ => rfl⟩
theorem amaxuN (r : AA) : Statement (.amaxuN r) := ⟨rfl, fun h => (nomatch h), fun _ => rfl⟩
theorem aandN (r : AA) : Statement (.aandN r) := ⟨rfl, fun h => (nomatch h), fun _ => rfl⟩
theorem aorN (r : AA) : Statement (.aorN r) := ⟨rfl, fun h => (nomatch h), fun _ => rfl⟩
theorem spin (r : AQ) : Statement (.spin r) := ⟨rfl, fun h => (nomatch h), fun _ => rfl⟩
theorem sflush (r : AQ) : Statement (.sflush r) := ⟨rfl, fun h => (nomatch h), fun _ => rfl⟩
theorem sinv (r : AQ) : Statement (.sinv r) := ⟨rfl, fun h => (nomatch h), fun _ => rfl⟩
theorem pref (r : AQ) : Statement (.pref r) := ⟨rfl, fun h => (nomatch h), fun _ => rfl⟩
theorem fenceH (r : AQ) : Statement (.fenceH r) := ⟨rfl, fun h => (nomatch h), fun _ => rfl⟩
theorem fenceE (r : AQ) : Statement (.fenceE r) := ⟨rfl, fun h => (nomatch h), fun _ => rfl⟩
theorem fenceP (r : AQ) : Statement (.fenceP r) := ⟨rfl, fun h => (nomatch h), fun _ => rfl⟩
theorem chunk (r : AQ) : Statement (.chunk r) := ⟨rfl, fun h => (nomatch h), fun _ => rfl⟩
theorem iflush (r : AQ) : Statement (.iflush r) := ⟨rfl, fun h => (nomatch h), fun _ => rfl⟩
theorem send (r : AK) : Statement (.send r) := ⟨rfl, fun h => (nomatch h), fun _ => rfl⟩
theorem recv (r : AK) : Statement (.recv r) := ⟨rfl, fun h => (nomatch h), fun _ => rfl⟩
theorem peek (r : AK) : Statement (.peek r) := ⟨rfl, fun h => (nomatch h), fun _ => rfl⟩
theorem chstat (r : AK) : Statement (.chstat r) := ⟨rfl, fun h => (nomatch h), fun _ => rfl⟩
theorem waitm (r : AK) : Statement (.waitm r) := ⟨rfl, fun h => (nomatch h), fun _ => rfl⟩
theorem waitmI (r : AK) : Statement (.waitmI r) := ⟨rfl, fun h => (nomatch h), fun _ => rfl⟩
theorem inb (r : AR) : Statement (.inb r) := ⟨rfl, fun h => (nomatch h), fun _ => rfl⟩
theorem msgmask (r : AR) : Statement (.msgmask r) := ⟨rfl, fun h => (nomatch h), fun _ => rfl⟩
theorem retu (r : AR) : Statement (.retu r) := ⟨rfl, fun h => (nomatch h), fun _ => rfl⟩
theorem spawn (r : AR) : Statement (.spawn r) := ⟨rfl, fun h => (nomatch h), fun _ => rfl⟩
theorem tnext (r : AR) : Statement (.tnext r) := ⟨rfl, fun h => (nomatch h), fun _ => rfl⟩
theorem tpost (r : AR) : Statement (.tpost r) := ⟨rfl, fun h => (nomatch h), fun _ => rfl⟩
theorem retj (r : AR) : Statement (.retj r) := ⟨rfl, fun h => (nomatch h), fun _ => rfl⟩
theorem sleep (r : AR) : Statement (.sleep r) := ⟨rfl, fun h => (nomatch h), fun _ => rfl⟩
theorem barw (r : AR) : Statement (.barw r) := ⟨rfl, fun h => (nomatch h), fun _ => rfl⟩
theorem bara (r : AR) : Statement (.bara r) := ⟨rfl, fun h => (nomatch h), fun _ => rfl⟩
theorem barcfg (r : AR) : Statement (.barcfg r) := ⟨rfl, fun h => (nomatch h), fun _ => rfl⟩
theorem cancelL (r : AR) : Statement (.cancelL r) := ⟨rfl, fun h => (nomatch h), fun _ => rfl⟩
theorem cancelG (r : AR) : Statement (.cancelG r) := ⟨rfl, fun h => (nomatch h), fun _ => rfl⟩
theorem cancelJ (r : AR) : Statement (.cancelJ r) := ⟨rfl, fun h => (nomatch h), fun _ => rfl⟩
theorem bcopy (r : AR) : Statement (.bcopy r) := ⟨rfl, fun h => (nomatch h), fun _ => rfl⟩
theorem strm (r : AR) : Statement (.strm r) := ⟨rfl, fun h => (nomatch h), fun _ => rfl⟩
theorem strmx (r : AR) : Statement (.strmx r) := ⟨rfl, fun h => (nomatch h), fun _ => rfl⟩
theorem mbw (r : AR) : Statement (.mbw r) := ⟨rfl, fun h => (nomatch h), fun _ => rfl⟩
theorem mbr (r : AR) : Statement (.mbr r) := ⟨rfl, fun h => (nomatch h), fun _ => rfl⟩
theorem mcfg (r : AR) : Statement (.mcfg r) := ⟨rfl, fun h => (nomatch h), fun _ => rfl⟩
theorem mzero (r : AR) : Statement (.mzero r) := ⟨rfl, fun h => (nomatch h), fun _ => rfl⟩
theorem mma (r : AR) : Statement (.mma r) := ⟨rfl, fun h => (nomatch h), fun _ => rfl⟩
theorem mend (r : AR) : Statement (.mend r) := ⟨rfl, fun h => (nomatch h), fun _ => rfl⟩
theorem msto (r : AR) : Statement (.msto r) := ⟨rfl, fun h => (nomatch h), fun _ => rfl⟩
theorem mstat (r : AR) : Statement (.mstat r) := ⟨rfl, fun h => (nomatch h), fun _ => rfl⟩
theorem gangStart (row : Nat) : Statement (.gangStart row) := ⟨rfl, fun _ => rfl, fun h => (nomatch h)⟩
theorem ganglimExpiry (lpn : Nat) (slot : Nat) (id : Nat) : Statement (.ganglimExpiry lpn slot id) := ⟨rfl, fun _ => rfl, fun h => (nomatch h)⟩
theorem setpos (r : AR) : Statement (.setpos r) := ⟨rfl, fun h => (nomatch h), fun _ => rfl⟩
theorem getpos (r : AR) : Statement (.getpos r) := ⟨rfl, fun h => (nomatch h), fun _ => rfl⟩
theorem publ (r : AR) : Statement (.publ r) := ⟨rfl, fun h => (nomatch h), fun _ => rfl⟩
theorem neigh (r : AR) : Statement (.neigh r) := ⟨rfl, fun h => (nomatch h), fun _ => rfl⟩
theorem nextn (r : AR) : Statement (.nextn r) := ⟨rfl, fun h => (nomatch h), fun _ => rfl⟩
theorem migr (r : AR) : Statement (.migr r) := ⟨rfl, fun h => (nomatch h), fun _ => rfl⟩
theorem whereIs (r : AR) : Statement (.whereIs r) := ⟨rfl, fun h => (nomatch h), fun _ => rfl⟩
theorem anchor (r : AR) : Statement (.anchor r) := ⟨rfl, fun h => (nomatch h), fun _ => rfl⟩
theorem peer (r : AR) : Statement (.peer r) := ⟨rfl, fun h => (nomatch h), fun _ => rfl⟩
theorem sysr (r : AZ) : Statement (.sysr r) := ⟨rfl, fun h => (nomatch h), fun _ => rfl⟩
theorem sysw (r : AZ) : Statement (.sysw r) := ⟨rfl, fun h => (nomatch h), fun _ => rfl⟩
theorem tlbiVa (r : AR) : Statement (.tlbiVa r) := ⟨rfl, fun h => (nomatch h), fun _ => rfl⟩
theorem tlbiJob (r : AR) : Statement (.tlbiJob r) := ⟨rfl, fun h => (nomatch h), fun _ => rfl⟩
theorem tlbiVm (r : AR) : Statement (.tlbiVm r) := ⟨rfl, fun h => (nomatch h), fun _ => rfl⟩
theorem tlbiGpa (r : AR) : Statement (.tlbiGpa r) := ⟨rfl, fun h => (nomatch h), fun _ => rfl⟩
theorem tlbiAll (r : AR) : Statement (.tlbiAll r) := ⟨rfl, fun h => (nomatch h), fun _ => rfl⟩
theorem tlbiInvalidate (core : Nat) : Statement (.tlbiInvalidate core) := ⟨rfl, fun _ => rfl, fun h => (nomatch h)⟩
theorem tlbiDone (lpn : Nat) (slot : Nat) : Statement (.tlbiDone lpn slot) := ⟨rfl, fun _ => rfl, fun h => (nomatch h)⟩
theorem svc (r : AR) : Statement (.svc r) := ⟨rfl, fun h => (nomatch h), fun _ => rfl⟩
theorem eret (r : AR) : Statement (.eret r) := ⟨rfl, fun h => (nomatch h), fun _ => rfl⟩
theorem wake (r : AR) : Statement (.wake r) := ⟨rfl, fun h => (nomatch h), fun _ => rfl⟩
theorem add (r : BR) : Statement (.add r) := ⟨rfl, fun _ => rfl, fun h => (nomatch h)⟩
theorem sub (r : BR) : Statement (.sub r) := ⟨rfl, fun _ => rfl, fun h => (nomatch h)⟩
theorem mul (r : BR) : Statement (.mul r) := ⟨rfl, fun _ => rfl, fun h => (nomatch h)⟩
theorem mulh (r : BR) : Statement (.mulh r) := ⟨rfl, fun _ => rfl, fun h => (nomatch h)⟩
theorem mulhu (r : BR) : Statement (.mulhu r) := ⟨rfl, fun _ => rfl, fun h => (nomatch h)⟩
theorem div (r : BR) : Statement (.div r) := ⟨rfl, fun _ => rfl, fun h => (nomatch h)⟩
theorem divu (r : BR) : Statement (.divu r) := ⟨rfl, fun _ => rfl, fun h => (nomatch h)⟩
theorem rem (r : BR) : Statement (.rem r) := ⟨rfl, fun _ => rfl, fun h => (nomatch h)⟩
theorem remu (r : BR) : Statement (.remu r) := ⟨rfl, fun _ => rfl, fun h => (nomatch h)⟩
theorem and (r : BR) : Statement (.and r) := ⟨rfl, fun _ => rfl, fun h => (nomatch h)⟩
theorem or (r : BR) : Statement (.or r) := ⟨rfl, fun _ => rfl, fun h => (nomatch h)⟩
theorem xor (r : BR) : Statement (.xor r) := ⟨rfl, fun _ => rfl, fun h => (nomatch h)⟩
theorem andn (r : BR) : Statement (.andn r) := ⟨rfl, fun _ => rfl, fun h => (nomatch h)⟩
theorem shl (r : BR) : Statement (.shl r) := ⟨rfl, fun _ => rfl, fun h => (nomatch h)⟩
theorem shr (r : BR) : Statement (.shr r) := ⟨rfl, fun _ => rfl, fun h => (nomatch h)⟩
theorem sar (r : BR) : Statement (.sar r) := ⟨rfl, fun _ => rfl, fun h => (nomatch h)⟩
theorem ror (r : BR) : Statement (.ror r) := ⟨rfl, fun _ => rfl, fun h => (nomatch h)⟩
theorem min (r : BR) : Statement (.min r) := ⟨rfl, fun _ => rfl, fun h => (nomatch h)⟩
theorem max (r : BR) : Statement (.max r) := ⟨rfl, fun _ => rfl, fun h => (nomatch h)⟩
theorem minu (r : BR) : Statement (.minu r) := ⟨rfl, fun _ => rfl, fun h => (nomatch h)⟩
theorem maxu (r : BR) : Statement (.maxu r) := ⟨rfl, fun _ => rfl, fun h => (nomatch h)⟩
theorem clz (r : BR) : Statement (.clz r) := ⟨rfl, fun _ => rfl, fun h => (nomatch h)⟩
theorem ctz (r : BR) : Statement (.ctz r) := ⟨rfl, fun _ => rfl, fun h => (nomatch h)⟩
theorem popc (r : BR) : Statement (.popc r) := ⟨rfl, fun _ => rfl, fun h => (nomatch h)⟩
theorem extr (r : BR) : Statement (.extr r) := ⟨rfl, fun _ => rfl, fun h => (nomatch h)⟩
theorem insr (r : BR) : Statement (.insr r) := ⟨rfl, fun _ => rfl, fun h => (nomatch h)⟩
theorem addi (r : BI) : Statement (.addi r) := ⟨rfl, fun _ => rfl, fun h => (nomatch h)⟩
theorem andi (r : BI) : Statement (.andi r) := ⟨rfl, fun _ => rfl, fun h => (nomatch h)⟩
theorem ori (r : BI) : Statement (.ori r) := ⟨rfl, fun _ => rfl, fun h => (nomatch h)⟩
theorem xori (r : BI) : Statement (.xori r) := ⟨rfl, fun _ => rfl, fun h => (nomatch h)⟩
theorem shli (r : BI) : Statement (.shli r) := ⟨rfl, fun _ => rfl, fun h => (nomatch h)⟩
theorem shri (r : BI) : Statement (.shri r) := ⟨rfl, fun _ => rfl, fun h => (nomatch h)⟩
theorem sari (r : BI) : Statement (.sari r) := ⟨rfl, fun _ => rfl, fun h => (nomatch h)⟩
theorem rori (r : BI) : Statement (.rori r) := ⟨rfl, fun _ => rfl, fun h => (nomatch h)⟩
theorem movi (r : BK) : Statement (.movi r) := ⟨rfl, fun _ => rfl, fun h => (nomatch h)⟩
theorem movh (r : BK) : Statement (.movh r) := ⟨rfl, fun _ => rfl, fun h => (nomatch h)⟩
theorem cmp (r : BC) : Statement (.cmp r) := ⟨rfl, fun _ => rfl, fun h => (nomatch h)⟩
theorem cmpi (r : BC) : Statement (.cmpi r) := ⟨rfl, fun _ => rfl, fun h => (nomatch h)⟩
theorem pand (r : BR) : Statement (.pand r) := ⟨rfl, fun _ => rfl, fun h => (nomatch h)⟩
theorem pandn (r : BR) : Statement (.pandn r) := ⟨rfl, fun _ => rfl, fun h => (nomatch h)⟩
theorem por (r : BR) : Statement (.por r) := ⟨rfl, fun _ => rfl, fun h => (nomatch h)⟩
theorem pxor (r : BR) : Statement (.pxor r) := ⟨rfl, fun _ => rfl, fun h => (nomatch h)⟩
theorem pnot (r : BR) : Statement (.pnot r) := ⟨rfl, fun _ => rfl, fun h => (nomatch h)⟩
theorem rdpw (r : BR) : Statement (.rdpw r) := ⟨rfl, fun _ => rfl, fun h => (nomatch h)⟩
theorem wrpw (r : BR) : Statement (.wrpw r) := ⟨rfl, fun _ => rfl, fun h => (nomatch h)⟩
theorem sel (r : BR) : Statement (.sel r) := ⟨rfl, fun _ => rfl, fun h => (nomatch h)⟩
theorem vadd (r : BR) : Statement (.vadd r) := ⟨rfl, fun _ => rfl, fun h => (nomatch h)⟩
theorem vadds (r : BR) : Statement (.vadds r) := ⟨rfl, fun _ => rfl, fun h => (nomatch h)⟩
theorem vsub (r : BR) : Statement (.vsub r) := ⟨rfl, fun _ => rfl, fun h => (nomatch h)⟩
theorem vsubs (r : BR) : Statement (.vsubs r) := ⟨rfl, fun _ => rfl, fun h => (nomatch h)⟩
theorem vmul (r : BR) : Statement (.vmul r) := ⟨rfl, fun _ => rfl, fun h => (nomatch h)⟩
theorem vmulh (r : BR) : Statement (.vmulh r) := ⟨rfl, fun _ => rfl, fun h => (nomatch h)⟩
theorem vmin (r : BR) : Statement (.vmin r) := ⟨rfl, fun _ => rfl, fun h => (nomatch h)⟩
theorem vmax (r : BR) : Statement (.vmax r) := ⟨rfl, fun _ => rfl, fun h => (nomatch h)⟩
theorem vavg (r : BR) : Statement (.vavg r) := ⟨rfl, fun _ => rfl, fun h => (nomatch h)⟩
theorem vabsd (r : BR) : Statement (.vabsd r) := ⟨rfl, fun _ => rfl, fun h => (nomatch h)⟩
theorem vshl (r : BR) : Statement (.vshl r) := ⟨rfl, fun _ => rfl, fun h => (nomatch h)⟩
theorem vshr (r : BR) : Statement (.vshr r) := ⟨rfl, fun _ => rfl, fun h => (nomatch h)⟩
theorem vcmpeq (r : BR) : Statement (.vcmpeq r) := ⟨rfl, fun _ => rfl, fun h => (nomatch h)⟩
theorem vcmpgt (r : BR) : Statement (.vcmpgt r) := ⟨rfl, fun _ => rfl, fun h => (nomatch h)⟩
theorem vsplat (r : BR) : Statement (.vsplat r) := ⟨rfl, fun _ => rfl, fun h => (nomatch h)⟩
theorem vpack (r : BR) : Statement (.vpack r) := ⟨rfl, fun _ => rfl, fun h => (nomatch h)⟩
theorem vunpk (r : BR) : Statement (.vunpk r) := ⟨rfl, fun _ => rfl, fun h => (nomatch h)⟩
theorem fadd (r : BR) : Statement (.fadd r) := ⟨rfl, fun _ => rfl, fun h => (nomatch h)⟩
theorem fsub (r : BR) : Statement (.fsub r) := ⟨rfl, fun _ => rfl, fun h => (nomatch h)⟩
theorem fmul (r : BR) : Statement (.fmul r) := ⟨rfl, fun _ => rfl, fun h => (nomatch h)⟩
theorem fdiv (r : BR) : Statement (.fdiv r) := ⟨rfl, fun _ => rfl, fun h => (nomatch h)⟩
theorem fsqrt (r : BR) : Statement (.fsqrt r) := ⟨rfl, fun _ => rfl, fun h => (nomatch h)⟩
theorem fmin (r : BR) : Statement (.fmin r) := ⟨rfl, fun _ => rfl, fun h => (nomatch h)⟩
theorem fmax (r : BR) : Statement (.fmax r) := ⟨rfl, fun _ => rfl, fun h => (nomatch h)⟩
theorem fma (r : BR) : Statement (.fma r) := ⟨rfl, fun _ => rfl, fun h => (nomatch h)⟩
theorem fneg (r : BR) : Statement (.fneg r) := ⟨rfl, fun _ => rfl, fun h => (nomatch h)⟩
theorem fabs (r : BR) : Statement (.fabs r) := ⟨rfl, fun _ => rfl, fun h => (nomatch h)⟩
theorem fcmp (r : BF) : Statement (.fcmp r) := ⟨rfl, fun _ => rfl, fun h => (nomatch h)⟩
theorem fclass (r : BR) : Statement (.fclass r) := ⟨rfl, fun _ => rfl, fun h => (nomatch h)⟩
theorem fcvt (r : BV) : Statement (.fcvt r) := ⟨rfl, fun _ => rfl, fun h => (nomatch h)⟩
theorem bundleIssue (core : Nat) (slot : Nat) : Statement (.bundleIssue core slot) := ⟨rfl, fun _ => rfl, fun h => (nomatch h)⟩
theorem rotationBoundary (core : Nat) : Statement (.rotationBoundary core) := ⟨rfl, fun _ => rfl, fun h => (nomatch h)⟩
theorem landingResult (id : Nat) : Statement (.landingResult id) := ⟨rfl, fun _ => rfl, fun h => (nomatch h)⟩
theorem remoteReply (id : Nat) : Statement (.remoteReply id) := ⟨rfl, fun _ => rfl, fun h => (nomatch h)⟩
theorem timingReplay (lpn : Nat) (slot : Nat) : Statement (.timingReplay lpn slot) := ⟨rfl, fun _ => rfl, fun h => (nomatch h)⟩
theorem egressLatchRelease (core : Nat) : Statement (.egressLatchRelease core) := ⟨rfl, fun _ => rfl, fun h => (nomatch h)⟩
theorem chunkCommit (lpn : Nat) (slot : Nat) : Statement (.chunkCommit lpn slot) := ⟨rfl, fun _ => rfl, fun h => (nomatch h)⟩
theorem domainAcquire (dom : Nat) (lpn : Nat) (slot : Nat) : Statement (.domainAcquire dom lpn slot) := ⟨rfl, fun _ => rfl, fun h => (nomatch h)⟩
theorem domainApply (dom : Nat) (lpn : Nat) (slot : Nat) : Statement (.domainApply dom lpn slot) := ⟨rfl, fun _ => rfl, fun h => (nomatch h)⟩
theorem pinWaitLimit (lpn : Nat) (slot : Nat) : Statement (.pinWaitLimit lpn slot) := ⟨rfl, fun _ => rfl, fun h => (nomatch h)⟩
theorem engineElementWrite (id : Nat) : Statement (.engineElementWrite id) := ⟨rfl, fun _ => rfl, fun h => (nomatch h)⟩
theorem engineElementRead (id : Nat) : Statement (.engineElementRead id) := ⟨rfl, fun _ => rfl, fun h => (nomatch h)⟩
theorem engineCompletion (id : Nat) : Statement (.engineCompletion id) := ⟨rfl, fun _ => rfl, fun h => (nomatch h)⟩
theorem inboxEntryPlace (lpn : Nat) : Statement (.inboxEntryPlace lpn) := ⟨rfl, fun _ => rfl, fun h => (nomatch h)⟩
theorem remoteRequest (id : Nat) : Statement (.remoteRequest id) := ⟨rfl, fun _ => rfl, fun h => (nomatch h)⟩
theorem refusalArrival (id : Nat) : Statement (.refusalArrival id) := ⟨rfl, fun _ => rfl, fun h => (nomatch h)⟩
theorem fullEmptyService (lpn : Nat) (off : Nat) : Statement (.fullEmptyService lpn off) := ⟨rfl, fun _ => rfl, fun h => (nomatch h)⟩
theorem waitListRetry (lpn : Nat) (slot : Nat) : Statement (.waitListRetry lpn slot) := ⟨rfl, fun _ => rfl, fun h => (nomatch h)⟩
theorem busyReissue (lpn : Nat) (slot : Nat) : Statement (.busyReissue lpn slot) := ⟨rfl, fun _ => rfl, fun h => (nomatch h)⟩
theorem waitlimExpiry (lpn : Nat) (slot : Nat) (id : Nat) : Statement (.waitlimExpiry lpn slot id) := ⟨rfl, fun _ => rfl, fun h => (nomatch h)⟩
theorem waitWithdrawal (id : Nat) : Statement (.waitWithdrawal id) := ⟨rfl, fun _ => rfl, fun h => (nomatch h)⟩
theorem barlimExpiry (lpn : Nat) (slot : Nat) (id : Nat) : Statement (.barlimExpiry lpn slot id) := ⟨rfl, fun _ => rfl, fun h => (nomatch h)⟩
theorem segStageWrite (n : BitVec 3) (v : BitVec 64) : Statement (.segStageWrite n v) := ⟨rfl, fun _ => rfl, fun h => (nomatch h)⟩
theorem segCommit (n : BitVec 3) (v : BitVec 64) : Statement (.segCommit n v) := ⟨rfl, fun _ => rfl, fun h => (nomatch h)⟩
theorem coretagWrite (v : BitVec 64) : Statement (.coretagWrite v) := ⟨rfl, fun _ => rfl, fun h => (nomatch h)⟩
theorem xrootWrite (v : BitVec 64) : Statement (.xrootWrite v) := ⟨rfl, fun _ => rfl, fun h => (nomatch h)⟩
theorem lmmapWrite (v : BitVec 64) : Statement (.lmmapWrite v) := ⟨rfl, fun _ => rfl, fun h => (nomatch h)⟩
theorem pageWalk (row : Nat) : Statement (.pageWalk row) := ⟨rfl, fun _ => rfl, fun h => (nomatch h)⟩
theorem parkedAnswer (seq : BitVec 32) (inv : Bool) : Statement (.parkedAnswer seq inv) := ⟨rfl, fun _ => rfl, fun h => (nomatch h)⟩
theorem stashFillReply (id : Nat) : Statement (.stashFillReply id) := ⟨rfl, fun _ => rfl, fun h => (nomatch h)⟩
theorem stashInvalidate (core : Nat) (sec : Nat) : Statement (.stashInvalidate core sec) := ⟨rfl, fun _ => rfl, fun h => (nomatch h)⟩
theorem stashRecall (core : Nat) (sec : Nat) (inv : Bool) : Statement (.stashRecall core sec inv) := ⟨rfl, fun _ => rfl, fun h => (nomatch h)⟩
theorem stashRevoke (core : Nat) (sec : Nat) : Statement (.stashRevoke core sec) := ⟨rfl, fun _ => rfl, fun h => (nomatch h)⟩
theorem exclusiveGrant (core : Nat) (sec : Nat) : Statement (.exclusiveGrant core sec) := ⟨rfl, fun _ => rfl, fun h => (nomatch h)⟩
theorem l2FillRequest (id : Nat) : Statement (.l2FillRequest id) := ⟨rfl, fun _ => rfl, fun h => (nomatch h)⟩
theorem l2OwnershipRequest (id : Nat) : Statement (.l2OwnershipRequest id) := ⟨rfl, fun _ => rfl, fun h => (nomatch h)⟩
theorem l2DropNotice (id : Nat) : Statement (.l2DropNotice id) := ⟨rfl, fun _ => rfl, fun h => (nomatch h)⟩
theorem l2Writeback (id : Nat) : Statement (.l2Writeback id) := ⟨rfl, fun _ => rfl, fun h => (nomatch h)⟩
theorem l2InvalidateAck (id : Nat) : Statement (.l2InvalidateAck id) := ⟨rfl, fun _ => rfl, fun h => (nomatch h)⟩
theorem l2Atomic (id : Nat) : Statement (.l2Atomic id) := ⟨rfl, fun _ => rfl, fun h => (nomatch h)⟩
theorem omegaCombine (first : Nat) (second : Nat) : Statement (.omegaCombine first second) := ⟨rfl, fun _ => rfl, fun h => (nomatch h)⟩
theorem combineSplit (id : Nat) : Statement (.combineSplit id) := ⟨rfl, fun _ => rfl, fun h => (nomatch h)⟩
theorem tileRequest (id : Nat) : Statement (.tileRequest id) := ⟨rfl, fun _ => rfl, fun h => (nomatch h)⟩
theorem tileMergeClose (slice : Nat) (line : Nat) : Statement (.tileMergeClose slice line) := ⟨rfl, fun _ => rfl, fun h => (nomatch h)⟩
theorem tilePinRelease (core : Nat) (line : Nat) : Statement (.tilePinRelease core line) := ⟨rfl, fun _ => rfl, fun h => (nomatch h)⟩
theorem maskScrub (slice : Nat) : Statement (.maskScrub slice) := ⟨rfl, fun _ => rfl, fun h => (nomatch h)⟩
theorem bucketRefill (slice : Nat) : Statement (.bucketRefill slice) := ⟨rfl, fun _ => rfl, fun h => (nomatch h)⟩
theorem tokenRetry (slice : Nat) : Statement (.tokenRetry slice) := ⟨rfl, fun _ => rfl, fun h => (nomatch h)⟩
theorem l2partWrite (vmid : BitVec 8) (v : BitVec 64) : Statement (.l2partWrite vmid v) := ⟨rfl, fun _ => rfl, fun h => (nomatch h)⟩
theorem l2bwWrite (vmid : BitVec 8) (v : BitVec 64) : Statement (.l2bwWrite vmid v) := ⟨rfl, fun _ => rfl, fun h => (nomatch h)⟩
theorem l2statClear : Statement (.l2statClear) := ⟨rfl, fun _ => rfl, fun h => (nomatch h)⟩
theorem s2Translate (id : Nat) : Statement (.s2Translate id) := ⟨rfl, fun _ => rfl, fun h => (nomatch h)⟩
theorem s2UpgradeCheck (id : Nat) : Statement (.s2UpgradeCheck id) := ⟨rfl, fun _ => rfl, fun h => (nomatch h)⟩
theorem s2BlockedRetry (id : Nat) : Statement (.s2BlockedRetry id) := ⟨rfl, fun _ => rfl, fun h => (nomatch h)⟩
theorem mscFill (id : Nat) : Statement (.mscFill id) := ⟨rfl, fun _ => rfl, fun h => (nomatch h)⟩
theorem mscWriteback (id : Nat) : Statement (.mscWriteback id) := ⟨rfl, fun _ => rfl, fun h => (nomatch h)⟩
theorem mscNonallocWrite (id : Nat) : Statement (.mscNonallocWrite id) := ⟨rfl, fun _ => rfl, fun h => (nomatch h)⟩
theorem controllerFillReturn (id : Nat) (lost : Bool) : Statement (.controllerFillReturn id lost) := ⟨rfl, fun _ => rfl, fun h => (nomatch h)⟩
theorem psnansRepaired (seq : BitVec 32) : Statement (.psnansRepaired seq) := ⟨rfl, fun _ => rfl, fun h => (nomatch h)⟩
theorem psnansLost (seq : BitVec 32) : Statement (.psnansLost seq) := ⟨rfl, fun _ => rfl, fun h => (nomatch h)⟩
theorem repairTimeout (seq : BitVec 32) : Statement (.repairTimeout seq) := ⟨rfl, fun _ => rfl, fun h => (nomatch h)⟩
theorem pgblkBlock (v : BitVec 64) : Statement (.pgblkBlock v) := ⟨rfl, fun _ => rfl, fun h => (nomatch h)⟩
theorem pgblkAbandon (v : BitVec 64) : Statement (.pgblkAbandon v) := ⟨rfl, fun _ => rfl, fun h => (nomatch h)⟩
theorem pageDrainDone (block : BitVec 3) : Statement (.pageDrainDone block) := ⟨rfl, fun _ => rfl, fun h => (nomatch h)⟩
theorem pageCopyStart (v : BitVec 64) : Statement (.pageCopyStart v) := ⟨rfl, fun _ => rfl, fun h => (nomatch h)⟩
theorem pageCopyDone : Statement (.pageCopyDone) := ⟨rfl, fun _ => rfl, fun h => (nomatch h)⟩
theorem checkpointStart : Statement (.checkpointStart) := ⟨rfl, fun _ => rfl, fun h => (nomatch h)⟩
theorem powerFailInput : Statement (.powerFailInput) := ⟨rfl, fun _ => rfl, fun h => (nomatch h)⟩
theorem checkpointFlush : Statement (.checkpointFlush) := ⟨rfl, fun _ => rfl, fun h => (nomatch h)⟩
theorem checkpointCopy : Statement (.checkpointCopy) := ⟨rfl, fun _ => rfl, fun h => (nomatch h)⟩
theorem checkpointSeal : Statement (.checkpointSeal) := ⟨rfl, fun _ => rfl, fun h => (nomatch h)⟩
theorem launchComplete (id : Nat) : Statement (.launchComplete id) := ⟨rfl, fun _ => rfl, fun h => (nomatch h)⟩
theorem messageArrive (id : Nat) : Statement (.messageArrive id) := ⟨rfl, fun _ => rfl, fun h => (nomatch h)⟩
theorem skipNoticeArrive (id : Nat) : Statement (.skipNoticeArrive id) := ⟨rfl, fun _ => rfl, fun h => (nomatch h)⟩
theorem messageAck (id : Nat) : Statement (.messageAck id) := ⟨rfl, fun _ => rfl, fun h => (nomatch h)⟩
theorem messageRefused (id : Nat) : Statement (.messageRefused id) := ⟨rfl, fun _ => rfl, fun h => (nomatch h)⟩
theorem messageReoffer (lpn : Nat) (slot : Nat) : Statement (.messageReoffer lpn slot) := ⟨rfl, fun _ => rfl, fun h => (nomatch h)⟩
theorem skipNoticeReoffer (id : Nat) : Statement (.skipNoticeReoffer id) := ⟨rfl, fun _ => rfl, fun h => (nomatch h)⟩
theorem sendlimExpiry (lpn : Nat) (slot : Nat) (id : Nat) : Statement (.sendlimExpiry lpn slot id) := ⟨rfl, fun _ => rfl, fun h => (nomatch h)⟩
theorem placementUpdate (core : Nat) (lpn : Nat) (host : Nat) : Statement (.placementUpdate core lpn host) := ⟨rfl, fun _ => rfl, fun h => (nomatch h)⟩
theorem userInterruptDeliver (lpn : Nat) (slot : Nat) : Statement (.userInterruptDeliver lpn slot) := ⟨rfl, fun _ => rfl, fun h => (nomatch h)⟩
theorem mailboxService (lpn : Nat) (n : BitVec 2) : Statement (.mailboxService lpn n) := ⟨rfl, fun _ => rfl, fun h => (nomatch h)⟩
theorem streamReadAhead (core : Nat) (n : BitVec 2) : Statement (.streamReadAhead core n) := ⟨rfl, fun _ => rfl, fun h => (nomatch h)⟩
theorem doorbellWrite (queue : BitVec 16) (v : BitVec 32) : Statement (.doorbellWrite queue v) := ⟨rfl, fun _ => rfl, fun h => (nomatch h)⟩
theorem doorbellHeadRead (queue : BitVec 16) : Statement (.doorbellHeadRead queue) := ⟨rfl, fun _ => rfl, fun h => (nomatch h)⟩
theorem dqptrWrite (v : BitVec 64) : Statement (.dqptrWrite v) := ⟨rfl, fun _ => rfl, fun h => (nomatch h)⟩
theorem dispatch : Statement (.dispatch) := ⟨rfl, fun _ => rfl, fun h => (nomatch h)⟩
theorem depReread (queue : Nat) : Statement (.depReread queue) := ⟨rfl, fun _ => rfl, fun h => (nomatch h)⟩
theorem taskRecordRetry (queue : Nat) : Statement (.taskRecordRetry queue) := ⟨rfl, fun _ => rfl, fun h => (nomatch h)⟩
theorem remoteLaunchRecord (rec : List (BitVec 64)) (job : BitVec 16) (vmid : BitVec 8) (root : BitVec 64) (lid : BitVec 16) (pg : Bool) : Statement (.remoteLaunchRecord rec job vmid root lid pg) := ⟨rfl, fun _ => rfl, fun h => (nomatch h)⟩
theorem launchWake (id : Nat) : Statement (.launchWake id) := ⟨rfl, fun _ => rfl, fun h => (nomatch h)⟩
theorem launchStart (core : Nat) : Statement (.launchStart core) := ⟨rfl, fun _ => rfl, fun h => (nomatch h)⟩
theorem preemptSelect (core : Nat) : Statement (.preemptSelect core) := ⟨rfl, fun _ => rfl, fun h => (nomatch h)⟩
theorem cocoonSaveDone (core : Nat) : Statement (.cocoonSaveDone core) := ⟨rfl, fun _ => rfl, fun h => (nomatch h)⟩
theorem continuationRetry (lpn : Nat) : Statement (.continuationRetry lpn) := ⟨rfl, fun _ => rfl, fun h => (nomatch h)⟩
theorem tpostRetry (lpn : Nat) (slot : Nat) : Statement (.tpostRetry lpn slot) := ⟨rfl, fun _ => rfl, fun h => (nomatch h)⟩
theorem sleepExpiry (lpn : Nat) (slot : Nat) (id : Nat) : Statement (.sleepExpiry lpn slot id) := ⟨rfl, fun _ => rfl, fun h => (nomatch h)⟩
theorem carryPacketArrive (id : Nat) : Statement (.carryPacketArrive id) := ⟨rfl, fun _ => rfl, fun h => (nomatch h)⟩
theorem carryAck (id : Nat) : Statement (.carryAck id) := ⟨rfl, fun _ => rfl, fun h => (nomatch h)⟩
theorem carryRefused (id : Nat) : Statement (.carryRefused id) := ⟨rfl, fun _ => rfl, fun h => (nomatch h)⟩
theorem carryReoffer (id : Nat) : Statement (.carryReoffer id) := ⟨rfl, fun _ => rfl, fun h => (nomatch h)⟩
theorem fieldcfgWrite (v : BitVec 64) : Statement (.fieldcfgWrite v) := ⟨rfl, fun _ => rfl, fun h => (nomatch h)⟩
theorem fieldStepNotice (core : Nat) (owner : Nat) (gen : BitVec 16) : Statement (.fieldStepNotice core owner gen) := ⟨rfl, fun _ => rfl, fun h => (nomatch h)⟩
theorem fieldResidentCount (core : Nat) (src : Nat) (n : Nat) : Statement (.fieldResidentCount core src n) := ⟨rfl, fun _ => rfl, fun h => (nomatch h)⟩
theorem fieldHandover (core : Nat) : Statement (.fieldHandover core) := ⟨rfl, fun _ => rfl, fun h => (nomatch h)⟩
theorem fieldSnapshot (core : Nat) : Statement (.fieldSnapshot core) := ⟨rfl, fun _ => rfl, fun h => (nomatch h)⟩
theorem fieldHaloCopy (core : Nat) (src : Nat) : Statement (.fieldHaloCopy core src) := ⟨rfl, fun _ => rfl, fun h => (nomatch h)⟩
theorem fieldStepRelease (owner : Nat) : Statement (.fieldStepRelease owner) := ⟨rfl, fun _ => rfl, fun h => (nomatch h)⟩
theorem placementLookup (core : Nat) (lpn : Nat) : Statement (.placementLookup core lpn) := ⟨rfl, fun _ => rfl, fun h => (nomatch h)⟩
theorem forwardItem (id : Nat) (core : Nat) : Statement (.forwardItem id core) := ⟨rfl, fun _ => rfl, fun h => (nomatch h)⟩
theorem flutterSweep (core : Nat) : Statement (.flutterSweep core) := ⟨rfl, fun _ => rfl, fun h => (nomatch h)⟩
theorem weightReport (id : Nat) : Statement (.weightReport id) := ⟨rfl, fun _ => rfl, fun h => (nomatch h)⟩
theorem flutterPropose (core : Nat) : Statement (.flutterPropose core) := ⟨rfl, fun _ => rfl, fun h => (nomatch h)⟩
theorem proposalAnswer (core : Nat) (src : Nat) : Statement (.proposalAnswer core src) := ⟨rfl, fun _ => rfl, fun h => (nomatch h)⟩
theorem proposalDecide (core : Nat) : Statement (.proposalDecide core) := ⟨rfl, fun _ => rfl, fun h => (nomatch h)⟩
theorem decisionReceive (core : Nat) : Statement (.decisionReceive core) := ⟨rfl, fun _ => rfl, fun h => (nomatch h)⟩
theorem swapFreeze (x : Nat) (y : Nat) : Statement (.swapFreeze x y) := ⟨rfl, fun _ => rfl, fun h => (nomatch h)⟩
theorem swapMove (x : Nat) (y : Nat) : Statement (.swapMove x y) := ⟨rfl, fun _ => rfl, fun h => (nomatch h)⟩
theorem swapFlip (x : Nat) (y : Nat) : Statement (.swapFlip x y) := ⟨rfl, fun _ => rfl, fun h => (nomatch h)⟩
theorem swapResume (x : Nat) (y : Nat) : Statement (.swapResume x y) := ⟨rfl, fun _ => rfl, fun h => (nomatch h)⟩
theorem placementInvalidate (core : Nat) (lpn : Nat) : Statement (.placementInvalidate core lpn) := ⟨rfl, fun _ => rfl, fun h => (nomatch h)⟩
theorem forwardRetire (core : Nat) (lpn : Nat) : Statement (.forwardRetire core lpn) := ⟨rfl, fun _ => rfl, fun h => (nomatch h)⟩
theorem bar2Access (vf : Nat) (addr : BitVec 40) (wr : Bool) (v : BitVec 64) : Statement (.bar2Access vf addr wr v) := ⟨rfl, fun _ => rfl, fun h => (nomatch h)⟩
theorem hostWindowCompletion (id : Nat) (ok : Bool) (v : BitVec 64) : Statement (.hostWindowCompletion id ok v) := ⟨rfl, fun _ => rfl, fun h => (nomatch h)⟩
theorem bronexAuthFail (link : Nat) : Statement (.bronexAuthFail link) := ⟨rfl, fun _ => rfl, fun h => (nomatch h)⟩
theorem bronexLinkFail (link : Nat) : Statement (.bronexLinkFail link) := ⟨rfl, fun _ => rfl, fun h => (nomatch h)⟩
theorem routeWaitTimeout (id : Nat) : Statement (.routeWaitTimeout id) := ⟨rfl, fun _ => rfl, fun h => (nomatch h)⟩
theorem powerGate (core : Nat) : Statement (.powerGate core) := ⟨rfl, fun _ => rfl, fun h => (nomatch h)⟩
theorem coreWake (core : Nat) : Statement (.coreWake core) := ⟨rfl, fun _ => rfl, fun h => (nomatch h)⟩
theorem thermalRunaway (row : Nat) : Statement (.thermalRunaway row) := ⟨rfl, fun _ => rfl, fun h => (nomatch h)⟩
theorem powerInterval : Statement (.powerInterval) := ⟨rfl, fun _ => rfl, fun h => (nomatch h)⟩
theorem voltageGlitch : Statement (.voltageGlitch) := ⟨rfl, fun _ => rfl, fun h => (nomatch h)⟩
theorem clockGlitch : Statement (.clockGlitch) := ⟨rfl, fun _ => rfl, fun h => (nomatch h)⟩
theorem tamperLoopOpen : Statement (.tamperLoopOpen) := ⟨rfl, fun _ => rfl, fun h => (nomatch h)⟩
theorem chrysalisAlarm (src : Nat) (tenants : List Nat) : Statement (.chrysalisAlarm src tenants) := ⟨rfl, fun _ => rfl, fun h => (nomatch h)⟩
theorem chalcfgWrite (v : BitVec 64) : Statement (.chalcfgWrite v) := ⟨rfl, fun _ => rfl, fun h => (nomatch h)⟩
theorem challogClear : Statement (.challogClear) := ⟨rfl, fun _ => rfl, fun h => (nomatch h)⟩
theorem attestationReport (nonce : BitVec 256) : Statement (.attestationReport nonce) := ⟨rfl, fun _ => rfl, fun h => (nomatch h)⟩
theorem chrysalisBoot (sigOk : Bool) (version : BitVec 64) (hash : BitVec 256) : Statement (.chrysalisBoot sigOk version hash) := ⟨rfl, fun _ => rfl, fun h => (nomatch h)⟩
theorem reset : Statement (.reset) := ⟨rfl, fun _ => rfl, fun h => (nomatch h)⟩
theorem stopByLomter (lpn : Nat) (slot : Nat) : Statement (.stopByLomter lpn slot) := ⟨rfl, fun _ => rfl, fun h => (nomatch h)⟩
theorem slotRestart (lpn : Nat) (slot : Nat) (release : Bool) : Statement (.slotRestart lpn slot release) := ⟨rfl, fun _ => rfl, fun h => (nomatch h)⟩
theorem thaw (core : Nat) : Statement (.thaw core) := ⟨rfl, fun _ => rfl, fun h => (nomatch h)⟩
theorem jobEnd (job : BitVec 16) : Statement (.jobEnd job) := ⟨rfl, fun _ => rfl, fun h => (nomatch h)⟩
theorem bronexLinkUp (link : Nat) (domain : BitVec 8) : Statement (.bronexLinkUp link domain) := ⟨rfl, fun _ => rfl, fun h => (nomatch h)⟩
theorem rowSensorReading (row : Nat) (temp : BitVec 12) (pwr : BitVec 12) : Statement (.rowSensorReading row temp pwr) := ⟨rfl, fun _ => rfl, fun h => (nomatch h)⟩

end Sys2Proof.Laws.Shape
end

