-- ==== Sys2Proof/Tests/Slice0.lean ====
section
/-!
SUPPORT. Tests: the checks of well-formedness, a decoded word of every instruction, witnesses that the hypotheses of the
statements can be met, and small effects of one step. Expected values come from the spec: its tables, its worked examples, or
arithmetic by hand from its rules.
-/

open Sys2Proof Sys2Proof.Machine

namespace Sys2Proof.Tests

set_option Elab.async false

/-! ## Decoding (08 R176 to R196): a word of every instruction, written from its format and its row of the map -/

def ar (d a b : Reg) (g : Sys2Proof.Pred) (sa sb : Bool) : AR := { d := d, a := a, b := b, g := g, sa := sa, sb := sb, x := none }
def ak (d a b : Reg) (g : Sys2Proof.Pred) (k n : BitVec 3) : AK := { d := d, a := a, b := b, g := g, k := k, n := n, x := none }
def am (d a : Reg) (seg : Seg) (o : BitVec 4) (g : Sys2Proof.Pred) (la : BitVec 4) : AM :=
  { d := d, a := a, seg := seg, o := o, g := g, la := la, x := none }
def as (d a : Reg) (seg : Seg) (f : BitVec 2) (g : Sys2Proof.Pred) (off : BitVec 6) : AS :=
  { d := d, a := a, seg := seg, f := f, g := g, off := off, x := none }
def ax (d a : Reg) (seg : Seg) (sz : BitVec 2) (g : Sys2Proof.Pred) (la : BitVec 4) (sx : Bool) : AX :=
  { d := d, a := a, seg := seg, sz := sz, g := g, la := la, sx := sx, x := none }
def aq (a : Reg) (seg : Seg) (g : Sys2Proof.Pred) : AQ := { a := a, seg := seg, g := g, x := none }
def aa (d a b : Reg) (g : Sys2Proof.Pred) (seg : Seg) (off : BitVec 16) (la : BitVec 4) (sz : Bool) : AA :=
  { d := d, a := a, b := b, g := g, seg := seg, off := off, la := la, sz := sz }
def az (d : Reg) (num : BitVec 12) (g : Sys2Proof.Pred) (sd : Bool) : AZ := { d := d, num := num, g := g, sd := sd }
def ab (disp : BitVec 21) (g : Sys2Proof.Pred) : AB := { disp := disp, g := g }
def ac (d : Reg) (disp : BitVec 16) (g : Sys2Proof.Pred) : AC := { d := d, disp := disp, g := g, x := none }
def lr (a : Reg) (sa lc : Bool) (bl : BitVec 7) : LoopR := { a := a, sa := sa, lc := lc, bl := bl }
def li (count : BitVec 16) (lc : Bool) (bl : BitVec 7) : LoopI := { count := count, lc := lc, bl := bl }
def br (d a : Reg) (sa : Bool) (b : Reg) (sb : Bool) (g : Sys2Proof.Pred) (fn : BitVec 4) : BR :=
  { d := d, a := a, b := b, sa := sa, sb := sb, g := g, fn := fn }
def bi (d a : Reg) (sa : Bool) (imm : BitVec 10) (g : Sys2Proof.Pred) : BI := { d := d, a := a, sa := sa, imm := imm, g := g }
def bk (d : Reg) (imm : BitVec 16) (g : Sys2Proof.Pred) : BK := { d := d, imm := imm, g := g }
def bc (pd : Sys2Proof.Pred) (a : Reg) (sa : Bool) (b : Reg) (sb : Bool) (g : Sys2Proof.Pred) (cond : BitVec 4) : BC :=
  { pd := pd, a := a, b := b, sa := sa, sb := sb, g := g, cond := cond }
def bf (cond : BitVec 2) (pd : Sys2Proof.Pred) (a : Reg) (sa : Bool) (b : Reg) (sb : Bool) (g : Sys2Proof.Pred) (fmt : BitVec 4) : BF :=
  { cond := cond, pd := pd, a := a, b := b, sa := sa, sb := sb, g := g, fmt := fmt }
def bv (d a : Reg) (sa : Bool) (src : BitVec 5) (g : Sys2Proof.Pred) (dst : BitVec 4) : BV :=
  { d := d, a := a, sa := sa, src := src, g := g, dst := dst }

/-- Word A alone in its bundle, L = 1. -/
def lone (w : W32) : Option Instr := (decodeWords w 0).map fun u => u.a

/-- Word A with its extension. -/
def extended (w x : W32) : Option Instr := (decodeWords w x).map fun u => u.a

/-- Word B under a NOP. -/
def second (w : W32) : Option Instr := (decodeWords 0 w).bind fun u => u.b

/-- Words A of NOP to LD_W (R182 to R187, R190, R191). -/
theorem test_decode_wordA_1 :
    [lone 0x80000140,
      lone 0x80000148,
      lone 0x80000150,
      lone 0x814C6D56,
      lone 0x820C6D56,
      lone 0x834C6D56,
      lone 0x844C4144,
      lone 0x85046056,
      lone 0x864C6D56,
      lone 0x884C6D56,
      lone 0x894C6D56,
      lone 0x8A4C6D56] =
    [some (.nop (ar 0 0 0 5 false false)),
      some (.halt (ar 0 0 0 5 false false)),
      some (.yield (ar 0 0 0 5 false false)),
      some (.br (ab 626070 5)),
      some (.jmp (ab 101782 5)),
      some (.call (ac 9 36246 5)),
      some (.jr (ar 9 17 0 5 true false)),
      some (.loop (lr 17 true false 86)),
      some (.loopi (li 19565 false 86)),
      some (.ldB (am 9 17 5 10 5 5)),
      some (.ldH (am 9 17 5 10 5 5)),
      some (.ldW (am 9 17 5 10 5 5))] := by decide

/-- Words A of LD_D to SETE (R182 to R187, R190, R191). -/
theorem test_decode_wordA_2 :
    [lone 0x8B4C6D56,
      lone 0x8C4C6D56,
      lone 0x8D4C6D56,
      lone 0x8E4C6D56,
      lone 0x8F4C6D56,
      lone 0x904C6B6E,
      lone 0x914C6D40,
      lone 0x924C6D56,
      lone 0x934C6D56,
      lone 0x944C6956,
      lone 0x944C6B56,
      lone 0x94046D56] =
    [some (.ldD (am 9 17 5 10 5 5)),
      some (.ldsB (am 9 17 5 10 5 5)),
      some (.ldsH (am 9 17 5 10 5 5)),
      some (.ldsW (am 9 17 5 10 5 5)),
      some (.st (as 9 17 5 2 5 22)),
      some (.ldx (ax 9 17 5 1 5 11 true)),
      some (.stx (ax 9 17 5 2 5 0 false)),
      some (.ldsync (am 9 17 5 10 5 5)),
      some (.ldff (am 9 17 5 10 5 5)),
      some (.stsync (as 9 17 5 0 5 22)),
      some (.stfill (as 9 17 5 1 5 22)),
      some (.sete (as 0 17 5 2 5 22))] := by decide

/-- Words A of SPIN to PEEK (R182 to R187, R190, R191). -/
theorem test_decode_wordA_3 :
    [lone 0x97046940,
      lone 0x97046948,
      lone 0x97046950,
      lone 0x97046958,
      lone 0x97000160,
      lone 0x97000161,
      lone 0x97000162,
      lone 0x97000168,
      lone 0x97000170,
      lone 0x98482D73,
      lone 0x994C4173,
      lone 0x9A4C4173] =
    [some (.spin (aq 17 5 5)),
      some (.sflush (aq 17 5 5)),
      some (.sinv (aq 17 5 5)),
      some (.pref (aq 17 5 5)),
      some (.fenceH (aq 0 0 5)),
      some (.fenceE (aq 0 0 5)),
      some (.fenceP (aq 0 0 5)),
      some (.chunk (aq 0 0 5)),
      some (.iflush (aq 0 0 5)),
      some (.send (ak 9 0 22 5 6 3)),
      some (.recv (ak 9 17 0 5 6 3)),
      some (.peek (ak 9 17 0 5 6 3))] := by decide

/-- Words A of CHSTAT to BARW (R182 to R187, R190, R191). -/
theorem test_decode_wordA_4 :
    [lone 0x9B480170,
      lone 0x9C000170,
      lone 0x9C000141,
      lone 0x9D480140,
      lone 0x9E482D40,
      lone 0x9F000140,
      lone 0xA00C6D46,
      lone 0xA1480140,
      lone 0xA2046D46,
      lone 0xA3000140,
      lone 0xA4482D42,
      lone 0xA54C6D46] =
    [some (.chstat (ak 9 0 0 5 6 0)),
      some (.waitm (ak 0 0 0 5 6 0)),
      some (.waitmI (ak 0 0 0 5 0 1)),
      some (.inb (ar 9 0 0 5 false false)),
      some (.msgmask (ar 9 0 22 5 false false)),
      some (.retu (ar 0 0 0 5 false false)),
      some (.spawn (ar 1 17 22 5 true true)),
      some (.tnext (ar 9 0 0 5 false false)),
      some (.tpost (ar 0 17 22 5 true true)),
      some (.retj (ar 0 0 0 5 false false)),
      some (.sleep (ar 9 0 22 5 false true)),
      some (.barw (ar 9 17 22 5 true true))] := by decide

/-- Words A of BARA to MZERO (R182 to R187, R190, R191). -/
theorem test_decode_wordA_5 :
    [lone 0xA54C6D4E,
      lone 0xA64C6D46,
      lone 0xA7482D42,
      lone 0xA7482D4A,
      lone 0xA7482D52,
      lone 0xA8046D40,
      lone 0xA9046D40,
      lone 0xAA480540,
      lone 0xAB044544,
      lone 0xAC480540,
      lone 0xB04C6D46,
      lone 0xB1000140] =
    [some (.bara (ar 9 17 22 5 true true)),
      some (.barcfg (ar 9 17 22 5 true true)),
      some (.cancelL (ar 9 0 22 5 false true)),
      some (.cancelG (ar 9 0 22 5 false true)),
      some (.cancelJ (ar 9 0 22 5 false true)),
      some (.bcopy (ar 0 17 22 5 false false)),
      some (.strm (ar 0 17 22 5 false false)),
      some (.strmx (ar 9 0 2 5 false false)),
      some (.mbw (ar 0 17 2 5 true false)),
      some (.mbr (ar 9 0 2 5 false false)),
      some (.mcfg (ar 9 17 22 5 true true)),
      some (.mzero (ar 0 0 0 5 false false))] := by decide

/-- Words A of MMA to ANCHOR (R182 to R187, R190, R191). -/
theorem test_decode_wordA_6 :
    [lone 0xB2046D46,
      lone 0xB3000140,
      lone 0xB4046D46,
      lone 0xB54C4144,
      lone 0xB8002D42,
      lone 0xB8480148,
      lone 0xB8002D52,
      lone 0xB9482D42,
      lone 0xB9480148,
      lone 0xBA002D42,
      lone 0xBA482D4A,
      lone 0xBA482D52] =
    [some (.mma (ar 0 17 22 5 true true)),
      some (.mend (ar 0 0 0 5 false false)),
      some (.msto (ar 0 17 22 5 true true)),
      some (.mstat (ar 9 17 0 5 true false)),
      some (.setpos (ar 0 0 22 5 false true)),
      some (.getpos (ar 9 0 0 5 false false)),
      some (.publ (ar 0 0 22 5 false true)),
      some (.neigh (ar 9 0 22 5 false true)),
      some (.nextn (ar 9 0 0 5 false false)),
      some (.migr (ar 0 0 22 5 false true)),
      some (.whereIs (ar 9 0 22 5 false true)),
      some (.anchor (ar 9 0 22 5 false true))] := by decide

/-- Words A of PEER to WAKE (R182 to R187, R190, R191). -/
theorem test_decode_wordA_7 :
    [lone 0xBA482D5A,
      lone 0xBC4C6D50,
      lone 0xBD4C6D50,
      lone 0xBE044140,
      lone 0xBE000148,
      lone 0xBE002D50,
      lone 0xBE046D58,
      lone 0xBE000160,
      lone 0xBF046D40,
      lone 0xBF000148,
      lone 0xBF4C6D56] =
    [some (.peer (ar 9 0 22 5 false true)),
      some (.sysr (az 9 2265 5 false)),
      some (.sysw (az 9 2265 5 false)),
      some (.tlbiVa (ar 0 17 0 5 false false)),
      some (.tlbiJob (ar 0 0 0 5 false false)),
      some (.tlbiVm (ar 0 0 22 5 false false)),
      some (.tlbiGpa (ar 0 17 22 5 false false)),
      some (.tlbiAll (ar 0 0 0 5 false false)),
      some (.svc (ar 0 17 22 5 false false)),
      some (.eret (ar 0 0 0 5 false false)),
      some (.wake (ar 9 17 22 5 true true))] := by decide

/-- The returning atomics (R184). -/
theorem test_decode_atomics_1 :
    [extended 0x554C4170 0xFF380B10,
      extended 0x554C4170 0xFF380B11,
      extended 0x554C6D70 0xFF380B12,
      extended 0x554C4170 0xFF380B13,
      extended 0x554C4170 0xFF380B14,
      extended 0x554C4170 0xFF380B15,
      extended 0x554C4170 0xFF380B16,
      extended 0x554C4170 0xFF380B17,
      extended 0x554C4170 0xFF380B18] =
    [some (.afaa (aa 9 17 0 5 6 0xFF38 11 true)),
      some (.axchg (aa 9 17 0 5 6 0xFF38 11 true)),
      some (.acas (aa 9 17 22 5 6 0xFF38 11 true)),
      some (.amin (aa 9 17 0 5 6 0xFF38 11 true)),
      some (.amax (aa 9 17 0 5 6 0xFF38 11 true)),
      some (.aminu (aa 9 17 0 5 6 0xFF38 11 true)),
      some (.amaxu (aa 9 17 0 5 6 0xFF38 11 true)),
      some (.aand (aa 9 17 0 5 6 0xFF38 11 true)),
      some (.aor (aa 9 17 0 5 6 0xFF38 11 true))] := by decide

/-- The no-return atomics (R184). -/
theorem test_decode_atomics_2 :
    [extended 0x564C4170 0xFF380010,
      extended 0x564C4170 0xFF380011,
      extended 0x564C6D70 0xFF380012,
      extended 0x564C4170 0xFF380013,
      extended 0x564C4170 0xFF380014,
      extended 0x564C4170 0xFF380015,
      extended 0x564C4170 0xFF380016,
      extended 0x564C4170 0xFF380017,
      extended 0x564C4170 0xFF380018] =
    [some (.afaaN (aa 9 17 0 5 6 0xFF38 0 true)),
      some (.axchgN (aa 9 17 0 5 6 0xFF38 0 true)),
      some (.acasN (aa 9 17 22 5 6 0xFF38 0 true)),
      some (.aminN (aa 9 17 0 5 6 0xFF38 0 true)),
      some (.amaxN (aa 9 17 0 5 6 0xFF38 0 true)),
      some (.aminuN (aa 9 17 0 5 6 0xFF38 0 true)),
      some (.amaxuN (aa 9 17 0 5 6 0xFF38 0 true)),
      some (.aandN (aa 9 17 0 5 6 0xFF38 0 true)),
      some (.aorN (aa 9 17 0 5 6 0xFF38 0 true))] := by decide

/-- Words B of ADD to XOR (R189, R192 to R195). -/
theorem test_decode_wordB_1 :
    [second 0x004C76D1,
      second 0x014C76D1,
      second 0x024C76D1,
      second 0x034C76D1,
      second 0x044C76D1,
      second 0x054C76D1,
      second 0x064C76D1,
      second 0x074C76D1,
      second 0x084C76D1,
      second 0x094C76D1,
      second 0x0A4C76D1,
      second 0x0B4C76D1] =
    [some (.add (br 9 17 true 22 true 5 1)),
      some (.sub (br 9 17 true 22 true 5 1)),
      some (.mul (br 9 17 true 22 true 5 1)),
      some (.mulh (br 9 17 true 22 true 5 1)),
      some (.mulhu (br 9 17 true 22 true 5 1)),
      some (.div (br 9 17 true 22 true 5 1)),
      some (.divu (br 9 17 true 22 true 5 1)),
      some (.rem (br 9 17 true 22 true 5 1)),
      some (.remu (br 9 17 true 22 true 5 1)),
      some (.and (br 9 17 true 22 true 5 1)),
      some (.or (br 9 17 true 22 true 5 1)),
      some (.xor (br 9 17 true 22 true 5 1))] := by decide

/-- Words B of ANDN to POPC (R189, R192 to R195). -/
theorem test_decode_wordB_2 :
    [second 0x0C4C76D1,
      second 0x0D4C76D1,
      second 0x0E4C76D1,
      second 0x0F4C76D1,
      second 0x104C76D1,
      second 0x114C76D1,
      second 0x124C76D1,
      second 0x134C76D1,
      second 0x144C76D1,
      second 0x154C6051,
      second 0x164C6051,
      second 0x174C6051] =
    [some (.andn (br 9 17 true 22 true 5 1)),
      some (.shl (br 9 17 true 22 true 5 1)),
      some (.shr (br 9 17 true 22 true 5 1)),
      some (.sar (br 9 17 true 22 true 5 1)),
      some (.ror (br 9 17 true 22 true 5 1)),
      some (.min (br 9 17 true 22 true 5 1)),
      some (.max (br 9 17 true 22 true 5 1)),
      some (.minu (br 9 17 true 22 true 5 1)),
      some (.maxu (br 9 17 true 22 true 5 1)),
      some (.clz (br 9 17 true 0 false 5 1)),
      some (.ctz (br 9 17 true 0 false 5 1)),
      some (.popc (br 9 17 true 0 false 5 1))] := by decide

/-- Words B of EXTR to MOVH (R189, R192 to R195). -/
theorem test_decode_wordB_3 :
    [second 0x184C76D1,
      second 0x194C76D1,
      second 0x204C76DD,
      second 0x214C76DD,
      second 0x224C76DD,
      second 0x234C76DD,
      second 0x244C60DD,
      second 0x254C60DD,
      second 0x264C60DD,
      second 0x274C60DD,
      second 0x284C76DD,
      second 0x294C76DD] =
    [some (.extr (br 9 17 true 22 true 5 1)),
      some (.insr (br 9 17 true 22 true 5 1)),
      some (.addi (bi 9 17 true 733 5)),
      some (.andi (bi 9 17 true 733 5)),
      some (.ori (bi 9 17 true 733 5)),
      some (.xori (bi 9 17 true 733 5)),
      some (.shli (bi 9 17 true 29 5)),
      some (.shri (bi 9 17 true 29 5)),
      some (.sari (bi 9 17 true 29 5)),
      some (.rori (bi 9 17 true 29 5)),
      some (.movi (bk 9 36573 5)),
      some (.movh (bk 9 36573 5))] := by decide

/-- Words B of CMP to VADDS (R189, R192 to R195). -/
theorem test_decode_wordB_4 :
    [second 0x400C76DB,
      second 0x410C765B,
      second 0x44198550,
      second 0x45198550,
      second 0x46198550,
      second 0x47198550,
      second 0x48198050,
      second 0x49480050,
      second 0x4A046050,
      second 0x4C4C76D6,
      second 0x604C76D2,
      second 0x614C76D2] =
    [some (.cmp (bc 1 17 true 22 true 5 11)),
      some (.cmpi (bc 1 17 true 22 false 5 11)),
      some (.pand (br 3 6 false 5 false 5 0)),
      some (.pandn (br 3 6 false 5 false 5 0)),
      some (.por (br 3 6 false 5 false 5 0)),
      some (.pxor (br 3 6 false 5 false 5 0)),
      some (.pnot (br 3 6 false 0 false 5 0)),
      some (.rdpw (br 9 0 false 0 false 5 0)),
      some (.wrpw (br 0 17 true 0 false 5 0)),
      some (.sel (br 9 17 true 22 true 5 6)),
      some (.vadd (br 9 17 true 22 true 5 2)),
      some (.vadds (br 9 17 true 22 true 5 2))] := by decide

/-- Words B of VSUB to VCMPGT (R189, R192 to R195). -/
theorem test_decode_wordB_5 :
    [second 0x624C76D2,
      second 0x634C76D2,
      second 0x644C76D2,
      second 0x654C76D2,
      second 0x664C76D2,
      second 0x674C76D2,
      second 0x684C76D2,
      second 0x694C76D2,
      second 0x6A4C76D2,
      second 0x6B4C76D2,
      second 0x6C4C76D2,
      second 0x6D4C76D2] =
    [some (.vsub (br 9 17 true 22 true 5 2)),
      some (.vsubs (br 9 17 true 22 true 5 2)),
      some (.vmul (br 9 17 true 22 true 5 2)),
      some (.vmulh (br 9 17 true 22 true 5 2)),
      some (.vmin (br 9 17 true 22 true 5 2)),
      some (.vmax (br 9 17 true 22 true 5 2)),
      some (.vavg (br 9 17 true 22 true 5 2)),
      some (.vabsd (br 9 17 true 22 true 5 2)),
      some (.vshl (br 9 17 true 22 true 5 2)),
      some (.vshr (br 9 17 true 22 true 5 2)),
      some (.vcmpeq (br 9 17 true 22 true 5 2)),
      some (.vcmpgt (br 9 17 true 22 true 5 2))] := by decide

/-- Words B of VSPLAT to FNEG (R189, R192 to R195). -/
theorem test_decode_wordB_6 :
    [second 0x6E4C6052,
      second 0x6F4C76D2,
      second 0x704C6052,
      second 0x804C76D6,
      second 0x814C76D6,
      second 0x824C76D6,
      second 0x834C76D6,
      second 0x844C6056,
      second 0x854C76D6,
      second 0x864C76D6,
      second 0x874C76D6,
      second 0x884C6056] =
    [some (.vsplat (br 9 17 true 0 false 5 2)),
      some (.vpack (br 9 17 true 22 true 5 2)),
      some (.vunpk (br 9 17 true 0 false 5 2)),
      some (.fadd (br 9 17 true 22 true 5 6)),
      some (.fsub (br 9 17 true 22 true 5 6)),
      some (.fmul (br 9 17 true 22 true 5 6)),
      some (.fdiv (br 9 17 true 22 true 5 6)),
      some (.fsqrt (br 9 17 true 0 false 5 6)),
      some (.fmin (br 9 17 true 22 true 5 6)),
      some (.fmax (br 9 17 true 22 true 5 6)),
      some (.fma (br 9 17 true 22 true 5 6)),
      some (.fneg (br 9 17 true 0 false 5 6))] := by decide

/-- Words B of FABS to FCVT (R189, R192 to R195). -/
theorem test_decode_wordB_7 :
    [second 0x894C6056,
      second 0x8A4C76D2,
      second 0x8B4C6052,
      second 0x8C4C655A] =
    [some (.fabs (br 9 17 true 0 false 5 6)),
      some (.fcmp (bf 1 1 17 true 22 true 5 2)),
      some (.fclass (br 9 17 true 0 false 5 2)),
      some (.fcvt (bv 9 17 true 5 5 10))] := by decide

/-! ## Well-formedness (08 R181 to R196): an ill-formed term for each check -/

/-- An unused register field or sync bit of an AR instruction (R181): SLEEP has no a, TNEXT no b, SETPOS no d, TNEXT no sa and no
sb, TNEXT no extension; an extension beside a register b or beside sb (R188). -/
theorem test_wf_unusedFields :
    [(Instr.sleep (ar 1 2 3 0 false false)).wf, (Instr.tnext (ar 1 0 3 0 false false)).wf, (Instr.setpos (ar 1 0 3 0 false false)).wf,
     (Instr.tnext (ar 1 0 0 0 true false)).wf, (Instr.tnext (ar 1 0 0 0 false true)).wf,
     (Instr.tnext { ar 1 0 0 0 false false with x := some 5 }).wf, (Instr.sleep { ar 1 0 3 0 false false with x := some 5 }).wf,
     (Instr.sleep { ar 1 0 0 0 false true with x := some 5 }).wf, (Instr.sleep { ar 1 0 0 0 false false with x := some 5 }).wf] =
    [false, false, false, false, false, false, false, false, true] := by decide

/-- The sync bits of MSGMASK, BCOPY and STRM, which the tables show as 0 (R252, R298). -/
theorem test_wf_syncBits :
    [(Instr.msgmask (ar 9 0 22 0 false true)).wf, (Instr.bcopy (ar 0 17 22 0 true false)).wf, (Instr.bcopy (ar 0 17 22 0 false true)).wf,
     (Instr.strm (ar 0 17 22 0 true false)).wf, (Instr.strm (ar 0 17 22 0 false true)).wf, (Instr.msgmask (ar 9 0 22 0 false false)).wf] =
    [false, false, false, false, false, true] := by decide

/-- The message formats (R188, R252): a field a of SEND, its run past g31, b beside an extension; b or an extension of RECV, a run of
PEEK past g31; a count of CHSTAT; a channel of WAITM.I and a selector of WAITM. -/
theorem test_wf_messages :
    [(Instr.send (ak 1 2 3 0 0 0)).wf, (Instr.send (ak 30 0 3 0 0 2)).wf, (Instr.send { ak 1 0 3 0 0 0 with x := some 5 }).wf,
     (Instr.recv (ak 1 2 3 0 0 0)).wf, (Instr.recv { ak 1 2 0 0 0 0 with x := some 5 }).wf, (Instr.peek (ak 25 2 0 0 0 7)).wf,
     (Instr.chstat (ak 1 0 0 0 0 1)).wf, (Instr.waitmI (ak 0 0 0 0 2 1)).wf, (Instr.waitm (ak 0 0 0 0 2 1)).wf,
     (Instr.recv (ak 24 2 0 0 0 7)).wf] =
    [false, false, false, false, false, false, false, false, false, true] := by decide

/-- The memory formats (R183): an offset field beside an extension in AM and AS; the selector of STFILL and a data register of SETE;
LDX of a dword with sx, STX with sx or a lookahead; an address of a FENCE and an extension of CHUNK. -/
theorem test_wf_memory :
    [(Instr.ldD { am 1 2 3 4 0 5 with x := some 8 }).wf, (Instr.st { as 1 2 3 3 0 4 with x := some 8 }).wf, (Instr.stfill (as 1 2 3 2 0 4)).wf,
     (Instr.sete (as 1 2 3 2 0 4)).wf, (Instr.ldx (ax 1 2 3 3 0 5 true)).wf, (Instr.stx (ax 1 2 3 2 0 0 true)).wf,
     (Instr.stx (ax 1 2 3 2 0 5 false)).wf, (Instr.fenceH (aq 1 0 0)).wf, (Instr.chunk { aq 0 0 0 with x := some 8 }).wf,
     (Instr.ldx (ax 1 2 3 2 0 5 true)).wf] =
    [false, false, false, false, false, false, false, false, false, true] := by decide

/-- Atomics (R184): a field b of an operation other than ACAS, a lookahead of a no-return atomic. -/
theorem test_wf_atomics :
    [(Instr.afaa (aa 1 2 3 0 0 0 5 true)).wf, (Instr.aorN (aa 1 2 0 0 0 0 5 true)).wf, (Instr.acas (aa 1 2 3 0 0 0 5 true)).wf] =
    [false, false, true] := by decide

/-- Runs and small fields: INB at g31, NEXTN at g30, SPAWN's predicate, the stream and mailbox numbers; JMP beyond 17 bits; CALL with
both displacements; SYSR's sd (R185, R187, R188). -/
theorem test_wf_ranges :
    [(Instr.inb (ar 31 0 0 0 false false)).wf, (Instr.nextn (ar 30 0 0 0 false false)).wf, (Instr.spawn (ar 8 1 2 0 false false)).wf,
     (Instr.strmx (ar 1 0 4 0 false false)).wf, (Instr.mbw (ar 0 1 4 0 false false)).wf, (Instr.mbr (ar 1 0 4 0 false false)).wf,
     (Instr.jmp (ab 0x20000 0)).wf, (Instr.call { ac 1 2 0 with x := some 8 }).wf, (Instr.sysr (az 1 5 0 true)).wf,
     (Instr.inb (ar 30 0 0 0 false false)).wf, (Instr.nextn (ar 29 0 0 0 false false)).wf, (Instr.jmp (ab 0x1FFFF 0)).wf] =
    [false, false, false, false, false, false, false, false, false, true, true, true] := by decide

/-- Word B (R189, R192 to R195): a width of 2, a unary b or sb; a predicate number of 8, a sync bit of PAND, a b of PNOT; a lane type
of 6, of 4 for VPACK, a b of VUNPK; a float format of 3, a packed FCLASS, a b of FSQRT; a shift immediate of 64; condition 12, sb of
CMPI; format 3 of FCMP; types 12 of FCVT; fn 8 of SEL, an a of RDPW, a d of WRPW. -/
theorem test_wf_wordB :
    [(Instr.add (br 1 2 false 3 false 0 2)).wf, (Instr.clz (br 1 2 false 3 false 0 0)).wf, (Instr.clz (br 1 2 false 0 true 0 0)).wf,
     (Instr.pand (br 8 2 false 3 false 0 0)).wf, (Instr.pand (br 1 2 true 3 false 0 0)).wf, (Instr.pnot (br 1 2 false 3 false 0 0)).wf,
     (Instr.vadd (br 1 2 false 3 false 0 6)).wf, (Instr.vpack (br 1 2 false 3 false 0 4)).wf, (Instr.vunpk (br 1 2 false 3 false 0 0)).wf,
     (Instr.fadd (br 1 2 false 3 false 0 3)).wf, (Instr.fclass (br 1 2 false 0 false 0 4)).wf, (Instr.fsqrt (br 1 2 false 3 false 0 0)).wf,
     (Instr.shli (bi 1 2 false 64 0)).wf, (Instr.cmp (bc 1 2 false 3 false 0 12)).wf, (Instr.cmpi (bc 1 2 false 3 true 0 5)).wf,
     (Instr.fcmp (bf 0 1 2 false 3 false 0 3)).wf, (Instr.fcvt (bv 1 2 false 12 0 5)).wf, (Instr.fcvt (bv 1 2 false 5 0 12)).wf,
     (Instr.sel (br 1 2 false 3 false 0 8)).wf, (Instr.rdpw (br 1 2 false 0 false 0 0)).wf, (Instr.wrpw (br 1 2 false 0 false 0 0)).wf] =
    List.replicate 21 false := by decide

/-- Words that name no instruction (R177, R181, R190, R191): L with X; a lone bundle with a word B; TLBI with a word B; major 7;
selector 3 of major 0; FENCE with s = 3; an atomic without an extension and one with fn 9; word B opcodes 0x1A and 0x42. -/
theorem test_decode_refused :
    [lone 0xC0000000, extended 0x80000000 1, extended 0x3E000020 0, lone 0x87000000, lone 0x80000018, lone 0x97000023,
     lone 0x95000000, extended 0x55000000 9, second 0x1A000000, second 0x42000000] =
    List.replicate 10 none := by decide

/-- Extensions (R183, R185, R188): LD.d with a scaled field of zero, CALL with a displacement, SLEEP with a count. -/
theorem test_decode_extensions :
    [extended 0x4B118940 0xFFFFFFF8, extended 0x43200140 0xFFFFFFFF, extended 0x64480140 0x000F4240] =
    [some (.ldD { am 2 6 1 0 5 0 with x := some 0xFFFFFFF8 }), some (.call { ac 4 0 5 with x := some 0xFFFFFFFF }),
     some (.sleep { ar 9 0 0 5 false false with x := some 0x000F4240 })] := by decide

/-! ## Small machines -/

/-- The state an outcome goes on with. -/
def nx (o : Out) : State :=
  match o with
  | .next s => s
  | _ => State.reset

/-- The running thread of the tests: slot 0 of the process with LPN 5, on core 5. -/
def tWho : Who := { lpn := 5, slot := 0 }

/-- A ready slot at PC 0x5000. -/
def tSlot : Slot := { Slot.init with st := .ready, arch := { Arch.init with pc := 0x5000 } }

/-- The machine after reset with that thread alone, in a slot as given. -/
def tAt (t : Slot) : State := { State.reset with cur := tWho, procs := [(5, { Proc.init 5 with slots := [(0, t)] })] }

/-- Operands g1, g2 and g3 as they were read. -/
def opnd3 (x y z : W64) : Vector W64 32 := ((((Vector.replicate 32 0).set 1 x).set 2 y).set 3 z)

/-- The thread with its operands read. -/
def tOps (x y z : W64) : State := { tAt tSlot with opnd := opnd3 x y z }

/-- What `i` with d = g3, a = g1 and b = g2 leaves in g3. -/
def outBR (i : BR → Instr) (fn : BitVec 4) (x y : W64) : W64 := (nx (exec (i (br 3 1 false 2 false 0 fn)) (tOps x y 0))).me.arch.rd 3

/-- The same with FCSR afterwards; d is an operand too. -/
def outF (i : BR → Instr) (fn : BitVec 4) (x y z : W64) : W64 × W64 :=
  let t := nx (exec (i (br 3 1 false 2 false 0 fn)) (tOps x y z))
  (t.me.arch.rd 3, t.me.arch.fcsr)

/-! ## Integer words (09 R204 to R211) -/

/-- R204, R205: sums wrap and sign-extend; products; division by zero and overflow. -/
theorem test_integer_arithmetic :
    [outBR .add 0 0xFFFFFFFFFFFFFFFF 2, outBR .add 1 0x7FFFFFFF 1, outBR .sub 0 1 2, outBR .sub 1 0x80000000 1,
     outBR .mul 0 0x100000001 0x100000001, outBR .mul 1 0x10001 0x10001, outBR .mulh 0 0xFFFFFFFFFFFFFFFF 1,
     outBR .mulhu 0 0xFFFFFFFFFFFFFFFF 2, outBR .div 1 7 0, outBR .div 0 0xFFFFFFFFFFFFFFF9 2, outBR .div 0 0x8000000000000000 0xFFFFFFFFFFFFFFFF,
     outBR .divu 0 0xFFFFFFFFFFFFFFFF 2, outBR .rem 1 0x80000005 0, outBR .rem 0 0xFFFFFFFFFFFFFFF9 2, outBR .remu 0 7 4] =
    [1, 0xFFFFFFFF80000000, 0xFFFFFFFFFFFFFFFF, 0x7FFFFFFF, 0x200000001, 0x20001, 0xFFFFFFFFFFFFFFFF,
     1, 0xFFFFFFFFFFFFFFFF, 0xFFFFFFFFFFFFFFFD, 0x8000000000000000, 0x7FFFFFFFFFFFFFFF, 0xFFFFFFFF80000005,
     0xFFFFFFFFFFFFFFFF, 3] := by decide

/-- R204: logic, shifts by the count modulo the width, minima and maxima (MINU.w and MAXU.w from its text). -/
theorem test_integer_logic :
    [outBR .and 0 0xF0 0x3C, outBR .or 0 0xF0 0x0F, outBR .xor 0 0xFF 0x0F, outBR .andn 0 0xFF 0x0F, outBR .shl 1 1 35, outBR .shr 1 0x80000000 31,
     outBR .sar 1 0x80000000 31, outBR .ror 0 1 1, outBR .min 0 0xFFFFFFFFFFFFFFFF 1, outBR .max 0 0xFFFFFFFFFFFFFFFF 1,
     outBR .minu 1 0x80000000 1, outBR .maxu 1 0x80000000 1] =
    [0x30, 0xFF, 0xF0, 0xF0, 8, 1, 0xFFFFFFFFFFFFFFFF, 0x8000000000000000, 0xFFFFFFFFFFFFFFFF, 1, 1, 0xFFFFFFFF80000000] := by decide

/-- R204, R206: counts of bits, and fields at and past the width; INSR.w with n = 0 leaves the low word of d, sign-extended. -/
theorem test_integer_bits :
    [outBR .clz 1 1 0, outBR .clz 0 0 0, outBR .ctz 0 8 0, outBR .popc 0 0xFF01 0, outBR .extr 0 0xABCD 0x0804, outBR .extr 0 0xABCD 0x0004,
     (outF .insr 0 0xFF 0x0408 0x10000).1, (outF .insr 1 0xFF 0 0x180000001).1] =
    [31, 64, 3, 9, 0xBC, 0, 0x10F00, 0xFFFFFFFF80000001] := by decide

/-- R207, R208: signed immediates, shift counts, and the constant of R208's text built with MOVI and MOVH. -/
theorem test_immediates :
    let bi' (i : BI → Instr) (imm : BitVec 10) (x : W64) : W64 := (nx (exec (i (bi 3 1 false imm 0)) (tOps x 0 0))).me.arch.rd 3
    let movh (v : W64) (imm : BitVec 16) : W64 := (nx (exec (.movh (bk 3 imm 0)) (tOps 0 0 v))).me.arch.rd 3
    [bi' .addi 0x3FF 0, bi' .andi 0x200 0xFFFF, bi' .ori 5 8, bi' .xori 0x3FF 1, bi' .shli 63 1, bi' .shri 4 0xF0, bi' .sari 63 0x8000000000000000,
     bi' .rori 4 0xF, (nx (exec (.movi (bk 3 0x8000 0)) (tOps 0 0 0))).me.arch.rd 3, movh (movh (movh 0x0123 0x4567) 0x89AB) 0xCDEF] =
    [0xFFFFFFFFFFFFFFFF, 0xFE00, 13, 0xFFFFFFFFFFFFFFFE, 0x8000000000000000, 0xF, 0xFFFFFFFFFFFFFFFF,
     0xF000000000000000, 0xFFFFFFFFFFFF8000, 0x0123456789ABCDEF] := by decide

/-- R193, R209, R210: compares, CMPI.LTU against −1, predicate operations on p1 = 1 and p2 = 0, and the discarded write of p0. -/
theorem test_predicates :
    let s : State := { tOps 5 0xFFFFFFFFFFFFFFFF 0 with opw := 0x03 }
    let p (i : Instr) : BitVec 8 := (nx (exec i s)).me.arch.pw
    let pr (i : BR → Instr) : BitVec 8 := p (i (br 3 1 false 2 false 0 0))
    [p (.cmp (bc 1 1 false 2 false 0 2)), p (.cmp (bc 1 1 false 2 false 0 4)), p (.cmpi (bc 2 1 false 31 false 0 4)), p (.cmp (bc 0 1 false 2 false 0 4)),
     pr .pand, pr .pandn, pr .por, pr .pxor, pr .pnot, p (.wrpw (br 0 1 false 0 false 0 0))] =
    [0x01, 0x03, 0x05, 0x01, 0x01, 0x09, 0x09, 0x09, 0x01, 0x05] := by decide

/-- R211: SEL takes a by a true predicate and b by a false one; RDPW reads bit 0 as 1. A false guard leaves d. -/
theorem test_select :
    let s : State := { tOps 5 6 0 with opw := 0x02 }
    [(nx (exec (.sel (br 3 1 false 2 false 0 1)) s)).me.arch.rd 3, (nx (exec (.sel (br 3 1 false 2 false 0 4)) s)).me.arch.rd 3,
     (nx (exec (.rdpw (br 3 0 false 0 false 0 0)) s)).me.arch.rd 3, (nx (exec (.add (br 3 1 false 2 false 4 0)) s)).me.arch.rd 3] = [5, 6, 3, 0] := by decide

/-! ## Vector words (09 R212, R213) -/

/-- R212: lanes wrap, saturate, average upward, and compare by their type; R213: the VPACK example of its text, and VUNPK. -/
theorem test_vectors :
    [outBR .vadd 0 0x00FF00FF 0x00010001, outBR .vadds 1 0x00F0 0x0020, outBR .vadds 0 0x007F 0x0001, outBR .vsub 0 0x0000 0x0001,
     outBR .vsubs 1 0x0010 0x0020, outBR .vmul 2 0x00020003 0x80000005, outBR .vmulh 3 0xFFFF 0xFFFF, outBR .vmin 0 0x80FF 0x7F01,
     outBR .vmax 1 0x80FF 0x7F01, outBR .vavg 1 0x0001 0x0002, outBR .vabsd 0 0x80 0x7F, outBR .vshl 0 0x01 0x09,
     outBR .vshr 0 0x80 0x01, outBR .vshr 1 0x80 0x01, outBR .vcmpeq 2 0x00010002 0x00010003, outBR .vcmpgt 0 0x01 0xFF,
     outBR .vsplat 2 0xABCD 0, outBR .vpack 1 0x0000010000FF0010 0, outBR .vunpk 0 0x80 0] =
    [0x00000000, 0xFF, 0x7F, 0xFF, 0x00, 0x0000000F, 0xFFFE, 0x80FF, 0x80FF, 2, 0xFF, 2,
     0xC0, 0x40, 0xFFFFFFFFFFFF0000, 0x00000000000000FF, 0xABCDABCDABCDABCD, 0x00FFFF10, 0xFF80] := by decide

/-! ## Float words (13 R291 to R297) -/

/-- The table of conversions after R297. -/
theorem test_conversions :
    let cvt (dst : BitVec 4) (src : BitVec 5) (x : W64) : W64 × W64 :=
      let t := nx (exec (.fcvt (bv 3 1 false src 0 dst)) (tOps x 0 0))
      (t.me.arch.rd 3, t.me.arch.fcsr)
    [cvt 3 0 0x42C80000, cvt 3 0 0x459C4000, cvt 10 0 0x40200000, cvt 11 0 0xBF800000, cvt 6 0 0x7FC00000, cvt 10 8 0x100000000] =
    [(0x6C, 0x28), (0x7E, 0xA8), (2, 0x28), (0, 0x208), (0x20, 0x08), (0x7FFFFFFF, 0x208)] := by decide

set_option maxRecDepth 20000 in
/-- FADD.h4 of the table after R297; a signalling NaN; division by zero; a square root; a fused product; a minimum with a NaN. -/
theorem test_floats :
    [outF .fadd 5 0x00017E007BFF3C00 0x00013C007BFF1000 0, outF .fsub 0 0x3F800000 0x3F800000 0, outF .fmul 0 0x7F800001 0x3F800000 0,
     outF .fdiv 0 0x3F800000 0 0, outF .fsqrt 0 0x40800000 0 0, outF .fma 0 0x40000000 0x40400000 0x3F800000, outF .fmin 0 0x7FC00000 0x3F800000 0,
     outF .fmax 0 0x3F800000 0x40000000 0, outF .fneg 0 0x3F800000 0 0, outF .fabs 0 0xBF800000 0 0, outF .fclass 0 0x3F800000 0 0] =
    [(0x00027E007C003C00, 0xA8), (0, 0x08), (0x7FC00000, 0x208), (0x7F800000, 0x108), (0x40000000, 0x08), (0x40E00000, 0x08),
     (0x3F800000, 0x08), (0x40000000, 0x08), (0xBF800000, 0x08), (0x3F800000, 0x08), (0x40, 0x08)] := by decide

/-- R295: an ordered compare, one with a quiet NaN that is no LT, and UN. -/
theorem test_float_compare :
    let c (cond : BitVec 2) (x y : W64) : BitVec 8 × W64 :=
      let t := nx (exec (.fcmp (bf cond 1 1 false 2 false 0 0)) (tOps x y 0))
      (t.me.arch.pw, t.me.arch.fcsr)
    [c 1 0x3F800000 0x40000000, c 0 0x7FC00000 0x7FC00000, c 1 0x7FC00000 0, c 3 0x7FC00000 0] =
    [(0x03, 0x08), (0x01, 0x08), (0x01, 0x208), (0x03, 0x08)] := by decide

/-! ## Witnesses and effects: words of word B, transfers, loops, fences -/

/-- The codes that bound the statements about compares, lanes, widths, conversions and formats, at the ends of their ranges. -/
theorem test_meets_codes :
    (11 : BitVec 4).toNat < 12 ∧ (5 : BitVec 4).toNat < 6 ∧ (3 : BitVec 4).toNat < 4 ∧ 4 ≤ (5 : BitVec 4).toNat ∧ (11 : BitVec 5).toNat < 12 ∧
    (7 < 8 ∧ 15 < 2 ^ (Fmt.ofCode 7).width ∧ ((Fmt.ofCode 7).decode 15).isNan = false) := by decide

/-- A slot of a privilege. -/
def tPriv (p : Nat) : Slot := { tSlot with regs := { tSlot.regs with slotctl := w64 p } }

/-- The thread at privilege p with its operands read. -/
def tOpsP (p : Nat) (x y z : W64) : State := { tAt (tPriv p) with opnd := opnd3 x y z }

/-- A slot with nothing uncommitted, nothing to land and no trap due. -/
theorem quiet_of (t : Slot) (c : t.chunk = none) (k : t.commit = none) (l : t.arch.landing = []) (d : t.due = []) (r : t.st ≠ SlotSt.halted) :
    t.Quiet := ⟨c, k, l, d, r⟩

theorem test_quiet (p : Nat) : (tOpsP p 0 0 0).me.Quiet := quiet_of _ rfl rfl rfl rfl (fun h => nomatch h)

/-- Targets at the ends of what passes the check at U, and one in the hardware areas at M (R216); those that fail: below 0, past the
last bundle, in the header at U, and a JR to no multiple of 8. -/
theorem test_meets_transfers :
    TargetOk (tOps 0 0 0) ((tOps 0 0 0).pcNat + 8 * (2 : BitVec 21).toInt) ∧ TargetOk (tOps 0 0 0) ((8 * (0x1FFFF : BitVec 21).toNat : Nat)) ∧
    TargetOk (tOps 0 0 0) ((tOps 0 0 0).pcNat + 8 * (-2 : BitVec 32).toInt) ∧
    ((0x4000 : W64).toNat % 8 = 0 ∧ TargetOk (tOps 0x4000 0 0) ((0x4000 : W64).toNat)) ∧ TargetOk (tOpsP 2 0 0 0) 0 ∧
    (¬ TargetOk (tOps 0 0 0) ((tOps 0 0 0).pcNat + 8 * (-0xA01 : BitVec 21).toInt) ∧ ¬ TargetOk (tOps 0 0 0) ((8 * (0x20000 : BitVec 21).toNat : Nat)) ∧
     ¬ TargetOk (tOps 0 0 0) 0x3FF8 ∧ (0x5004 : W64).toNat % 8 ≠ 0 ∧ (tOps 0 0 0).me.inTrap = false) := by
  unfold TargetOk; decide

/-- R215: BR forward, JMP, CALL and JR with their links. -/
theorem test_transfers :
    let s := tOps 0x6000 0 0
    let npc (i : Instr) : Nat × W64 := ((nx (exec i s)).npc.toNat, (nx (exec i s)).me.arch.rd 4)
    [npc (.br (ab 2 0)), npc (.br (ab 0x1FFFFE 0)), npc (.jmp (ab 0xC00 0)), npc (.call (ac 4 3 0)), npc (.jr (ar 4 1 0 0 false false))] =
    [(0x5010, 0), (0x4FF0, 0), (0x6000, 0), (0x5018, 0x5008), (0x6000, 0x5008)] := by decide

/-- R216, R322: a BR below 0 takes SEGV reason 7 with WBASE + LPN × 2^20 − 8 in TADDR, and halts the slot while TRAPVEC.EN is 0. -/
theorem test_bad_target :
    let t := nx (exec (.br (ab 0x1FF5FF 0)) (tOps 0 0 0))
    (t.me.regs.tcause, t.me.regs.taddr, t.me.regs.tpc, t.me.st) = (0x3803, 0x00FFFF80004FFFF8, 0x5000, SlotSt.halted) := by decide

/-- Trip counts of LOOP and LOOPI, zero and not; targets of a skipped body (R217). -/
theorem test_meets_loops :
    (0x100000001 : W64).toNat % 2 ^ 32 ≠ 0 ∧ ((0x100000000 : W64).toNat % 2 ^ 32 = 0 ∧ TargetOk (tOps 0 0 0) ((tOps 0 0 0).pcNat + 8 * (127 + 2) : Nat)) ∧
    (1 : BitVec 16) ≠ 0 := by
  unfold TargetOk; decide

/-- An active loop 0 that starts at 0x5008 and ends at 0x5018. -/
def tLoop (count : W64) : Arch := { tSlot.arch with pc := 0x5018, lc0 := count, ls0 := w64 (2 ^ 40 + 2 ^ 41 + 0x5018 * 2 ^ 20 + 0x5008) }

/-- The end check's cases: iterations left, the last one, and a bundle that ends no loop (R218). -/
theorem test_meets_loopEnd :
    (tb 40 (tLoop 2).ls0 = true ∧ fld 39 20 (tLoop 2).ls0 = (tLoop 2).pc.toNat ∧ tb 40 (tLoop 2).ls1 = false ∧ 1 < fld 31 0 (tLoop 2).lc0) ∧
    fld 31 0 (tLoop 1).lc0 ≤ 1 ∧ ¬ (tb 40 tSlot.arch.ls0 = true ∧ fld 39 20 tSlot.arch.ls0 = tSlot.arch.pc.toNat) := by decide

/-- LOOPI 3 over two bundles, and the end of its body with 2, then 1 passes left (R217, R218). -/
theorem test_loops :
    let t := nx (exec (.loopi (li 3 false 1)) (tOps 0 0 0))
    (t.me.arch.lc0, t.me.arch.ls0) = (3, w64 (2 ^ 40 + 2 ^ 41 + 0x5010 * 2 ^ 20 + 0x5008)) ∧
    ((tLoop 2).endChecks 0x5018).2 = some 0x5008 ∧ ((tLoop 2).endChecks 0x5018).1.lc0 = 1 ∧ ((tLoop 1).endChecks 0x5018).2 = none ∧
    (nx (exec (.loop (lr 1 false true 4)) (tOps 0 0 0))).npc = 0x5030 := by decide

/-- A landing still open. -/
def tLanding : Landing :=
  { id := 7, dst := .g 4, closeAt := 3, res := .pending, pc := 0x4FF8, bno := 0, addr := 0, seg := 0, sync := false }

/-- A slot with an open landing, and one with an atomic outstanding. -/
def tOpen : Slot := { tSlot with arch := { tSlot.arch with landing := [tLanding] } }
def tAtomic : Slot := { tSlot with atomics := [(9, 0, 0, 0)] }

/-- HALT and the fences: with nothing outstanding, with an open landing, with an atomic or a message outstanding (R156, R198). -/
theorem test_meets_halts :
    ((tAt tSlot).me.atomics = [] ∧ (tAt tSlot).myCore.streams = [] ∧ (tAt tSlot).myCore.copies = [] ∧ (tAt tSlot).myProc.inWait = [] ∧
      (tAt tSlot).myProc.mx.queue = [] ∧ (tAt tSlot).me.sends = [] ∧ (tAt tSlot).me.pushq = []) ∧
    (tAt tOpen).me.arch.landing.any Landing.open = true ∧
    ((tAt tAtomic).me.arch.landing.any Landing.open = false ∧ (tAt tAtomic).me.atomics ≠ []) ∧
    (tAt { tSlot with sends := [(8, 0, 0, 0)] }).me.sends ≠ [] := by decide

/-- R80, R198, R199: HALT ends its thread once its bundle is done, YIELD gives up a position, IFLUSH empties the fetch buffer; FENCE.H with an atomic
outstanding waits, and NOP, CHUNK and the fences with nothing outstanding leave the thread ready. -/
theorem test_halt_fences :
    let st (t : Slot) (i : Instr) : SlotSt := (nx (exec i (tAt t))).me.st
    [st tSlot (.halt (ar 0 0 0 0 false false)), st tAtomic (.halt (ar 0 0 0 0 false false)), st tAtomic (.fenceH (aq 0 0 0)),
     st tSlot (.fenceH (aq 0 0 0)), st tSlot (.fenceE (aq 0 0 0)), st tSlot (.fenceP (aq 0 0 0)), st tSlot (.nop (ar 0 0 0 0 false false)),
     st tSlot (.chunk (aq 0 0 0))] =
    [.ready, .waiting, .waiting, .ready, .ready, .ready, .ready, .ready] ∧
    ((nx (exec (.halt (ar 0 0 0 0 false false)) (tAt tSlot))).me.ending, (nx (exec (.halt (ar 0 0 0 0 false false)) (tAt tSlot))).bst) =
      (some .halt, .run) ∧
    (nx (exec (.yield (ar 0 0 0 0 false false)) (tAt tSlot))).me.yields = 2 ∧
    (nx (exec (.iflush (aq 0 0 0)) (tAt { tSlot with fetch := [(0x5008, 1, 0)] }))).me.fetch = [] := by decide

/-! ## Witnesses and effects: system registers, traps, returns -/

/-- Registers that a privilege may read, one that does not exist, one above the privilege (R329): LC0 at U, 0xFFF, and an entry of SEGT at U. -/
theorem test_meets_systemReads :
    (∃ a, regAccess (0x020 : BitVec 12).toNat = some a ∧ a.read ≤ (tOpsP 0 0 0 0).me.priv) ∧ regAccess (0xFFF : BitVec 12).toNat = none ∧
    (∃ a, regAccess (0x120 : BitVec 12).toNat = some a ∧ (tOpsP 0 0 0 0).me.priv < a.read) := by
  refine ⟨⟨_, rfl, ?_⟩, ?_, ⟨_, rfl, ?_⟩⟩ <;> decide

/-- A write of LC0 that passes every check; a read-only register, a reserved bit of LC0, and a register that U may not write (R329). -/
theorem test_meets_systemWrites :
    ((0x020 : BitVec 12).toNat ∈ plainRegs ∧ SyswOk (tOpsP 0 0 0 5) 0x020 5) ∧
    (∃ a, regAccess 0x020 = some a ∧ a.write 0 ≠ 0 ∧ (0x100000000 : W64) &&& ~~~(w64 a.fields) ≠ 0) ∧
    (∃ a, regAccess 0x001 = some a ∧ a.read ≤ 0 ∧ a.readOnly = true) ∧
    (∃ a, regAccess 0x110 = some a ∧ (0 < a.read ∨ (a.readOnly = false ∧ a.write 0 = 0))) := by
  refine ⟨⟨by decide, ⟨_, rfl, ?_, ?_, ?_, ?_, ?_⟩⟩, ⟨_, rfl, ?_, ?_⟩, ⟨_, rfl, ?_, ?_⟩, ⟨_, rfl, ?_⟩⟩ <;> decide

/-- R329: SYSW sets LC0 and SYSR reads it back; SYSR of SEGT at U takes PRIV, of a number without a register ILLOP. -/
theorem test_system_registers :
    let t := nx (exec (.sysw (az 3 0x020 0 false)) (tOps 0 0 5))
    let code (n : BitVec 12) : Nat := fld 7 0 (nx (exec (.sysr (az 3 n 0 false)) (tOps 0 0 0))).me.regs.tcause
    t.me.arch.lc0 = 5 ∧ (nx (exec (.sysr (az 4 0x020 0 false)) t)).me.arch.rd 4 = 5 ∧ code 0x120 = 2 ∧ code 0xFFF = 1 := by decide

/-- A handler running at M that came from G, with a resume to arm and TPC 0x5008. -/
def tHandler : Slot :=
  { tPriv (2 + 4 + 8) with regs := { (tPriv (2 + 4 + 8)).regs with tpc := 0x5008, tcause := 0x8003 } }

/-- A user handler that returns to 0x5010. -/
def tUser : Slot :=
  { tSlot with regs := { tSlot.regs with uistat := 0x100000000 }, hbank := (Vector.replicate 8 0).set 0 0x5010 }

/-- A thread in no handler and one in a trap handler and in a user handler; their return addresses pass the check (R216, R331, R273). -/
theorem test_meets_returns :
    (tAt tSlot).me.inTrap = false ∧ (tAt tSlot).me.inUser = false ∧
    ((tAt tHandler).me.inTrap = true ∧ TargetOk (tAt tHandler) (tAt tHandler).me.regs.tpc.toNat) ∧
    ((tAt tUser).me.inUser = true ∧ TargetOk (tAt tUser) (((tAt tUser).me.hbank[0]).toNat % 2 ^ 20 : Nat)) := by
  unfold TargetOk; decide

/-- A quiet thread in a handler. -/
theorem test_meets_serviceInHandler : (tAt tHandler).me.Quiet ∧ (tAt tHandler).me.inTrap = true :=
  ⟨quiet_of _ rfl rfl rfl rfl (fun h => nomatch h), by decide⟩

/-- R322, R330: SVC 3 records its number and the next bundle, enters the handler at OFF × 8 with PRIV ← EP and T = 1; R331: ERET goes back
with PRIV ← SP, T = 0 and a resume armed; R273: RETU goes to h0 with H = 0. -/
theorem test_traps_returns :
    let v : Slot := { tSlot with regs := { tSlot.regs with trapvec := w64 (1 + 2 * 1 + 0x900 * 8) } }
    let t := nx (exec (.svc (ar 0 0 3 0 false false)) (tAt v))
    let u := nx (exec (.eret (ar 0 0 0 0 false false)) (tAt tHandler))
    let w := nx (exec (.retu (ar 0 0 0 0 false false)) (tAt tUser))
    (t.me.regs.tcause, t.me.regs.taddr, t.me.regs.tpc, t.me.regs.slotctl, t.me.arch.pc) = (15, 3, 0x5008, 5, 0x4800) ∧
    (u.npc, u.me.priv, u.me.inTrap, u.me.resume) = (0x5008, 1, false, true) ∧ (w.npc, w.me.inUser) = (0x5010, false) := by decide

/-- R274: MSGMASK returns the old mask and sets the new one. -/
theorem test_msgmask :
    let t := nx (exec (.msgmask (ar 3 0 2 0 false false)) { tAt { tSlot with regs := { tSlot.regs with uistat := 0x0A5 } } with opnd := opnd3 0 0x1FF 0 })
    (t.me.arch.rd 3, t.me.regs.uistat) = (0x0A5, 0x1FF) := by decide

/-- A parked record of VMID 0 that G may answer. -/
def tParked : Parked := { seq := 7, kind := 1, vmid := 0, who := { lpn := 6, slot := 0 }, engine := none, la := 0x1000 }

/-- The thread at privilege p beside that record. -/
def tWake (p : Nat) : State := { tOpsP p 7 1 0 with imago := { (tOpsP p 7 1 0).imago with parked := [tParked] } }

/-- WAKE at G with an open record that it may answer, at M with none, and at U (R332). -/
theorem test_meets_wake :
    ((tWake 1).me.priv ≠ 0 ∧ ∃ k ∈ (tWake 1).imago.parked, k.seq = BitVec.ofNat 32 ((tWake 1).rd 1).toNat ∧
      ((tWake 1).me.priv = 2 ∨ (k.kind ≤ 2 ∧ k.vmid = (tWake 1).myProc.vmid))) ∧
    ((tOpsP 2 7 1 0).me.priv ≠ 0 ∧ ∀ k ∈ (tOpsP 2 7 1 0).imago.parked,
      ¬ (k.seq = BitVec.ofNat 32 ((tOpsP 2 7 1 0).rd 1).toNat ∧ ((tOpsP 2 7 1 0).me.priv = 2 ∨ (k.kind ≤ 2 ∧ k.vmid = (tOpsP 2 7 1 0).myProc.vmid)))) ∧
    (tOpsP 0 7 1 0).me.priv = 0 := by decide

/-- R332: WAKE writes 0 for an open record and sends its answer, 1 for none, and takes PRIV at U. -/
theorem test_wake :
    let w (s : State) : State := nx (exec (.wake (ar 3 1 2 0 false false)) s)
    (w (tWake 1)).me.arch.rd 3 = 0 ∧ (w (tWake 1)).agenda = [Ev.parkedAnswer 7 true] ∧ (w (tOpsP 2 7 1 0)).me.arch.rd 3 = 1 ∧
    fld 7 0 (w (tOpsP 0 7 1 0)).me.regs.tcause = 2 := by decide

/-! ## Witnesses and effects: segments, CORETAG, XROOT, LMMAP -/

/-- Segment 1 holds 0x100 bytes from 0x1000, rights R and W. -/
def tSeg : Slot :=
  { tSlot with sg := (Vector.replicate 8 0).set 1 (BitVec.ofNat 128 (0x1000 + 0xFF * 2 ^ 56 + 3 * 2 ^ 112)) }

/-- A stage, a commit at G, one at U that narrows, one that does not, and those that ILLOP refuses (R16, R22, R23). -/
theorem test_meets_segments :
    let old : BitVec 128 := (tAt tSeg).me.sg[1]
    let narrow : BitVec 128 := (0x0001000000000000 : W64) ++ old.setWidth 64
    let wide : BitVec 128 := (0x0007000000000000 : W64) ++ old.setWidth 64
    (1 : BitVec 3) ≠ 0 ∧ (fld 63 54 0x0001000000000000 = 0 ∧ segRights narrow &&& segRights old = segRights narrow ∧ segBase old ≤ segBase narrow ∧
      segBase narrow + segLimit narrow ≤ segBase old + segLimit old) ∧ (tOpsP 1 0 0 0).me.priv ≠ 0 ∧
    (fld 63 54 0x0007000000000000 = 0 ∧ ¬ (segRights wide = 0 ∨ (segRights wide &&& segRights old = segRights wide ∧ segBase old ≤ segBase wide ∧
      segBase wide + segLimit wide ≤ segBase old + segLimit old))) ∧ fld 63 54 0x0040000000000000 ≠ 0 := by decide

/-- R22, R23: a high half commits with the staged low half at G; at U a wider segment takes PRIV and changes nothing. -/
theorem test_segments :
    let g := nx (exec (.segCommit 1 0x0003000000000001) (nx (exec (.segStageWrite 1 0x2000) (tOpsP 1 0 0 0))))
    let u := nx (exec (.segCommit 1 0x0007000000000000) (tAt tSeg))
    g.me.sg[1] = BitVec.ofNat 128 (0x2000 + 2 ^ 64 + 3 * 2 ^ 112) ∧ fld 7 0 u.me.regs.tcause = 2 ∧ u.me.sg = tSeg.sg := by decide

/-- A legal CORETAG, XROOT and LMMAP, the largest LMMAP that fits, and reserved bits (R30, R34, R61). -/
theorem test_meets_tags :
    fld 63 24 0xFFFFFF = 0 ∧ (fld 11 1 0x1000 = 0 ∧ fld 63 48 0x1000 = 0) ∧
    (fld 7 4 0x07B08 = 0 ∧ fld 63 24 0x07B08 = 0 ∧ fld 3 0 0x07B08 ≤ 8 ∧ 16 * fld 3 0 0x07B08 + fld 15 8 0x07B08 + fld 23 16 0x07B08 ≤ 251) ∧
    (tAt tSlot).layoutBusy 5 = false ∧ fld 63 24 0x1000000 ≠ 0 := by decide

/-- R30, R34, R62: the registers take their values. -/
theorem test_tags :
    (nx (exec (.coretagWrite 0x010007) (tAt tSlot))).myProc.coretag = 0x010007 ∧ (nx (exec (.xrootWrite 0x3001) (tAt tSlot))).myProc.xroot = 0x3001 ∧
    (nx (exec (.lmmapWrite 0x10002) (tAt tSlot))).myProc.lmmap = 0x10002 := by decide

/-! ## Witnesses and effects: the own local memory, the stash, full/empty words, atomics -/

/-- Sixteen bytes of the own local memory from 0x4000: 0xFFFFFFF0 in the word at 0x4000, 0x80 at 0x4008. -/
def tMem : List Host.Cell :=
  [(winAddr 5 0x4000, 0xF0), (winAddr 5 0x4001, 0xFF), (winAddr 5 0x4002, 0xFF), (winAddr 5 0x4003, 0xFF), (winAddr 5 0x4008, 0x80)]

/-- The thread with g1 = x, g2 = y and g3 = z over that memory. -/
def tLoc (x y z : W64) : State := { tOps x y z with mem := tMem }

/-- Every access of these tests passes the check through sg0 and leads to its own offset. -/
theorem test_meets_ownAccess :
    OwnAccess (tLoc 0x4000 0 0) 0 ((tLoc 0x4000 0 0).offAM (am 4 1 0 0 0 3) 8) 8 1 0x4000 ∧
    OwnAccess (tLoc 0xFFFFF 0 0) 0 ((tLoc 0xFFFFF 0 0).offAM (am 4 1 0 0 0 3) 1) 1 1 0xFFFFF ∧
    OwnAccess (tLoc 0x800 0 0) 0 ((tLoc 0x800 0 0).offAX (ax 4 1 0 3 0 0 false)) 8 2 0x4000 ∧
    OwnAccess (tLoc 0x4000 0 0) 0 ((tLoc 0x4000 0 0).offAM (am 4 1 0 1 0 3) 8) 8 17 0x4008 ∧
    OwnAccess (tLoc 0x4000 0 0) 0 ((tLoc 0x4000 0 0).offAS (as 4 1 0 0 0 1) 8) 8 18 0x4008 ∧
    OwnAccess (tLoc 0x4000 0 0) 0 ((tLoc 0x4000 0 0).offAA (aa 3 1 2 0 0 4 3 false)) 4 8 0x4004 := by
  refine ⟨?_, ?_, ?_, ?_, ?_, ?_⟩ <;> exact ⟨by decide, by decide, by decide, by decide, by decide, by decide, by decide⟩

/-- There is an entry, room in the chunk for a read and a write, and no poison (R134, R164, R480). -/
theorem test_meets_room :
    (tLoc 0x4000 0 0).me.landFull = false ∧ Room (tLoc 0x4000 0 0) (locLine 5 0x4000) false ∧ Room (tLoc 0x4000 0 0) (locLine 5 0xFFFFF) true ∧
    (tLoc 0x4000 0 0).locBad 5 0 0x4000 8 = false :=
  ⟨by decide, ⟨rfl, rfl, rfl, by decide⟩, ⟨rfl, rfl, rfl, by decide⟩, by decide⟩

/-- R136, R224, R225: loads enter their value extended as their form says; a store is seen by the thread's later loads and not yet in memory. -/
theorem test_loads_stores :
    let got (i : Instr) (s : State) : List Landed := (nx (exec i s)).me.arch.landing.map fun l => l.res
    let s := tLoc 0x4000 0 0x1122334455667788
    let w := nx (exec (.st (as 3 1 0 2 0 2)) s)
    let x := nx (exec (.stx (ax 3 1 0 0 0 0 false)) s)
    got (.ldD (am 4 1 0 0 0 3)) s ++ got (.ldW (am 4 1 0 0 0 3)) s ++ got (.ldH (am 4 1 0 0 0 3)) s ++ got (.ldB (am 4 1 0 8 0 3)) s ++
      got (.ldsW (am 4 1 0 0 0 3)) s ++ got (.ldsH (am 4 1 0 0 0 3)) s ++ got (.ldsB (am 4 1 0 8 0 3)) s ++ got (.ldx (ax 4 1 0 0 0 0 true)) s ++
      got (.ldD (am 4 1 0 1 0 3)) w ++ got (.ldB (am 4 1 0 0 0 3)) x =
    [.value 0xFFFFFFF0, .value 0xFFFFFFF0, .value 0xFFF0, .value 0x80, .value 0xFFFFFFFFFFFFFFF0, .value 0xFFFFFFFFFFFFFFF0,
     .value 0xFFFFFFFFFFFFFF80, .value 0xFFFFFFFFFFFFFFF0, .value 0x55667788, .value 0x88] ∧ w.mem = tMem := by decide

/-- Accesses that trap, each at its own check: no right through an empty segment, past the limit, beyond the address space, misaligned. -/
theorem test_meets_accessTraps :
    let top : Slot := { tSlot with sg := (Vector.replicate 8 0).set 1 (BitVec.ofNat 128 (2 ^ 56 - 4 + 0xFF * 2 ^ 56 + 3 * 2 ^ 112)) }
    let s : State := { tAt top with opnd := opnd3 0x4001 0xFFFF9 0 }
    segHas (s.seg s.cur 2) 1 = false ∧ (segHas (s.seg s.cur 0) 1 = true ∧ segLimit (s.seg s.cur 0) < (s.offAM (am 4 2 0 0 0 3) 8).toNat + 7) ∧
    (segHas (s.seg s.cur 1) 2 = true ∧ (s.offAS (as 4 0 1 3 0 0) 8).toNat + 7 ≤ segLimit (s.seg s.cur 1) ∧
      2 ^ 56 ≤ segBase (s.seg s.cur 1) + (s.offAS (as 4 0 1 3 0 0) 8).toNat + 7) ∧
    (segBase (s.seg s.cur 0) + (s.offAM (am 4 1 0 0 0 3) 8).toNat) % 8 ≠ 0 ∧ (as 4 0 1 3 0 0).f = 3 ∧ s.me.inTrap = false := by decide

/-- R18, R323: causes of LD.d without the right, past the limit, and misaligned: SEGV with its segment and reason, and ALIGN. -/
theorem test_access_traps :
    let cause (r : AM) : W64 := (nx (exec (.ldD r) (tOps 0x4001 0xFFFF9 0))).me.regs.tcause
    [cause (am 4 1 2 0 0 3), cause (am 4 2 0 0 0 3), cause (am 4 1 0 0 0 3)] = [0x203, 0x803, 0x04] := by decide

/-- A clean stash line of VMID 0 at 0x1000 that U may read and write, its first dword 0x1234. -/
def tStashLine : StashLine :=
  { st := .x, ltag := 0x10, vmid := 0, gtag := 0x10, sec0 := .clean, sec1 := .absent, w1 := true, u1 := true, mt := 0, w2 := true, pin := false }

/-- A segment 1 over the paged region, rights R and W, and that line in the stash of core 5. -/
def tPaged : State :=
  let t : Slot := { tSlot with sg := (Vector.replicate 8 0).set 1 (BitVec.ofNat 128 (0xFFFF * 2 ^ 56 + 3 * 2 ^ 112)) }
  { (tAt t).modProc 5 fun p => { p with xroot := 1 } with
    opnd := opnd3 0x1000 0 0, cores := [(5, { Core.init 5 with stash := [(0, tStashLine)] })], secs := [(secKey 0 0x1000, 0x1234)] }

/-- A load that the stash serves: its segment, its line, its rights and its sector (R38, R70, R72). -/
theorem test_meets_stashLoads :
    let g := tPaged.seg tPaged.cur 1
    let off := tPaged.offAM (am 4 1 1 0 0 3) 8
    (segHas g 1 = true ∧ off.toNat + 7 ≤ segLimit g ∧ segBase g + off.toNat + 7 < 2 ^ 55 ∧ (segBase g + off.toNat) % 8 = 0 ∧ tPaged.me.landFull = false ∧
      tPaged.me.grants = [] ∧ tb 0 tPaged.myProc.xroot = true ∧ (rangeOf 0x1000).named = true ∧ tPaged.stashHit tPaged.myProc.core (segBase g + off.toNat) = some (0, tStashLine) ∧
      rights1 tPaged.me.priv false tStashLine.w1 tStashLine.u1 = true ∧ tStashLine.sec (secOf 0x1000) = .clean) ∧
    Room tPaged (.paged 0 0x10) false :=
  ⟨by decide, ⟨rfl, rfl, rfl, by decide⟩⟩

/-- R72: the load takes its value from the sector. -/
theorem test_stash_load : (nx (exec (.ldD (am 4 1 1 0 0 3)) tPaged)).me.arch.landing.map (fun l => l.res) = [.value 0x1234] := by decide +kernel

/-- The same memory with the word at 0x4008 empty. -/
def tEmpty : State := { tLoc 0x4000 0 0x77 with empty := [winAddr 5 0x4008] }

/-- Words that full/empty operations and atomics act on at once, at the ends of the image (R63, R140). -/
theorem test_meets_freeWord :
    FreeWord (tLoc 0x4000 0 0) 0x4000 8 ∧ FreeWord (tLoc 0 0 0) 0xFFFF8 8 ∧ FreeWord tEmpty 0x4008 8 ∧ FreeWord (tLoc 0x4000 0 0) 0x4004 4 := by
  refine ⟨?_, ?_, ?_, ?_⟩ <;> exact ⟨by decide, by decide, by decide, by decide, quiet_of _ rfl rfl rfl rfl (fun h => nomatch h)⟩

/-- A full word and an empty one; nobody waits, and WAITLIM is not 0 (R65, R228). -/
theorem test_meets_fullEmpty :
    (tLoc 0x4000 0 0).isFull 5 2 0x4008 = true ∧ tEmpty.isFull 5 2 0x4008 = false ∧
    (tEmpty.me.wait = none ∧ tEmpty.myProc.waits = [] ∧ tEmpty.waitlim ≠ 0) ∧ ((tLoc 0x4000 0 0).me.wait = none ∧ (tLoc 0x4000 0 0).waitlim ≠ 0) := by
  decide

/-- R65, R226: LDSYNC lands a full word and empties it, LDFF leaves it full; STSYNC fills an empty one, STFILL any, SETE empties;
R67: LDSYNC of an empty word joins its queue. -/
theorem test_full_empty :
    let s := tLoc 0x4000 0 0x77
    let a := nx (exec (.ldsync (am 4 1 0 1 0 3)) s)
    let b := nx (exec (.ldff (am 4 1 0 1 0 3)) s)
    let c := nx (exec (.stsync (as 3 1 0 0 0 1)) tEmpty)
    let d := nx (exec (.stfill (as 3 1 0 1 0 1)) s)
    let e := nx (exec (.sete (as 0 1 0 2 0 1)) s)
    let w := nx (exec (.ldsync (am 4 1 0 1 0 3)) tEmpty)
    (a.me.arch.landing.map (fun l => l.res) = [.value 0x80] ∧ a.isFull 5 2 0x4008 = false) ∧
    (b.me.arch.landing.map (fun l => l.res) = [.value 0x80] ∧ b.isFull 5 2 0x4008 = true) ∧
    (c.locRead 5 2 0x4008 8 = 0x77 ∧ c.isFull 5 2 0x4008 = true) ∧ (d.locRead 5 2 0x4008 8 = 0x77 ∧ d.isFull 5 2 0x4008 = true) ∧
    (e.locRead 5 2 0x4008 8 = 0x80 ∧ e.isFull 5 2 0x4008 = false) ∧ (w.myProc.waits.map (fun x => x.key) = [0x4008] ∧ w.me.arch.landing.length = 1) := by
  decide +kernel

/-- The word at 0x4000 and what landed after an atomic of word size with the operands d and b. -/
def outAA (i : AA → Instr) (d b : W64) : Nat × List Landed :=
  let t := nx (exec (i (aa 3 1 2 0 0 0 3 false)) (tLoc 0x4000 b d))
  (t.locRead 5 2 0x4000 4, t.me.arch.landing.map fun l => l.res)

/-- The table after R232, and the other operations by R231. -/
theorem test_atomics :
    [outAA .afaa 0x20 0, outAA .amin 5 0, outAA .aminu 5 0, outAA .acas 0xFFFFFFF0 9, outAA .acas 0 9, outAA .axchg 7 0, outAA .amax 5 0,
     outAA .amaxu 5 0, outAA .aand 0x3C 0, outAA .aor 0x0F 0] =
    [(0x10, [.value 0xFFFFFFF0]), (0xFFFFFFF0, [.value 0xFFFFFFF0]), (5, [.value 0xFFFFFFF0]), (9, [.value 0xFFFFFFF0]),
     (0xFFFFFFF0, [.value 0xFFFFFFF0]), (7, [.value 0xFFFFFFF0]), (5, [.value 0xFFFFFFF0]), (0xFFFFFFF0, [.value 0xFFFFFFF0]),
     (0x30, [.value 0xFFFFFFF0]), (0xFFFFFFFF, [.value 0xFFFFFFF0])] := by decide

/-- The forms that return nothing write the same word and land nothing (R231). -/
theorem test_posted_atomics :
    [outAA .afaaN 0x20 0, outAA .axchgN 7 0, outAA .acasN 0xFFFFFFF0 9, outAA .aminN 5 0, outAA .amaxN 5 0, outAA .aminuN 5 0, outAA .amaxuN 5 0,
     outAA .aandN 0x3C 0, outAA .aorN 0x0F 0] =
    [(0x10, []), (7, []), (9, []), (0xFFFFFFF0, []), (5, []), (5, []), (0xFFFFFFF0, []), (0x30, []), (0xFFFFFFFF, [])] := by decide

/-! ## Witnesses and effects: messages -/

/-- A dword of local memory set. -/
def put (s : State) (lpn off : Nat) (v : W64) : State := s.hwWrite lpn off v

/-- Channel 1 of LPN 5 open, four slots at 0x6000, its head in slot 3 with a message of two dwords and one more behind it. -/
def tChan : State :=
  put (put (put (put (put (tOps 0 0 0) 5 0x3440 (w64 (1 + 4 * 2 ^ 8 + 0x6000 * 2 ^ 20))) 5 0x3448 (w64 (3 + 2 * 2 ^ 12)))
    5 0x60D8 (w64 (7 + 2 ^ 19 + 2 ^ 34 + 2 ^ 63))) 5 0x60E0 0x11) 5 0x60E8 0x22

/-- A channel with a message, one that is closed, an inbox with and without an entry (R254 to R257). -/
theorem test_meets_taking :
    (chEN (tChan.chA 5 1) = true ∧ chCOUNT (tChan.chB 5 1) ≠ 0 ∧ chSPILLN (tChan.chB 5 1) = 0 ∧ tChan.myProc.rwait = []) ∧
    (chEN (tChan.chA 5 2) = false ∧ tChan.me.wait = none ∧ tChan.myProc.inCount = 0) ∧ chCOUNT (tChan.chB 5 1) + chSPILLN (tChan.chB 5 1) ≠ 0 ∧
    ((tChan.modProc 5 fun p => { p with inCount := 256 }).myProc.inCount ≠ 0 ∧ (tChan.modProc 5 fun p => { p with inCount := 256 }).myProc.inWait = []) := by
  decide +kernel

/-- An unlisted key reads as the default. -/
theorem spGet_absent {α : Type} (d : α) (k : Nat) : ∀ l : Sp α, k ∉ l.map (fun e => e.1) → spGet d l k = d
  | [], _ => rfl
  | (a, v) :: t, h => by
    simp only [List.map_cons, List.mem_cons, not_or] at h
    rw [spGet, if_neg (Ne.symm h.1), spGet_absent d k t h.2]

/-- A process whose one slot is 0 runs one thread. -/
theorem onlyThread_of {s : State} (hc : s.cur = tWho) (h : (s.proc 5).slots.map (fun e => e.1) = [0]) : OnlyThread s := by
  rintro ⟨l, n⟩ hl hn
  rw [hc] at hl hn
  have hl : l = 5 := hl
  subst hl
  have h0 : n ≠ 0 := fun h => hn (by subst h; rfl)
  have : s.slot { lpn := 5, slot := n } = Slot.init := spGet_absent _ _ _ (by rw [h]; simp [h0])
  rw [this]
  exact ⟨rfl, rfl⟩

theorem test_meets_onlyThread : OnlyThread tChan := onlyThread_of (by decide +kernel) (by decide +kernel)

/-- R254, R255: PEEK and RECV write the header and the payload, with 0 past its length, and RECV takes the head; CHSTAT of the channel. -/
theorem test_taking :
    let p := nx (exec (.peek (ak 4 3 0 0 1 2)) tChan)
    let r := nx (exec (.recv (ak 4 3 0 0 1 2)) tChan)
    let regs (t : State) : List W64 := [3, 4, 5, 6].map t.me.arch.rd
    regs p = [w64 (7 + 2 ^ 19 + 2 ^ 34 + 2 ^ 63), 0x11, 0x22, 0] ∧ regs r = regs p ∧ p.chB 5 1 = tChan.chB 5 1 ∧
    (chHEAD (r.chB 5 1), chCOUNT (r.chB 5 1)) = (0, 1) ∧
    (nx (exec (.chstat (ak 4 0 0 0 1 0)) tChan)).me.arch.rd 4 = w64 (2 + 2 ^ 28 + 4 * 2 ^ 34) := by decide +kernel

/-- R254, R256, R257: RECV of a closed channel and WAITM of the inbox wait; INB of an empty inbox writes zeros, of a full one its head. -/
theorem test_inbox :
    let s := put (put (tChan.modProc 5 fun p => { p with inHead := 0, inCount := 1 }) 5 (inboxOff 0 0) 0x55) 5 (inboxOff 0 0 + 8) 0x66
    let t := nx (exec (.inb (ar 4 0 0 0 false false)) s)
    (t.me.arch.rd 4, t.me.arch.rd 5, t.myProc.inCount) = (0x55, 0x66, 0) ∧ (nx (exec (.inb (ar 4 0 0 0 false false)) tChan)).me.arch.rd 4 = 0 ∧
    (nx (exec (.recv (ak 4 3 0 0 2 0)) tChan)).me.st = .waiting ∧ (nx (exec (.waitm (ak 0 0 0 0 2 0)) tChan)).me.st = .waiting ∧
    (nx (exec (.waitm (ak 0 0 0 0 1 0)) tChan)).me.st = .ready ∧ (nx (exec (.waitmI (ak 0 0 0 0 0 1)) tChan)).me.st = .waiting := by decide +kernel

/-- A thread that sends to its own process on channel 2, with a send entry at the ends of SEQ, OUT and WT. -/
def tSend : State := put (tOps 0xA 5 0xB) 5 0x3640 (w64 (seqKey false 5 2 + 4095 * 2 ^ 24 + 2047 * 2 ^ 36 + 65535 * 2 ^ 48))

/-- SEND to a process that a lookup places, and to one that none places (R253). -/
theorem test_meets_sending :
    (tSend.placeLookup (tSend.hostOf 5) ((tSend.rdB 2 none).toNat % 2 ^ 19) = .host 5 ∧ tSend.me.atomics = [] ∧ tSend.me.heldMsgs = [] ∧
      tSend.seqFind 5 (seqKey false 5 2) = some 0 ∧ seqOUT (tSend.seqAt 5 0) < 2048) ∧
    tSend.placeLookup (tSend.hostOf 5) 9 = .none := by decide +kernel

/-- R249, R253: the message carries SEQ 4,095 and the payload; SEQ wraps, OUT rises, WT stays at its limit. -/
theorem test_send :
    let t := nx (exec (.send (ak 1 0 2 0 2 0)) tSend)
    let e := t.seqAt 5 0
    (seqSEQ e, seqOUT e, seqWT e) = (0, 2048, 65535) ∧ t.me.sends = [(5, 5, 2, 4095)] ∧
    t.item 0 = some (.msg { src := 5, dst := 5, ch := 2, seq := 4095, pay := [0xA], tag := 0, who := tWho, pc := 0x5000, skip := false }) := by
  decide +kernel

/-- A message of LPN 7 to channel 1 of LPN 5, under a tag. -/
def tMsg (tag : BitVec 24) (skip : Bool) : Msg :=
  { src := 7, dst := 5, ch := 1, seq := 3, pay := [0xAA], tag := tag, who := { lpn := 7, slot := 0 }, pc := 0, skip := skip }

/-- That message in flight under 2, its receive entry expecting SEQ 3. -/
def tArrive (tag : BitVec 24) (skip : Bool) : State :=
  { put tChan 5 0x3640 (w64 (seqKey true 7 1 + 3 * 2 ^ 24)) with net := [(2, .msg (tMsg tag skip))], nextId := 3 }

/-- A message that is accepted, one of another job, a skip notice, and a closed channel (R31, R258). -/
theorem test_meets_arrivals :
    ((tArrive 0 false).item 2 = some (.msg (tMsg 0 false)) ∧ 2 < (tArrive 0 false).nextId ∧ (tMsg 0 false).pay.length ≤ 8 ∧
      jobCheck (tMsg 0 false).tag ((tArrive 0 false).proc 5) = true ∧ (tArrive 0 false).seqFind 5 (seqKey true 7 1) = some 0 ∧
      seqSEQ ((tArrive 0 false).seqAt 5 0) = 3 ∧ chEN ((tArrive 0 false).chA 5 1) = true ∧ chSPILLN ((tArrive 0 false).chB 5 1) = 0 ∧
      chCOUNT ((tArrive 0 false).chB 5 1) < chQCAP ((tArrive 0 false).chA 5 1) ∧ (tMsg 0 false).skip = false) ∧
    (tMsg 0 true).skip = true ∧ jobCheck (tMsg 0x010007 false).tag ((tArrive 0x010007 false).proc 5) = false ∧ chEN ((tArrive 0 false).chA 5 2) = false := by
  decide +kernel

theorem test_meets_plainQueue : PlainQueue (tArrive 0 false) 5 0x6048 :=
  ⟨by decide, by decide +kernel, by decide +kernel, by decide +kernel⟩

/-- R258: the message stands at the tail of the queue (slot (3 + 2) mod 4), COUNT and SEQ rise; a skip notice advances SEQ alone; a message
of another job is refused. -/
theorem test_arrivals :
    let t := nx (exec (.messageArrive 2) (tArrive 0 false))
    let u := nx (exec (.skipNoticeArrive 2) (tArrive 0 true))
    let v := nx (exec (.messageArrive 2) (tArrive 0x010007 false))
    (t.hwRead 5 0x6048, t.hwRead 5 0x6050, chCOUNT (t.chB 5 1), seqSEQ (t.seqAt 5 0)) = (w64 (7 + 2 ^ 19 + 3 * 2 ^ 22 + 2 ^ 63), 0xAA, 3, 4) ∧
    (chCOUNT (u.chB 5 1), seqSEQ (u.seqAt 5 0)) = (2, 4) ∧ v.net = [(3, .msgRefused (tMsg 0x010007 false) 2)] := by
  decide +kernel

/-- A message of the running thread to LPN 6, channel 1, and its send entry with one outstanding. -/
def tMine : Msg := { src := 5, dst := 6, ch := 1, seq := 3, pay := [0xAA], tag := 0, who := tWho, pc := 0x5000, skip := false }

/-- An item in flight to the thread that sent it, which holds messages. -/
def tBack (i : Item) (held : List HeldMsg) : State :=
  { put (tAt { tSlot with heldMsgs := held, sends := [(5, 6, 1, 3)] }) 5 0x3640 (w64 (seqKey false 6 1 + 4 * 2 ^ 24 + 2 ^ 36)) with
    net := [(2, i)], nextId := 3 }

/-- An acknowledgement and a weight report with their entries (R249, R436). -/
theorem test_meets_acknowledgements :
    ((tBack (.ack 5 6 1 3) []).item 2 = some (.ack 5 6 1 3) ∧ (tBack (.ack 5 6 1 3) []).seqFind 5 (seqKey false 6 1) = some 0 ∧ 0 < 312) ∧
    (let s : State := { put tChan 5 0x3648 (w64 (seqKey true 7 1)) with net := [(2, .weight 7 5 1 70000)] }
     s.item 2 = some (.weight 7 5 1 70000) ∧ s.seqFind 5 (seqKey true 7 1) = some 1) := by decide +kernel

/-- R249, R436: OUT falls and the message leaves the list; the weight is written modulo 2^16. -/
theorem test_acknowledgements :
    let t := nx (exec (.messageAck 2) (tBack (.ack 5 6 1 3) []))
    let u := nx (exec (.weightReport 2) { put tChan 5 0x3648 (w64 (seqKey true 7 1)) with net := [(2, .weight 7 5 1 70000)] })
    (seqOUT (t.seqAt 5 0), t.me.sends) = (0, []) ∧ seqWT (u.seqAt 5 1) = 4464 := by decide +kernel

/-- A refused message that is held. -/
def tHeld : HeldMsg := { msg := tMine, since := 0, id := 9 }

/-- Refusals for want of room, by a closed channel and by the job check; a held message at its limit and one offered again (R258 to R261). -/
theorem test_meets_refusals :
    (tMine.skip = false ∧ (tBack (.msgRefused tMine 0) []).seqFind 5 (seqKey false 6 1) = some 0 ∧ ((tBack (.msgRefused tMine 0) []).slot tWho).st ≠ .absent ∧
      ((tBack (.msgRefused tMine 0) []).slot tWho).st ≠ .halted ∧ (tBack (.msgRefused tMine 0) []).item 2 = some (.msgRefused tMine 0) ∧
      ∀ h ∈ ((tBack (.msgRefused tMine 0) []).slot tWho).heldMsgs, h.msg ≠ tMine) ∧
    (tBack (.msgRefused tMine 1) []).item 2 = some (.msgRefused tMine 1) ∧ (tBack (.msgRefused tMine 2) []).item 2 = some (.msgRefused tMine 2) ∧
    (let s : State := { tBack (.ack 5 6 1 2) [tHeld] with net := [] }
     tHeld ∈ (s.slot tWho).heldMsgs ∧ tHeld.id = 9 ∧ ((s.slot tWho).heldMsgs.find? fun x => x.id == 9) = some tHeld ∧
      (∀ e ∈ s.net, e.2 ≠ .ack 5 6 1 3) ∧ (s.slot tWho).heldMsgs ≠ [] ∧ ∀ h ∈ (s.slot tWho).heldMsgs, s.msgInFlight h.msg = false) ∧
    (let k : Msg := { tMine with skip := true, pay := [0] }
     (tBack (.msg k) []).item 2 = some (.msg k)) := by decide +kernel

/-- R260, R261: the refusals' effects on the sender: held; SENDSTALL; SEGV reason 5; given up at the limit. -/
theorem test_refusals :
    let due (s : State) : List (Nat × Nat) := (s.slot tWho).due.map fun d => (d.code, d.reason)
    let r (n : Nat) : State := nx (exec (.messageRefused 2) (tBack (.msgRefused tMine n) []))
    (((r 0).slot tWho).heldMsgs.map fun h => h.msg) = [tMine] ∧ due (r 1) = [(10, 0)] ∧ due (r 2) = [(3, 5)] ∧ seqOUT ((r 1).seqAt 5 0) = 0 ∧
    (let t := nx (exec (.sendlimExpiry 5 0 9) { tBack (.ack 5 6 1 2) [tHeld] with net := [] })
     due t = [(10, 0)] ∧ (t.slot tWho).heldMsgs = []) ∧
    (nx (exec (.messageReoffer 5 0) { tBack (.ack 5 6 1 2) [tHeld] with net := [] })).net = [(3, .msg tMine)] := by decide +kernel

/-- A thread with a pending channel 3 and a masked channel 1, its handler at 0x7000. -/
def tPend : Slot :=
  { tSlot with regs := { tSlot.regs with uivec := 0x7001, uistat := w64 (2 + 2 ^ 17 + 2 ^ 19) } }

/-- A user interrupt that may be delivered, and an inbox entry that has room (R257, R272). -/
theorem test_meets_delivery :
    ((tAt tPend).me.st = .ready ∧ (tAt tPend).me.arch.past = false ∧ tb 0 (tAt tPend).me.regs.uivec = true ∧ (tAt tPend).me.inUser = false ∧
      3 < 9 ∧ tb (16 + 3) (tAt tPend).me.regs.uistat = true ∧ tb 3 (tAt tPend).me.regs.uistat = false) ∧
    (let s := (tAt tSlot).modProc 5 fun p => { p with inWait := [{ id := 4, who := tWho, lid := 0, w0 := 1, w1 := 2 }], inCount := 255 }
     (s.proc 5).inWait = [{ id := 4, who := tWho, lid := 0, w0 := 1, w1 := 2 }] ∧ (s.proc 5).inCount < 256) := by decide

/-- R272: h0 takes the PC, h1 the channel, its pending bit is cleared, H is set, and the handler is entered; R257: the entry is placed. -/
theorem test_delivery :
    let y := (nx (exec (.userInterruptDeliver 5 0) (tAt tPend))).me
    let t := nx (exec (.inboxEntryPlace 5) ((tAt tSlot).modProc 5 fun p => { p with inWait := [{ id := 4, who := tWho, lid := 0, w0 := 1, w1 := 2 }], inCount := 255 }))
    (y.hbank[0], y.hbank[1], y.regs.uistat, y.arch.pc) = (0x5000, 3, w64 (2 + 2 ^ 17 + 2 ^ 32), 0x7000) ∧
    ((t.proc 5).inCount, t.hwRead 5 (inboxOff 0 255)) = (256, 1) := by decide +kernel

/-! ## Witnesses and effects: the stash, tasks, barriers, waits -/

/-- The paged access through g1 and the line it meets (R18, R70). -/
theorem test_meets_stashControl :
    PagedAccess tPaged 1 (tPaged.offAQ (aq 1 1 0)) 1 1 0x1000 ∧ InStash tPaged 0x1000 0 tStashLine ∧
    (stashSets tPaged.myProc = 0 ∧ tPaged.me.grants = [] ∧ rights1 tPaged.me.priv false tStashLine.w1 tStashLine.u1 = true ∧ tStashLine.mt = 0 ∧
      tStashLine.sec (0x1000 / 128 % 2) = .clean ∧ tStashLine.pin = false ∧ tStashLine.st ≠ .s) :=
  ⟨⟨by decide, by decide, by decide, by decide, by decide, by decide⟩, ⟨by decide, by decide, by decide⟩, by decide⟩

/-- A stash of one unit with that line dirty, and four pinned lines of the set above it. -/
def tStash (pins : Nat) : State :=
  let l : StashLine := { tStashLine with sec0 := .dirty }
  let p : List (Nat × StashLine) := (List.range pins).map fun i => (i + 1, { tStashLine with ltag := 0x30 + i, gtag := 0x30 + i, pin := true })
  let s : State := { tPaged with cores := [(5, { Core.init 5 with stash := (0, l) :: p })] }
  s.modProc 5 fun q => { q with lmmap := 1 }

/-- The sets with room for a pin and without. -/
theorem test_meets_pinned :
    stashSets (tStash 3).myProc ≠ 0 ∧ (((tStash 3).core 5).stash.filter fun e => e.1 / 8 == 0 / 8 && e.2.pin).length < 4 ∧
    4 ≤ (((tStash 4).core 5).stash.filter fun e => e.1 / 8 == 0 / 8 && e.2.pin).length := by decide

/-- R234: SPIN pins and reads 0, reads 1 with four pinned, 2 without a stash; R236: SFLUSH leaves the line shared and clean; R237: SINV drops it. -/
theorem test_stash_control :
    let st (i : Instr) (s : State) : W64 × List (LineSt × SecSt × Bool) :=
      let t := nx (exec i s)
      (t.me.regs.spinres, ((t.core 5).stash.take 1).map fun e => (e.2.st, e.2.sec0, e.2.pin))
    st (.spin (aq 1 1 0)) (tStash 0) = (0, [(.x, .dirty, true)]) ∧ st (.spin (aq 1 1 0)) (tStash 4) = (1, [(.x, .dirty, false)]) ∧
    st (.spin (aq 1 1 0)) tPaged = (2, [(.x, .clean, false)]) ∧ (st (.sflush (aq 1 1 0)) (tStash 0)).2 = [(.s, .clean, false)] ∧
    (st (.sinv (aq 1 1 0)) (tStash 0)).2 = [] ∧ (st (.pref (aq 1 1 0)) (tStash 0)).2 = [(.x, .dirty, false)] := by decide +kernel

/-- A task record at 0x4000 in level 1: PC 0x8000, g1 = 1, the rest 0; g1 = 0x4000 and g2 = 5. -/
def tTask (n : Nat) : State :=
  let r : Ready := { rcd := (Vector.replicate 8 0).set 0 (w64 (0x9000 + 2 ^ 20)), level := 1, resume := none, age := 0, aged := none }
  (put (put (tOps 0x4000 5 0) 5 0x4000 (w64 (0x8000 + 2 ^ 20))) 5 0x4008 1).modProc 5 fun p => { p with ready := List.replicate n r }

/-- A good record of the own process, with room in its level and without (R383, R388). -/
theorem test_meets_taskPosting :
    OwnAccess (tTask 7) 0 ((tTask 7).rd 1) 64 1 0x4000 ∧ (((tTask 7).rdB 2 none).toNat % 2 ^ 19 = 5 ∧ (tTask 7).me.atomics = []) ∧
    (tTask 7).placeLookup ((tTask 7).hostOf 5) 5 = .host 5 ∧ GoodRecord (tTask 7) 0x4000 ∧
    ((tTask 7).myProc.ready.filter fun x => x.level == 1 && x.resume.isNone).length < 8 ∧
    8 ≤ ((tTask 8).myProc.ready.filter fun x => x.level == 1 && x.resume.isNone).length ∧
    ((tTask 8).me.wait = none ∧ fld 31 0 (tTask 8).me.regs.waitlim ≠ 0) :=
  ⟨(by constructor <;> decide +kernel),
   by decide +kernel, by decide +kernel, (by constructor <;> decide +kernel),
   by decide +kernel, by decide +kernel, by decide +kernel⟩

/-- R388: SPAWN joins the queue and sets p1, or clears it when the level is full; TPOST waits; R385, R386: TNEXT starts the record in slot 1
with its PC, or answers all ones. -/
theorem test_tasks :
    let sp (n : Nat) : BitVec 8 × Nat := let t := nx (exec (.spawn (ar 1 1 2 0 false false)) (tTask n)); (t.me.arch.pw, t.myProc.ready.length)
    let tp (n : Nat) : SlotSt × Nat := let t := nx (exec (.tpost (ar 0 1 2 0 false false)) (tTask n)); (t.me.st, t.myProc.ready.length)
    let tn (n : Nat) : W64 × BitVec 20 × Nat :=
      let t := nx (exec (.tnext (ar 3 0 0 0 false false)) (tTask n)); (t.me.arch.rd 3, (t.myProc.slot 1).arch.pc, t.myProc.ready.length)
    sp 7 = (3, 8) ∧ sp 8 = (1, 8) ∧ tp 7 = (.ready, 8) ∧ tp 8 = (.waiting, 8) ∧ tn 2 = (1, 0x9000, 1) ∧ tn 0 = (BitVec.allOnes 64, 0, 0) := by
  decide +kernel

/-- Records of levels 2 and 1, and one of level 3 that is aged. -/
def tReady (lv : Nat) (aged : Option Nat) : Ready := { rcd := Vector.replicate 8 0, level := lv, resume := none, age := 0, aged := aged }

/-- R385: the lowest level goes first, the aged one before it. -/
theorem test_take_order :
    chooseReady [tReady 2 none, tReady 1 none, tReady 1 none] = some (tReady 1 none) ∧
    chooseReady [tReady 1 none, tReady 3 (some 9), tReady 2 (some 4)] = some (tReady 2 (some 4)) := by decide

/-- A take that finds a slot, one that finds none, and an empty queue (R385, R389). -/
theorem test_meets_taskTaking :
    (tTask 0).myProc.ready = [] ∧ ((chooseReady (tTask 1).myProc.ready).map (fun x => x.resume) = some none ∧ (tTask 1).myProc.taskSlot = some 1 ∧
      1 ≠ (tTask 1).cur.slot) ∧
    ((tTask 1).modProc 5 fun p => { p with slots := (List.range 16).map fun i => (i, tSlot) }).myProc.taskSlot = none := by decide +kernel

/-- A thread with a join pointer to the word at 0x4000, through segment 0, which holds v. -/
def tJoin (j v : W64) : State := put (tAt { tSlot with join := j }) 5 0x4000 v

/-- RETJ without a join pointer, and with join words of 2, 1 and 0 (R390). -/
theorem test_meets_joinReturn :
    ((tJoin 0 2).me.atomics = [] ∧ (tJoin 0 2).me.join = 0) ∧ (tJoin 0x4000 2).me.join ≠ 0 ∧ (tJoin 0x4000 2).myProc.contbuf.length < 16 ∧
    OwnAccess (tJoin 0x4000 2) (BitVec.ofNat 3 (fld 2 0 (0x4000 : W64))) (w64 (fld 63 7 (0x4000 : W64) * 128)) 8 9 0x4000 ∧
    FreeWord (tJoin 0x4000 2) 0x4000 8 ∧ [ownWord (tJoin 0x4000 2) 0x4000 8, ownWord (tJoin 0x4000 1) 0x4000 8, ownWord (tJoin 0x4000 0) 0x4000 8] = [2, 1, 0] :=
  ⟨by decide +kernel, by decide +kernel, by decide +kernel,
   (by constructor <;> decide +kernel),
   ⟨by decide +kernel, by decide +kernel, by decide +kernel, by decide +kernel,
    (by constructor <;> decide +kernel)⟩, by decide +kernel⟩

/-- R178, R390: the word falls, a zero word stays and is counted, and the thread is gone once its bundle is done. -/
theorem test_join :
    let r (v : W64) : Nat × Nat × Nat × SlotSt × SlotSt :=
      let m := nx (exec (.retj (ar 0 0 0 0 false false)) (tJoin 0x4000 v))
      let t := m.finish true false false m.me.arch
      (ownWord t 0x4000 8, fld 63 56 t.myProc.taskcfg, t.myProc.contbuf.length, m.me.st, (t.slot tWho).st)
    r 2 = (1, 0, 0, .ready, .absent) ∧ r 1 = (0, 0, 1, .ready, .absent) ∧ r 0 = (0, 1, 0, .ready, .absent) := by decide +kernel

/-- A thread that ends with its bundle: after a HALT, and after a join that found 0, 2 and, with a good and a short record, 1. -/
theorem test_meets_ending :
    let s (e : Ending) : State := tAt { tSlot with ending := some e }
    let k : List W64 := w64 (0x8000 + 2 ^ 20 + 5 * 2 ^ 40) :: List.replicate 7 0
    (∀ e ∈ [Ending.halt, .retired 0 [], .retired 2 [], .retired 1 k], (s e).me.ending = some e ∧ (s e).me.pushq = [] ∧
      (s e).myCore.streams = [] ∧ (s e).bpops = [] ∧ (s e).leaving = none) ∧
    k.length = 8 ∧ taskBad (Vector.ofFn fun i : Fin 8 => k.getD i.val 0) = false := by decide +kernel

/-- A thread that waits with a kind, under the number 4. -/
def tWaits (k : WaitKind) (l : Option Latch) : Slot :=
  { tSlot with st := .waiting, wait := some { kind := k, id := 4, since := 0, limit := 10, addr := 0x77 }, latch := l }

/-- SLEEP fresh, of 0 and of 2^32 − 1 cycles, and with a pending bit that ends it; a sleep and a TPOST that end (R388, R392). -/
theorem test_meets_sleeping :
    let s := tOps 0 0xFFFFFFFF 0
    let w : State := { tAt { tSlot with regs := { tSlot.regs with uistat := w64 (2 ^ 17) } } with opnd := opnd3 0 5 0 }
    (s.me.sleepLeft = none ∧ s.me.wait = none ∧ s.me.sleepBits = 0 ∧ fld 31 0 (s.rdB 1 none) = 0 ∧ fld 31 0 (s.rdB 2 none) ≠ 0) ∧
    (w.me.sleepLeft = none ∧ w.me.wait = none ∧ w.me.sleepBits ≠ 0) ∧
    (((tAt (tWaits .sleep none)).slot tWho).wait = some { kind := .sleep, id := 4, since := 0, limit := 10, addr := 0x77 } ∧
      ((tAt (tWaits .sleep none)).slot tWho).st = .waiting) ∧
    (((tAt (tWaits .tpost none)).slot tWho).wait = some { kind := .tpost, id := 4, since := 0, limit := 10, addr := 0x77 } ∧
      ((tAt (tWaits .tpost none)).slot tWho).latch = none) := by decide

/-- R392: 0 cycles write 0; a pending channel 1 ends a sleep of 5 with the bits above the remaining count; the end of a sleep. -/
theorem test_sleep :
    let w : State := { tAt { tSlot with regs := { tSlot.regs with uistat := w64 (2 ^ 17) } } with opnd := opnd3 0 5 0 }
    (nx (exec (.sleep (ar 3 0 1 0 false false)) w)).me.arch.rd 3 = w64 (2 * 2 ^ 32) ∧
    (nx (exec (.sleep (ar 3 0 2 0 false false)) w)).me.arch.rd 3 = w64 (5 + 2 * 2 ^ 32) ∧
    (nx (exec (.sleep (ar 3 0 2 0 false false)) (tOps 0 5 0))).me.wait.map (fun x => x.limit) = some 5 ∧
    ((nx (exec (.sleepExpiry 5 0 4) (tAt (tWaits .sleep none)))).slot tWho).st = .ready ∧
    ((nx (exec (.tpostRetry 5 0) (tAt (tWaits .tpost none)))).slot tWho).st = .ready := by decide +kernel

/-- A continuation of LPN 5 in level 1, with n records in that level. -/
def tCont (n : Nat) : State :=
  (tTask n).modProc 5 fun p => { p with contbuf := [(Vector.replicate 8 0).set 0 (w64 (0x8000 + 2 ^ 20 + 5 * 2 ^ 40))] }

/-- A buffered continuation, with room in its level and without (R390). -/
theorem test_meets_continuations :
    let k : TaskRec := (Vector.replicate 8 0).set 0 (w64 (0x8000 + 2 ^ 20 + 5 * 2 ^ 40))
    ((tCont 7).proc 5).contbuf = [k] ∧ fld 58 40 k[0] = 5 ∧ ((tCont 7).core ((tCont 7).hostOf 5)).frozen = false ∧
    ((((tCont 7).proc 5).ready.filter fun x => x.level == fld 21 20 k[0] && x.resume.isNone).length < 8) ∧
    8 ≤ ((((tCont 8).proc 5).ready.filter fun x => x.level == fld 21 20 k[0] && x.resume.isNone).length) := by decide +kernel

/-- R390: it joins the ready queue, or stays while the level is full. -/
theorem test_continuations :
    let c (n : Nat) : Nat × Nat := let t := nx (exec (.continuationRetry 5) (tCont n)); ((t.proc 5).contbuf.length, (t.proc 5).ready.length)
    c 7 = (0, 8) ∧ c 8 = (1, 8) := by decide +kernel

/-- Barrier record 511 of LPN 5: COUNT 3, ARR a, GEN 0xFFFF; g1 its name, g2 the weight. -/
def tBar (count a : BitVec 16) (w : W64) (waits : List Waiter) : State :=
  (tOps (w64 (511 + 5 * 2 ^ 9)) w 0).modProc 5 fun p => { p with bars := [(511, { count := count, arr := a, gen := 0xFFFF })], waits := waits }

/-- A thread of slot 1 that waits at that record for g4. -/
def tBarWaiter : Waiter := { id := 4, who := { lpn := 5, slot := 1 }, op := none, key := 511, val := 0, remote := false, priv := 0 }

/-- A latch for destination g4. -/
def tLatch : Latch := { pc := 0x5000, bundle := 0, opnd := Vector.replicate 32 0, pw := 1, rm := 0, d := 4, seg := 0, pops := [] }

/-- The record with a waiter in slot 1. -/
def tBarHeld : State :=
  (tBar 3 2 1 [tBarWaiter]).modProc 5 fun p => { p with slots := p.slots ++ [(1, tWaits .barrier (some tLatch))] }

/-- Arrivals that complete a generation and that do not, on a record with COUNT 0 and with a waiter; BARCFG (R239 to R243). -/
theorem test_meets_barriers :
    let s := tBar 3 2 1 []
    let n := tBar 3 1 1 []
    let name := s.rd 1
    (fld 27 9 name = s.cur.lpn ∧ s.myCore.host = s.cur.lpn ∧ s.me.atomics = [] ∧ fld 8 0 name = 511) ∧
    (tb 0 s.myProc.fieldcfg = false ∧ s.myProc.waits = [] ∧ (s.myProc.bar 511).count ≠ 0) ∧ ((s.myProc.bar 511).arr.toNat + 1) % 3 = 0 ∧
    (((n.myProc.bar 511).arr.toNat + 1) % 3 ≠ 0 ∧ n.me.wait = none ∧ fld 31 0 n.me.regs.barlim ≠ 0) ∧
    ((tBar 0 0 1 []).me.inTrap = false ∧ ((tBar 0 0 1 []).myProc.bar 511).count = 0) ∧
    (tBarHeld.myProc.waits = [tBarWaiter] ∧ tBarWaiter.who ≠ tBarHeld.cur ∧ (tBarHeld.slot tBarWaiter.who).holds 4 = true ∧
      (tBarHeld.slot tBarWaiter.who).latch = some tLatch ∧ (tBarHeld.slot tBarWaiter.who).field 4 = .gen) := by decide +kernel

/-- R243: the third arrival ends generation 0xFFFF, ARR 0 and GEN 0; an arrival of weight 5 at ARR 2 completes two and leaves 1; R242: the
waiter reads its generation; BARCFG of 2 with two arrived completes one. R240: COUNT 0 traps BARTO. -/
theorem test_barriers :
    let b (i : Instr) (s : State) : Bar × W64 := let t := nx (exec i s); (t.myProc.bar 511, t.me.arch.rd 3)
    let bara := Instr.bara (ar 3 1 2 0 false false)
    b bara (tBar 3 2 1 []) = ({ count := 3, arr := 0, gen := 0 }, 0xFFFF) ∧ b bara (tBar 3 2 5 []) = ({ count := 3, arr := 1, gen := 1 }, 1) ∧
    b (.barw (ar 3 1 2 0 false false)) (tBar 3 2 0 []) = ({ count := 3, arr := 0, gen := 0 }, 0xFFFF) ∧
    (nx (exec (.barw (ar 3 1 2 0 false false)) (tBar 3 1 1 []))).me.st = .waiting ∧
    b (.barcfg (ar 3 1 2 0 false false)) (tBar 3 2 2 []) = ({ count := 2, arr := 0, gen := 0 }, w64 (3 + 2 * 2 ^ 16 + 0xFFFF * 2 ^ 32)) ∧
    b (.barcfg (ar 3 1 2 0 false false)) (tBar 3 2 0 []) = ({ count := 0, arr := 0, gen := 0xFFFF }, w64 (3 + 2 * 2 ^ 16 + 0xFFFF * 2 ^ 32)) ∧
    (let t := nx (exec bara tBarHeld)
     (t.slot tBarWaiter.who).arch.rd 4 = 0xFFFF ∧ (t.slot tBarWaiter.who).st = .ready) ∧
    (nx (exec bara (tBar 0 0 1 []))).me.regs.tcause = 8 := by decide +kernel

/-- An LDSYNC of another process that waits at 0x4000, and a full list of waits for it. -/
def tWordWaiter (op : SyncOp) (remote : Bool) : Waiter :=
  { id := 4, who := { lpn := 5, slot := 1 }, op := some op, key := 0x4000, val := 0x99, remote := remote, priv := 0 }

/-- Slot 0 waits for a word or at a barrier, and the list holds its entry. -/
def tLimit (k : WaitKind) : State :=
  (tAt (tWaits k (some tLatch))).modProc 5 fun p => { p with waits := [{ tWordWaiter .ldsync false with who := tWho }] }

/-- Limits that run out, a wait list tried again, a withdrawal and a busy request (R68, R228, R244). -/
theorem test_meets_waitEnds :
    (((tLimit .word).slot tWho).st = .waiting ∧ ((tLimit .word).slot tWho).inTrap = false ∧
      ((tLimit .word).slot tWho).wait = some { kind := .word, id := 4, since := 0, limit := 10, addr := 0x77 } ∧
      ((tLimit .word).slot tWho).latch = some tLatch ∧ tLatch.pc = ((tLimit .word).slot tWho).arch.pc ∧ ((tLimit .word).proc 5).fsteps = [] ∧
      (tLimit .word).agenda = []) ∧
    ((tLimit .barrier).slot tWho).wait = some { kind := .barrier, id := 4, since := 0, limit := 10, addr := 0x77 } ∧
    ((tAt (tWaits .word none)).slot tWho).latch = none ∧
    (let s : State := { (tAt tSlot).modProc 5 fun p => { p with waits := [tWordWaiter .ldsync true] } with net := [(2, .win { lpn := 7, slot := 0 } 0 5 (.withdraw 4))] }
     s.item 2 = some (.win { lpn := 7, slot := 0 } 0 5 (.withdraw (tWordWaiter .ldsync true).id)) ∧
      ((s.proc 5).waits.find? fun z => z.id == 4) = some (tWordWaiter .ldsync true)) ∧
    (let s : State := { tAt tSlot with net := [(2, .parked tWho 0 7 (.engRead 0x4000 8) 0)] }
     (2, Item.parked tWho 0 7 (.engRead 0x4000 8) 0) ∈ s.net ∧ 0 ≤ (s.proc 5).time ∧ s.net.length = 1) ∧
    (let s : State := { tAt tSlot with net := [(2, .parked tWho 0 7 (.engRead 0x4000 8) 64)] }
     (∀ e ∈ s.net, e.2 = .parked tWho 0 7 (.engRead 0x4000 8) 64) ∧ (s.proc 5).time < 64) := by decide

/-- Quiet threads of the same. -/
theorem test_meets_waitEndsQuiet : ((tLimit .word).slot tWho).Quiet ∧ (tBar 0 0 1 []).me.Quiet :=
  ⟨quiet_of _ rfl rfl rfl rfl (fun h => nomatch h), quiet_of _ rfl rfl rfl rfl (fun h => nomatch h)⟩

/-- R228, R244: the traps WAITTO and BARTO with the entry withdrawn; the retries. -/
theorem test_wait_ends :
    let t := nx (exec (.waitlimExpiry 5 0 4) (tLimit .word))
    let u := nx (exec (.barlimExpiry 5 0 4) (tLimit .barrier))
    let v := nx (exec (.waitListRetry 5 0) (tAt (tWaits .word none)))
    ((t.slot tWho).regs.tcause, (t.slot tWho).regs.taddr, (t.proc 5).waits) = (7, 0x77, []) ∧
    ((u.slot tWho).regs.tcause, (u.slot tWho).regs.taddr) = (8, 0x77) ∧ (v.slot tWho).st = .ready ∧
    (nx (exec (.waitWithdrawal 2)
      { (tAt tSlot).modProc 5 fun p => { p with waits := [tWordWaiter .ldsync true] } with net := [(2, .win { lpn := 7, slot := 0 } 0 5 (.withdraw 4))] })).net.map
        (fun e => e.2) = [.reply { lpn := 7, slot := 0 } (.trap 7)] ∧
    (nx (exec (.busyReissue 5 0) { tAt tSlot with net := [(2, .parked tWho 0 7 (.engRead 0x4000 8) 0)] })).net.map (fun e => e.2) =
      [.win tWho 0 7 (.engRead 0x4000 8)] := by decide +kernel

/-- An LDSYNC's landing entry that is still open, and a latch of an STSYNC, in slot 1. -/
def tServed (op : SyncOp) (empty : Bool) : State :=
  let e : Landing := { id := 4, dst := .g 4, closeAt := 3, res := .pending, pc := 0x5000, bno := 0, addr := 0, seg := 0, sync := true }
  let y : Slot := if op = .ldsync then { tSlot with arch := { tSlot.arch with landing := [e] } } else tWaits .word (some tLatch)
  let s := (put (tAt tSlot) 5 0x4000 0x1234).modProc 5 fun p => { p with slots := p.slots ++ [(1, y)], waits := [tWordWaiter op false] }
  { s with empty := if empty then [winAddr 5 0x4000] else [] }

/-- A full word with an LDSYNC at its head, an empty one with an STSYNC (R66, R67). -/
theorem test_meets_wordService :
    PlainWord (tServed .ldsync false) 5 0x4000 ∧
    (let s := tServed .ldsync false
     (s.proc 5).waits.find? (fun y => y.op.isSome && y.key == 0x4000) = some (tWordWaiter .ldsync false) ∧
      (s.slot { lpn := 5, slot := 1 }).chunk = none ∧ (s.slot { lpn := 5, slot := 1 }).commit = none ∧ s.isFull 5 2 0x4000 = true ∧
      (s.slot { lpn := 5, slot := 1 }).arch.landing.map (fun e => e.id) = [4]) ∧
    (let s := tServed .stsync true
     (s.proc 5).waits.find? (fun y => y.op.isSome && y.key == 0x4000) = some (tWordWaiter .stsync false) ∧ s.isFull 5 2 0x4000 = false ∧
      (s.slot { lpn := 5, slot := 1 }).holds 4 = true) :=
  ⟨⟨by decide, by decide +kernel, by decide, by decide +kernel⟩, by decide +kernel, by decide +kernel⟩

/-- R67: the LDSYNC's value lands and the word is empty; the STSYNC's value stands and the word is full. -/
theorem test_word_service :
    let t := nx (exec (.fullEmptyService 5 0x4000) (tServed .ldsync false))
    let u := nx (exec (.fullEmptyService 5 0x4000) (tServed .stsync true))
    ((t.slot { lpn := 5, slot := 1 }).arch.landing.map (fun e => e.res), t.isFull 5 2 0x4000) = ([.value 0x1234], false) ∧
    (u.hwRead 5 0x4000, u.isFull 5 2 0x4000, (u.slot { lpn := 5, slot := 1 }).st) = (0x99, true, .ready) := by decide +kernel

/-- Mailbox 3 of LPN 5, with a waiter of slot 1. -/
def tMbox (full : Bool) (q : List MbWait) : State :=
  (tOps 0xAB 0 0).modProc 5 fun p =>
    { p with mbox := [(3, { val := 0x55, full := full, queue := q })], slots := p.slots ++ [(1, tWaits (.mailbox 3) (some tLatch))] }

/-- An empty box, a full one, and a writer and a reader at the head of a queue (R300). -/
theorem test_meets_mailboxes :
    ((tMbox false []).myProc.mb 3).full = false ∧ ((tMbox true []).myProc.mb 3).full = true ∧
    ((tMbox true []).me.wait = none ∧ fld 31 0 (tMbox true []).me.regs.waitlim ≠ 0) ∧
    (let x : MbWait := { id := 4, who := { lpn := 5, slot := 1 }, write := some 7 }
     let y : MbWait := { x with write := none }
     ((tMbox false [x]).myProc.mb (3 : BitVec 2).toNat).queue = x :: [] ∧ ((tMbox false [x]).slot x.who).holds 4 = true ∧
      ((tMbox false [x]).slot x.who).latch = some tLatch ∧ ((tMbox true [y]).myProc.mb (3 : BitVec 2).toNat).queue = y :: [] ∧
      ((tMbox true [y]).slot y.who).field 4 = .gen) := by decide

/-- R300: a write, a read, a writer that waits, and the service of both waiters. -/
theorem test_mailboxes :
    let b (t : State) : W64 × Bool × Nat := ((t.myProc.mb 3).val, (t.myProc.mb 3).full, (t.myProc.mb 3).queue.length)
    let x : MbWait := { id := 4, who := { lpn := 5, slot := 1 }, write := some 7 }
    let rd := nx (exec (.mbr (ar 3 0 3 0 false false)) (tMbox true []))
    let sv := nx (exec (.mailboxService 5 3) (tMbox true [{ x with write := none }]))
    b (nx (exec (.mbw (ar 0 1 3 0 false false)) (tMbox false []))) = (0xAB, true, 0) ∧ (rd.me.arch.rd 3, b rd) = (0x55, 0x55, false, 0) ∧
    b (nx (exec (.mbw (ar 0 1 3 0 false false)) (tMbox true []))) = (0x55, true, 1) ∧ b (nx (exec (.mailboxService 5 3) (tMbox false [x]))) = (7, true, 0) ∧
    ((sv.slot { lpn := 5, slot := 1 }).arch.rd 4, b sv) = (0x55, 0x55, false, 0) := by decide +kernel

/-! ## Witnesses and effects: cancels and invalidations, the transfer engine, the matrix slice -/

/-- A launch of LID 9 by job 0 of VMID 0, with GRAPH 0x77. -/
def tLaunch : Launch :=
  { id := 1, lid := 9, job := 0, vmid := 0, root := 0, rcd := [0, 0, 0, 0, 0, 0, 0x77, 0], counter := 2, engines := 0, st := 0, starting := 0, foreign := false }

/-- That launch, with a thread of it in slot 1 and a record of it in the queue; the running thread at a privilege, g2 = b. -/
def tCancel (p : Nat) (b : W64) : State :=
  let t : Slot := { tSlot with regs := { tSlot.regs with launch := 9 } }
  let r : Ready := { tReady 1 none with rcd := (Vector.replicate 8 0).set 0 (w64 (9 * 2 ^ 24)) }
  { (tAt (tPriv p)).modProc 5 fun q => { q with slots := [(0, tPriv p), (1, t)], ready := [r] } with launches := [tLaunch], opnd := opnd3 0 b 0 }

/-- Cancels at each privilege, of the own job and of another (R174, R398). -/
theorem test_meets_cancels :
    ((tCancel 0 9).me.atomics = [] ∧ (tCancel 0 9).dqs = []) ∧ ((tCancel 1 0).me.priv = 1 ∧ fld 15 0 ((tCancel 1 0).rdB 2 none) = (tCancel 1 0).myProc.job) ∧
    (tCancel 2 7).me.priv = 2 ∧ ((tCancel 0 0).me.inTrap = false ∧ (tCancel 0 0).me.priv = 0) ∧
    ((tCancel 1 7).me.priv = 1 ∧ fld 15 0 ((tCancel 1 7).rdB 2 none) ≠ (tCancel 1 7).myProc.job) := by decide

theorem test_meets_cancelTraps : (tCancel 0 0).me.Quiet ∧ (tCancel 1 7).me.Quiet :=
  ⟨quiet_of _ rfl rfl rfl rfl (fun h => nomatch h), quiet_of _ rfl rfl rfl rfl (fun h => nomatch h)⟩

/-- R398: CANCEL.L by LID, CANCEL.G by GRAPH, CANCEL.J by job; the thread is doomed, the record gone; nothing matches LID 8; PRIV at U. -/
theorem test_cancels :
    let c (i : Instr) (s : State) : W64 × List Nat × Bool × Nat :=
      let t := nx (exec i s); (t.me.arch.rd 3, t.launches.map (fun l => l.st), (t.slot { lpn := 5, slot := 1 }).doomed, t.myProc.ready.length)
    let r := ar 3 0 2 0 false false
    c (.cancelL r) (tCancel 0 9) = (0, [1], true, 0) ∧ c (.cancelL r) (tCancel 0 8) = (1, [0], false, 1) ∧ c (.cancelG r) (tCancel 0 0x77) = (0, [1], true, 0) ∧
    c (.cancelJ r) (tCancel 1 0) = (0, [1], true, 0) ∧ (nx (exec (.cancelJ r) (tCancel 0 0))).me.regs.tcause = 2 := by decide +kernel

/-- A TLB entry of VMID 0 and job 0 for page n. -/
def tTlb (vmid n : Nat) : TlbEnt := { vmid := vmid, job := 0, page := n, size := 4096, gpa := 0, w := true, u := true, mt := 0, level := 3, ent := 0 }

/-- A row port with entries of VMIDs 0 and 1, a stage-two unit with one entry; g1 = a, g2 = n. -/
def tTlbi (p : Nat) (a n : W64) : State :=
  { tOpsP p a n 0 with
    ports := [(0, { Port.init with tlb := [tTlb 0 4, tTlb 0 5, tTlb 1 4] })],
    bases := [(0, { (State.reset.base 0) with s2 := [{ vmid := 3, page := 2, size := 4096, hpa := 0, r := true, w := true, b := true, mt := 0, level := 2 }] })] }

/-- TLBI at each privilege, with VMIDs that are the own one and not, and addresses at and past 2^55 − 1 (R54, R55). -/
theorem test_meets_invalidations :
    ((tTlbi 2 0x4000 0).me.wait = none ∧ (tTlbi 2 0x4000 0).me.priv = 2 ∧ ((tTlbi 2 0x4000 0).rd 1).toNat < 2 ^ 55) ∧
    ((tTlbi 1 0x7FFFFFFFFFFFFF 0).me.priv = 1 ∧ fld 7 0 ((tTlbi 1 0x7FFFFFFFFFFFFF 0).rd 2) = (tTlbi 1 0x7FFFFFFFFFFFFF 0).myProc.vmid ∧
      ((tTlbi 1 0x7FFFFFFFFFFFFF 0).rd 1).toNat < 2 ^ 55) ∧
    2 ^ 55 ≤ ((tTlbi 1 0x80000000000000 0).rd 1).toNat ∧ ((tTlbi 0 0 0).me.priv = 0 ∧ (tTlbi 0 0 0).me.inTrap = false) ∧
    ((tTlbi 1 0 7).me.priv = 1 ∧ fld 7 0 ((tTlbi 1 0 7).rd 2) ≠ (tTlbi 1 0 7).myProc.vmid) := by decide

theorem test_meets_invalidationTraps (p : Nat) (a n : W64) : (tTlbi p a n).me.Quiet := quiet_of _ rfl rfl rfl rfl (fun h => nomatch h)

/-- A broadcast in progress. -/
def tBcast (kind vmid : Nat) (left : List Nat) : State :=
  { tTlbi 2 0 0 with
    tlbis := [{ who := tWho, kind := kind, vmid := vmid, job := 0, addr := 0x4000, left := left }],
    cores := [(5, { Core.init 5 with stash := [(0, tStashLine)] })] }

/-- A broadcast with a port, a stage-two unit and a core still to act, and with none (R56, R57). -/
theorem test_meets_invalidationSteps :
    (10000 ∈ [10000, 20000, 5] ∧ (tBcast 0 0 [10000]).tlbis.length = 1 ∧ 20000 ∈ [20000]) ∧
    (let s := tBcast 1 0 [5]
     5 < 10000 ∧ (s.proc (s.core 5).host).vmid = 0 ∧ (s.proc (s.core 5).host).job = 0 ∧
      (∀ e ∈ (s.proc (s.core 5).host).slots, e.2.chunk = none ∧ e.2.commit = none) ∧ s.net = []) ∧ (tBcast 3 3 [5]).tlbis.map (fun b => b.left) = [[5]] := by
  decide

/-- R55: a kind-0 TLBI waits for the members with entries; R56: exactly page 4 of VMID 0 goes; kind 3 clears the stage-two page 2 of
VMID 3 only at its address; a core drops its stash; below its privilege PRIV; an address with bit 55 set does nothing. -/
theorem test_invalidations :
    let t := nx (exec (.tlbiVa (ar 0 1 2 0 false false)) (tTlbi 1 0x4000 0))
    (t.me.st, t.tlbis.map fun b => (b.kind, b.vmid, b.addr, b.left)) = (.waiting, [(0, 0, 0x4000, [10000, 20000])]) ∧
    (spGet Port.init (nx (exec (.tlbiInvalidate 10000) (tBcast 0 0 [10000]))).ports 0).tlb = [tTlb 0 5, tTlb 1 4] ∧
    ((nx (exec (.tlbiInvalidate 20000) (tBcast 3 3 [20000]))).base 0).s2.length = 1 ∧
    ((nx (exec (.tlbiInvalidate 20000) (tBcast 4 0 [20000]))).base 0).s2.length = 0 ∧ ((nx (exec (.tlbiInvalidate 5) (tBcast 1 0 [5]))).core 5).stash = [] ∧
    (nx (exec (.tlbiVa (ar 0 1 2 0 false false)) (tTlbi 1 0x80000000000000 0))).tlbis = [] ∧
    [Instr.tlbiVa (ar 0 1 2 0 false false), .tlbiJob (ar 0 1 2 0 false false), .tlbiVm (ar 0 1 2 0 false false), .tlbiGpa (ar 0 1 2 0 false false),
      .tlbiAll (ar 0 1 2 0 false false)].map (fun i => (nx (exec i (tTlbi 0 0 0))).me.regs.tcause) = [2, 2, 2, 2, 2] := by decide +kernel

/-- A thread that waits for its TLBI, and one parked on record 8 of Imago. -/
def tAnswer : State × State :=
  ({ tAt (tWaits .tlbi none) with tlbis := [{ who := tWho, kind := 0, vmid := 0, job := 0, addr := 0, left := [] }] },
   { tAt { tSlot with st := .parked, park := some 8 } with
     imago := { State.reset.imago with parked := [{ seq := 8, kind := 4, vmid := 0, who := tWho, engine := none, la := 0x9000 }] } })

theorem test_meets_answers :
    (tAnswer.1.tlbis.length = 1 ∧ (tAnswer.1.slot tWho).st = .waiting ∧
      (tAnswer.1.slot tWho).wait = some { kind := .tlbi, id := 4, since := 0, limit := 10, addr := 0x77 }) ∧
    (tAnswer.2.imago.parked.map (fun k => (k.seq, k.engine, k.who)) = [(8, none, tWho)] ∧ (tAnswer.2.slot tWho).park = some 8 ∧
      (tAnswer.2.slot tWho).st = .parked ∧ tAnswer.2.inSlice tWho = false ∧ (tAnswer.2.slot tWho).inTrap = false) ∧ (4 = 1 ∨ 4 = 2 ∨ 4 = 4 ∨ 4 = 5) := by
  decide

theorem test_meets_answersQuiet : (tAnswer.2.slot tWho).Quiet := quiet_of _ rfl rfl rfl rfl (fun h => nomatch h)

/-- R57: the thread goes on; R52: a repaired fault lets the bundle issue again, an invalid one traps XLATE with reason 1 and its address. -/
theorem test_answers :
    let t := nx (exec (.tlbiDone 5 0) tAnswer.1)
    let u := nx (exec (.parkedAnswer 8 false) tAnswer.2)
    let v := nx (exec (.parkedAnswer 8 true) tAnswer.2)
    (t.tlbis, (t.slot tWho).st) = ([], .ready) ∧ (u.imago.parked, (u.slot tWho).st) = ([], .ready) ∧
    ((v.slot tWho).regs.tcause, (v.slot tWho).regs.taddr) = (w64 (5 + 2048), 0x9000) := by decide +kernel

/-- Slot 15 of LPN 5 at 0x5000, g1 = 0x4100, g2 = the tag 0x31. -/
def tEngine (m : List (Nat × W64)) : State :=
  m.foldl (fun s e => put s 5 e.1 e.2)
    { tAt tSlot with cur := { lpn := 5, slot := 15 }, procs := [(5, { Proc.init 5 with slots := [(15, tSlot)] })], opnd := opnd3 0x4100 0x31 0 }

/-- A descriptor of a copy of 3 × 2 dwords: source 0x4000 with stride 0x40, destination 0x8000 with stride −0x20, START 1. -/
def tCopyDesc : List (Nat × W64) :=
  [(0x4100, w64 (3 * 4 + 1 * 16)), (0x4108, 0x4000), (0x4110, 0x8000), (0x4118, w64 (3 + 2 * 2 ^ 16)), (0x4120, 0x40), (0x4128, w64 (0xFFFFFFE0 * 2 ^ 32)), (0x4138, 1)]

/-- The eight dwords of the same. -/
def tDesc : Desc := (((((((Vector.replicate 8 0).set 0 (w64 (3 * 4 + 1 * 16))).set 1 0x4000).set 2 0x8000).set 3 (w64 (3 + 2 * 2 ^ 16))).set 4 0x40).set 5
  (w64 (0xFFFFFFE0 * 2 ^ 32))).set 7 1

/-- The last element of that copy, and the first (R305). -/
theorem test_meets_offsets :
    (2 < fld 15 0 tDesc[3] ∧ 1 < fld 31 16 tDesc[3] ∧ fld 47 32 tDesc[3] = 0 ∧ fld 63 48 tDesc[3] = 0) ∧ 0 < fld 15 0 tDesc[3] := by decide

/-- R305: element 5 is (2, 1): 0x4000 + 16 + 0x40, and 0x8000 + 16 − 0x20; the count is 6. -/
theorem test_offsets : [elemOff tDesc false 5, elemOff tDesc true 5, elemOff tDesc false 0] = [0x4050, 0x7FF0, 0x4000] ∧ descCount tDesc = 6 := by decide

/-- A copy of slot 15 under the number 4. -/
def tCopy (next : Nat) (got : Option W64) (stop : Option (Nat × Nat × Nat)) : Copy :=
  { id := 4, tag := 0x31, desc := tDesc, sg := tSlot.sg, priv := 0, vmid := 0, job := 0, who := { lpn := 5, slot := 15 }, lid := 0, next := next, got := got,
    stop := stop, park := none, asked := none }

/-- The engine with n copies of which this one is the first. -/
def tCopying (n : Nat) (c : Copy) : State :=
  { tEngine [(0x4008, 0x77), (0x4100, 12)] with
    cores := [(5, { Core.init 5 with copies := c :: (List.range (n - 1)).map fun i => { c with id := 10 + i } })], nextId := 40 }

/-- BCOPY of slot 15 with 7 copies and with 8, and in slot 0 (R299, R306). -/
theorem test_meets_copyStarts :
    AtDescriptor (tCopying 7 (tCopy 1 none none)) ((tCopying 7 (tCopy 1 none none)).rd 1) 0x4100 ∧
    ((tCopying 7 (tCopy 1 none none)).myCore.copies.length < 8 ∧ 8 ≤ (tCopying 8 (tCopy 1 none none)).myCore.copies.length ∧
      (tCopying 8 (tCopy 1 none none)).me.wait = none ∧ fld 31 0 (tCopying 8 (tCopy 1 none none)).me.regs.waitlim ≠ 0) ∧
    ((tAt tSlot).cur.slot ≠ 15 ∧ (tAt tSlot).me.inTrap = false) ∧
    (let s : State := (tCopying 7 (tCopy 1 none none)).modMe fun x => { x with sdesc := some tDesc }
     s.cur.slot = 15 ∧ s.myCore.swap = none ∧ s.me.sdesc = some tDesc ∧ s.myCore.copies.length < 8 ∧ descBad tDesc false = false) :=
  ⟨⟨by decide +kernel, by decide +kernel, by decide +kernel,
    (by constructor <;> decide +kernel), by decide +kernel⟩,
   by decide +kernel, by decide +kernel, by decide +kernel⟩

/-- The full engine stands at the same descriptor (R306, R311). -/
theorem test_meets_fullEngine : AtDescriptor (tCopying 8 (tCopy 1 none none)) ((tCopying 8 (tCopy 1 none none)).rd 1) 0x4100 :=
  ⟨by decide +kernel, by decide +kernel, by decide +kernel,
   (by constructor <;> decide +kernel), by decide +kernel⟩

/-- Elements to read, to write, and a copy that has stopped (R306 to R309). -/
theorem test_meets_copySteps :
    let s := tCopying 1 (tCopy 1 none none)
    let w := tCopying 1 (tCopy 1 (some 0x77) none)
    let e := tCopying 1 (tCopy 5 none (some (1, 1, 7)))
    s.copyOf 4 = some (tCopy 1 none none) ∧ (tCopy 1 none none).next < descCount tDesc ∧ EngineAccess s (tCopy 1 none none) false 1 8 1 0x4008 ∧
    EngineAccess w (tCopy 1 (some 0x77) none) true 1 8 2 0x8008 ∧ (e.copyOf 4 = some (tCopy 5 none (some (1, 1, 7))) ∧ (e.proc 5).inWait = []) ∧
    ([s, w, e].map fun t => spHas t.net 4) = [false, false, false] :=
  ⟨by decide +kernel, by decide +kernel,
   (by constructor <;> decide +kernel),
   (by constructor <;> decide +kernel), by decide +kernel, by decide +kernel⟩

/-- R306: BCOPY starts at START 1; the element moves; a stopped copy offers KIND 0, its STATUS, SIDE, REASON and PROG; R304: malformed. -/
theorem test_copies :
    let t := nx (exec (.bcopy (ar 0 1 2 0 false false)) (tEngine tCopyDesc))
    let b := nx (exec (.bcopy (ar 0 1 2 0 false false)) (tEngine [(0x4100, 3)]))
    let r := nx (exec (.engineElementRead 4) (tCopying 1 (tCopy 1 none none)))
    let w := nx (exec (.engineElementWrite 4) r)
    let e := nx (exec (.engineCompletion 4) (tCopying 1 (tCopy 5 none (some (1, 1, 7)))))
    (t.myCore.copies.map (fun c => c.desc) = [tDesc] ∧ t.myCore.copies.map (fun c => (c.next, c.tag, c.stop.isNone)) = [(1, 0x31, true)]) ∧ b.myCore.copies.map (fun c => c.stop) = [some (9, 0, 0)] ∧
    w.hwRead 5 0x8008 = 0x77 ∧ (w.copyOf 4).map (fun c => c.next) = some 2 ∧
    (e.proc 5).inWait.map (fun x => (x.w0, x.w1)) = [(w64 (0x31 + 2 ^ 20 + 2 ^ 26 + 7 * 2 ^ 27 + 2 ^ 63), 5)] := by decide +kernel

/-- A descriptor of an inbound stream 2 of slot 3 over six words from 0x4000. -/
def tStreamDesc : List (Nat × W64) := [(0x4100, w64 (1 + 2 * 4 + 2 * 2 ^ 12 + 3 * 2 ^ 14)), (0x4108, 0x4000), (0x4118, 6), (0x4138, 2)]

/-- A bound inbound stream 2 of slot 3, read ahead by n elements of six. -/
def tStream (n : Nat) : State :=
  let d : Desc := ((((Vector.replicate 8 0).set 0 (w64 (1 + 2 * 4 + 2 * 2 ^ 12 + 3 * 2 ^ 14))).set 1 0x4000).set 3 (w64 40)).set 7 2
  let x : Stream := { bound := true, out := false, slot := 3, op := { tCopy 2 none none with desc := d }, buf := List.replicate n 0, done := 2,
                      fault := none, seen := true, ending := none }
  { tEngine [(0x4008, 0x99887766)] with cores := [(5, { Core.init 5 with streams := [(2, x)] })] }

/-- STRM on a free register and on a bound one, at the end of its elements and malformed; STRMX of both; a read ahead (R311 to R315). -/
theorem test_meets_streams :
    AtDescriptor (tEngine tStreamDesc) ((tEngine tStreamDesc).rd 1) 0x4100 ∧
    ((tEngine tStreamDesc).stream 5 2 = none ∧ (tStream 0).stream 5 2 ≠ none ∧ (tStream 0).cur.slot = 15) ∧
    (((tStream 0).stream 5 (2 : Reg).toNat).map (fun x => (x.out, x.op.who.lpn)) = some (false, (tStream 0).cur.lpn) ∧ (2 : Reg).toNat < 4 ∧
      ((tStream 0).slot { lpn := (tStream 0).myCore.host, slot := 3 }).chunk = none ∧ ((tStream 0).slot { lpn := (tStream 0).myCore.host, slot := 3 }).commit = none ∧
      (tStream 0).me.wait = none ∧ (tStream 0).me.st = .ready) ∧
    (((tStream 31).stream 5 (2 : BitVec 2).toNat).map (fun x => (x.out, x.fault.isNone, x.op.park.isNone, x.buf.length)) = some (false, true, true, 31) ∧
      spHas (tStream 31).net 4 = false ∧ 2 + 31 < 40) ∧
    (tEngine tStreamDesc).myCore.copies.length < 8 ∧
    (8 ≤ (tCopying 8 (tCopy 1 none none)).myCore.copies.length ∧ (tCopying 8 (tCopy 1 none none)).me.wait = none) :=
  ⟨⟨by decide +kernel, by decide +kernel, by decide +kernel,
    (by constructor <;> decide +kernel), by decide +kernel⟩,
   by decide +kernel, by decide +kernel, by decide +kernel, by decide +kernel, by decide +kernel⟩

/-- R311: STRM binds stream 2 from element 2; a bound register gives status 12; R315: STRMX writes PROG and unbinds, 0 for an unbound one;
R313: a read ahead takes the word at 0x4000 + 2 × 4. -/
theorem test_streams :
    let t := nx (exec (.strm (ar 0 1 2 0 false false)) (tEngine tStreamDesc))
    let u := nx (exec (.strm (ar 0 1 2 0 false false)) { tEngine tStreamDesc with cores := (tStream 0).cores })
    let x := nx (exec (.strmx (ar 3 0 2 0 false false)) (tStream 0))
    let r := nx (exec (.streamReadAhead 5 2) (tStream 0))
    (t.stream 5 2).map (fun y => (y.slot, y.done, y.out)) = some (3, 2, false) ∧ u.myProc.inWait.map (fun e => fld 23 20 e.w0) = [12] ∧
    (x.me.arch.rd 3, x.stream 5 2) = (2, none) ∧ (nx (exec (.strmx (ar 3 0 1 0 false false)) (tStream 0))).me.arch.rd 3 = 0 ∧
    (r.stream 5 2).map (fun y => y.buf) = some [0x99887766] := by decide +kernel

/-! ## Witnesses and effects: the matrix slice, gangs -/

/-- The slice of LPN 5 with a configuration and a status; g1 = 0x4100, g2 = 0. -/
def tMx (cfg status : W64) (m : List (Nat × W64)) : State :=
  m.foldl (fun s e => put s 5 e.1 e.2) ((tOps 0x4100 0 0).modProc 5 fun p => { p with mx := { p.mx with cfg := cfg, status := status } })

/-- No instruction is in the slice (R345). -/
theorem test_meets_idle : IdleSlice (tMx 0x11 64 []) ∧ IdleSlice (tMx 0x11 0 []) ∧ IdleSlice (tMx 0x51 0 []) :=
  ⟨⟨rfl, rfl, rfl, rfl⟩, ⟨rfl, rfl, rfl, rfl⟩, ⟨rfl, rfl, rfl, rfl⟩⟩

/-- A good configuration from a and from fmt, and ones that break a rule: unequal classes, format 8, a floor under FD (R346, R347). -/
theorem test_meets_configs :
    GoodConfig 0x11 ∧ GoodConfig (w64 (0x77 + 0x300000)) ∧ ¬ GoodConfig 0x31 ∧ ¬ GoodConfig 0x88 ∧ ¬ GoodConfig (w64 (0x11 + 0x20100)) ∧
    (tb 6 (tMx 0x11 0 []).myProc.mx.status = false ∧ tb 6 (tMx 0x11 64 []).myProc.mx.status = true ∧ (tMx 0x11 64 []).me.inTrap = false) := by
  refine ⟨?_, ?_, ?_, ?_, ?_, ?_⟩
  all_goals first | decide | (simp only [GoodConfig]; decide)

theorem test_meets_setupTraps : (tMx 0x11 64 []).me.Quiet := quiet_of _ rfl rfl rfl rfl (fun h => nomatch h)

/-- R346: MCFG installs a word and returns the old one; a live slice traps ILLOP; R348: MZERO makes the slice live; R362: MSTAT clears a flag. -/
theorem test_matrix_setup :
    let c (st v : W64) : W64 × W64 × W64 :=
      let t := nx (exec (.mcfg (ar 3 1 2 0 false false)) { tMx 0x11 st [] with opnd := opnd3 v 0x55 0 })
      (t.myProc.mx.cfg, t.me.arch.rd 3, t.me.regs.tcause)
    let z := nx (exec (.mzero (ar 0 0 0 0 false false)) (tMx 0x11 (w64 (0x701)) []))
    let q := nx (exec (.mstat (ar 3 1 0 0 false false)) { tMx 0x11 0x43 [] with opnd := opnd3 1 0 0 })
    c 0 0x33 = (0x33, 0x11, 0) ∧ c 64 0x33 = (0x11, 0, 1) ∧ c 0 0x31 = (0x11, 0, 1) ∧ z.myProc.mx.status = 0x41 ∧
    (q.me.arch.rd 3, q.myProc.mx.status) = (0x43, 0x42) := by decide +kernel

/-- R352, R353: a visit of 5 and 2 adds 3; a drain keeps the value. -/
theorem test_pairing :
    (Acc.init.visit 5 2).value = 3 ∧ (Acc.init.visit 5 2).drain.value = 3 ∧ (Acc.init.visit 5 2).drain.p = [] ∧ (Acc.init.visit 0 7).value = -7 ∧
    Acc.init.drain.ind = false ∧ Acc.init.drain.w = 0 := by decide

/-- An MMA descriptor of one row: A at 0x8000, B at 0x9000, both with zero strides of rows; b = 0. -/
def tMma : State := tMx 0x11 64 [(0x4108, 0x8000), (0x4118, 0x9000)]

/-- The configuration of 0x11. -/
def tCfg : MCfg := { af := Fmt.ofCode 1, bf := Fmt.ofCode 1, floor := 0, gm := 0, sa := false, sb := false, kb := 32 }

theorem test_meets_mma_descriptor :
    tMma.bst = .run ∧ tb 6 tMma.myProc.mx.status = true ∧ mcfg tMma.myProc.mx.cfg = some tCfg ∧ tCfg.gm = 0 ∧
    OwnAccess tMma 0 (tMma.rd 1) 64 1 0x4100 ∧ tMma.locBad 5 tMma.me.priv 0x4100 64 = false ∧ mmaBad tCfg (descAt tMma 0x4100) = false ∧
    mmaMisaligned (descAt tMma 0x4100) = false ∧ fld 14 9 ((descAt tMma 0x4100).getD 0 0) = 0 :=
  ⟨by decide +kernel, by decide +kernel, by decide +kernel, by decide +kernel,
   (by constructor <;> decide +kernel),
   by decide +kernel, by decide +kernel, by decide +kernel, by decide +kernel⟩

/-- A slice whose segment 0 is the own local memory, without a variable region and without poison. -/
structure PlainSlice (s : State) : Prop where
  rights : segHas (s.seg s.cur 0) 1 = true ∧ segHas (s.seg s.cur 0) 2 = true
  limit : segLimit (s.seg s.cur 0) = 0xFFFFF
  base : segBase (s.seg s.cur 0) = winAddr s.cur.lpn 0
  top : imageTop s.myProc.lmmap = 0x100000
  whole : s.badWords = []
  lpn : s.cur.lpn < 2 ^ 19
  hosted : s.myCore.host = s.cur.lpn

/-- A tile of the plain part of the local memory. -/
theorem PlainSlice.tile {s : State} (p : PlainSlice s) {x : Rd} {o need : Nat} (h : (x.seg, x.off.toNat) = (0, o)) (n : need = 1 ∨ need = 2)
    (z : 1 ≤ x.size) (l : 0x4000 ≤ o) (u : o + x.size ≤ 0x100000) : OwnTile s x need o := by
  have hs : x.seg = 0 := congrArg Prod.fst h
  have ho : x.off.toNat = o := congrArg Prod.snd h
  refine ⟨?_, z, ?_, ?_, l, ?_, p.lpn, p.hosted, ?_⟩
  · rw [hs]
    rcases n with rfl | rfl
    · exact p.rights.1
    · exact p.rights.2
  · rw [hs, p.limit, ho]
    omega
  · rw [hs, p.base, ho]
    unfold winAddr
    omega
  · rw [p.top]
    exact u
  · unfold State.locBad
    rw [p.whole]
    exact Bool.and_false _

theorem tMma_plain : PlainSlice tMma :=
  (by constructor <;> decide +kernel)

/-- Its tiles lie in the own local memory, and its sums are in range (R350, R351). -/
theorem test_meets_mma_tiles :
    (∀ x ∈ mmaBReads tCfg (descAt tMma 0x4100) 0, ∃ p, OwnTile tMma x 1 p) ∧ (∀ x ∈ mmaAReads tCfg (descAt tMma 0x4100) 0 0, ∃ p, OwnTile tMma x 1 p) := by
  have b : ∀ x ∈ mmaBReads tCfg (descAt tMma 0x4100) 0, (x.seg, x.off.toNat) = (0, 0x9000) ∧ x.size = 128 := by decide +kernel
  have a : ∀ x ∈ mmaAReads tCfg (descAt tMma 0x4100) 0 0, (x.seg, x.off.toNat) = (0, 0x8000) ∧ x.size = 64 := by decide +kernel
  exact ⟨fun x h => ⟨0x9000, tMma_plain.tile (b x h).1 (.inl rfl) (by rw [(b x h).2]; decide) (by decide) (by rw [(b x h).2]; decide)⟩,
    fun x h => ⟨0x8000, tMma_plain.tile (a x h).1 (.inl rfl) (by rw [(a x h).2]; decide) (by decide) (by rw [(a x h).2]; decide)⟩⟩

theorem test_meets_mma_sums : ∀ j, j < 64 →
    (group tCfg ((mmaAReads tCfg (descAt tMma 0x4100) 0 0).map (tileValue tMma)) ((mmaBReads tCfg (descAt tMma 0x4100) 0).map (tileValue tMma)) j).gp < 2 ^ 39 ∧
    (group tCfg ((mmaAReads tCfg (descAt tMma 0x4100) 0 0).map (tileValue tMma)) ((mmaBReads tCfg (descAt tMma 0x4100) 0).map (tileValue tMma)) j).gn < 2 ^ 39 := by
  decide +kernel

/-- R351: A = 3 and B = 2 in lane 0 of the first rows, in format 1, give the sum 6 there and 0 in lane 1. -/
theorem test_group :
    let g (j : Nat) : Nat × Nat := let x := group tCfg [0x4200] [0x4000] j; (x.gp, x.gn)
    g 0 = (6, 0) ∧ g 1 = (0, 0) := by decide +kernel

/-- An MSTO of one row of format 0 to 0x8000, with FIN; accumulator 0 holds 6. -/
def tMsto : State :=
  (tMx 0x11 64 [(0x4100, w64 (2 ^ 20)), (0x4108, 0x8000)]).modProc 5 fun p => { p with mx := { p.mx with acc := [(0, { Acc.init with acc := 6 })] } }

theorem tMsto_plain : PlainSlice tMsto :=
  (by constructor <;> decide +kernel)

/-- The descriptor, the destination row and the slice of that MSTO; no bias (R359). -/
theorem test_meets_store :
    (IdleSlice tMsto ∧ tMsto.me.Quiet) ∧ (tb 6 tMsto.myProc.mx.status = true ∧ mcfg tMsto.myProc.mx.cfg = some tCfg) ∧
    OwnAccess tMsto 0 (tMsto.rd 1) 64 1 0x4100 ∧
    (tMsto.locBad 5 tMsto.me.priv 0x4100 64 = false ∧ mstoBad (descAt tMsto 0x4100) = false ∧ fld 3 0 ((descAt tMsto 0x4100).getD 1 0) = 0 ∧
      fld 3 0 ((descAt tMsto 0x4100).getD 2 0) = 0 ∧ tb 16 ((descAt tMsto 0x4100).getD 0 0) = false ∧
      fld 15 10 ((descAt tMsto 0x4100).getD 0 0) = 0 ∧ (tMsto.dom (tMsto.domOf (locLine 5 0))).held = []) ∧
    OwnTile tMsto (mstoDest (descAt tMsto 0x4100) 0) 2 0x8000 :=
  ⟨⟨(by constructor <;> decide +kernel),
    (by constructor <;> decide +kernel)⟩, by decide +kernel,
   (by constructor <;> decide +kernel),
   by decide +kernel, tMsto_plain.tile (by decide +kernel) (.inr rfl) (by decide +kernel) (by decide) (by decide +kernel)⟩

/-- R360: 6 at floor 0 in format 0 is 0x40C00000. -/
theorem test_store_element : (mstoElem (descAt tMsto 0x4100) 0 { Acc.init with acc := 6 } 0).1 = 0x40C00000 := by decide +kernel

/-- An operation of slot 0 of a process in its slice. -/
def tOp (lpn : Nat) : SliceOp :=
  { id := 4, who := { lpn := lpn, slot := 0 }, bundle := 0, msto := false, tag := 0, since := 0, row0 := 2, row := 2, desc := none, vals := [], arow := [],
    tiles := [], wants := [], gang := false, fin := none, halt := false, inv := none, asked := [], ready := [] }

/-- An MSTO whose completion entry has been placed. -/
def tMstoEnd : State :=
  tMsto.modProc 5 fun p => { p with mx := { p.mx with queue := [{ tOp 5 with fin := some none, desc := some (descAt tMsto 0x4100), row := 1, msto := true }] } }

theorem test_meets_storeEnd :
    (tMstoEnd.myProc.mx.queue.map fun q => (q.who, q.desc)) = [(tMstoEnd.cur, some (descAt tMstoEnd 0x4100))] ∧
    (tMstoEnd.myProc.mx.queue.map fun q => (q.fin == some none, decide (0 < q.row))) = [(true, true)] ∧ tMstoEnd.myProc.inWait = [] := by decide +kernel

/-- R361: it ends, and with FIN the slice is no longer live. -/
theorem test_store_end :
    let t := nx (exec (.msto (ar 0 1 2 0 false false)) tMstoEnd)
    (t.myProc.mx.status, t.myProc.mx.queue.length, t.bst) = (0, 0, .run) := by decide +kernel

/-- A join of member i, with a key. -/
def tJoined (i : Nat) (key : BitVec 16) : Join := { id := 4, who := { lpn := i, slot := 0 }, cfg := [], key := key, mr := 0, r0 := 2 }

/-- The 16 processes of row 0, of which the first n have joined, member 15 with its own key. -/
def tGang (n : Nat) (key : BitVec 16) : State :=
  { State.reset with
    cur := tWho,
    procs := (List.range 16).map fun i =>
      let p := Proc.init i
      (i, { p with slots := [(0, tWaits .gang none)],
                   mx := { p.mx with join := if i < n then some (tJoined i (if i = 15 then key else 1)) else none, queue := [tOp i] } }) }

/-- A complete gang, one with unequal keys, and one with a member missing (R357). -/
theorem test_meets_gangs :
    (∀ i, i < 16 → ((tGang 16 1).proc ((tGang 16 1).core (16 * 0 + i)).host).mx.join = some (tJoined i 1)) ∧
    (∀ i, i < 16 → ((tGang 16 1).core (16 * 0 + i)).host = i ∧ ((tGang 16 1).slot { lpn := i, slot := 0 }).st = .waiting) ∧
    (tJoined 0 1).key ≠ (tJoined 15 2).key ∧
    (∀ i, i < 16 → ((tGang 16 2).slot { lpn := i, slot := 0 }).inTrap = false ∧ ((tGang 16 2).slot { lpn := i, slot := 0 }).park = none ∧
      ((tGang 16 2).proc i).mx.queue.length = 1) ∧
    (((tGang 15 1).slot tWho).wait.map (fun x => (x.kind, x.id)) = some (.gang, 4) ∧ ((tGang 15 1).proc 5).mx.join = some (tJoined 5 1) ∧
      ((tGang 15 1).proc ((tGang 15 1).core (16 * rowOf ((tGang 15 1).hostOf 5) + 15)).host).mx.join = none ∧
      ((tGang 15 1).proc 5).mx.queue.map (fun q => q.who) = [tWho]) := by decide +kernel

theorem test_meets_gangsQuiet : ∀ i, i < 16 → ((tGang 16 2).slot { lpn := i, slot := 0 }).Quiet := by
  intro i h
  have c : ∀ i, i < 16 → ((tGang 16 2).slot { lpn := i, slot := 0 }).chunk = none ∧ ((tGang 16 2).slot { lpn := i, slot := 0 }).commit = none ∧
    ((tGang 16 2).slot { lpn := i, slot := 0 }).arch.landing = [] ∧ ((tGang 16 2).slot { lpn := i, slot := 0 }).due = [] ∧
    ((tGang 16 2).slot { lpn := i, slot := 0 }).st ≠ .halted := by decide +kernel
  obtain ⟨a, b, d, e, f⟩ := c i h
  exact ⟨a, b, d, e, f⟩

/-- R357: the gang starts and its members go on; unequal keys trap GANGTO with P and TADDR 1; the limit traps it with TADDR 0 and TPROG 2. -/
theorem test_gangs :
    let g := nx (exec (.gangStart 0) (tGang 16 1))
    let b := (nx (exec (.gangStart 0) (tGang 16 2))).slot { lpn := 3, slot := 0 }
    let l := (nx (exec (.ganglimExpiry 5 0 4) (tGang 15 1))).slot tWho
    (∀ i, i < 16 → (g.slot { lpn := i, slot := 0 }).st = .ready ∧ (g.proc i).mx.join = none) ∧
    (b.regs.tcause, b.regs.taddr, b.regs.tprog) = (w64 (9 + 32768), 1, 2) ∧ (l.regs.tcause, l.regs.taddr, l.regs.tprog) = (w64 (9 + 32768), 0, 2) := by
  decide +kernel

/-! ## Witnesses and effects: positions, placement, carry packets -/

/-- A field of cores 5 and 6 of one bin each, 16 wide; the crowd limit l; both processes have read the table. -/
def tFieldCfg : W64 := w64 (1 + 4 * 2 + 4 * 2 ^ 6 + 2 ^ 15 + 5 * 2 ^ 28)

/-- The process of core 5 or 6 in that field, with slots. -/
def tFieldProc (l : Nat) (slots : List (Nat × Slot)) : Proc :=
  { Proc.init l with fieldcfg := tFieldCfg, ftabs := [(0, 0), (1, 1)], lmmap := w64 (4 * 2 ^ 16), anc := true, slots := slots }

/-- A bound thread with its position. -/
def tBound (x : BitVec 60) : Slot := { tSlot with pos := x, bound := true, payload := 0x99 }

/-- The thread of slot n of LPN 5 in that field at x = 3, with g2 = b. -/
def tField (n : Nat) (b : W64) : State :=
  { State.reset with cur := { lpn := 5, slot := n }, procs := [(5, tFieldProc 5 [(n, tBound 3)]), (6, tFieldProc 6 [])], opnd := opnd3 0 b 0 }

/-- SETPOS in slots 15, 13 and 14, without a field, into the own bin and into the neighbour's; queries with and without entries (R422 to R428). -/
theorem test_meets_positions :
    ((tField 15 0).cur.slot = 15 ∧ (tField 15 0).me.inTrap = false) ∧ ((tAt tSlot).cur.slot ≠ 15 ∧ tb 0 (tAt tSlot).myProc.fieldcfg = false) ∧
    (tb 0 (tField 13 15).myProc.fieldcfg = true ∧ CachedOwner (tField 13 15).myProc 15 0 ∧ (tField 13 15).cur.slot ≤ 13 ∧
      fieldCore (tField 13 15).myProc.fieldcfg 0 = (tField 13 15).myProc.core) ∧
    (CachedOwner (tField 13 16).myProc 16 1 ∧ fieldCore (tField 13 16).myProc.fieldcfg 1 = 6 ∧ 13 < (tField 14 15).cur.slot) ∧
    ((tField 13 0).me.bound = true ∧ (tAt tSlot).me.bound = false ∧ (tAt tSlot).me.query = none) := by
  refine ⟨by decide, by decide, ⟨by decide, ⟨by decide, by decide⟩, by decide, by decide⟩, ⟨⟨by decide, by decide⟩, by decide, by decide⟩, by decide⟩

theorem test_meets_positionsQuiet : (tField 15 0).me.Quiet ∧ Carriable (tField 13 16).me ∧ Carriable (tField 14 15).me :=
  ⟨quiet_of _ rfl rfl rfl rfl (fun h => nomatch h), ⟨quiet_of _ rfl rfl rfl rfl (fun h => nomatch h), rfl, rfl⟩,
   ⟨quiet_of _ rfl rfl rfl rfl (fun h => nomatch h), rfl, rfl⟩⟩

/-- Two candidates of a query, its cursor behind the first and behind both. -/
def tQuery (c : Nat) : Query :=
  { pos := 3, r2 := 9, self := 0, ents := [{ handle := 8, pos := 5, payload := 0x55 }, { handle := 7, pos := 4, payload := 0x44 }], cursor := c }

theorem test_meets_nextn :
    (∀ e ∈ (tQuery 9).ents, e.handle < (tQuery 9).cursor) ∧
    (let e : FieldEnt := { handle := 8, pos := 5, payload := 0x55 }
     e ∈ (tQuery 8).ents ∧ (tQuery 8).cursor ≤ e.handle ∧ e.handle < 2 ^ 63 ∧ ∀ y ∈ (tQuery 8).ents, (tQuery 8).cursor ≤ y.handle → y = e ∨ e.handle < y.handle) := by
  decide

/-- R424 to R428: positions, the bound bit, a migration's target, the payload, the neighbours within a squared distance of 9 without the own
handle, and their return in the order of handles. -/
theorem test_positions :
    let sp (n : Nat) (b : W64) : BitVec 60 × Bool × Option Nat :=
      let t := nx (exec (.setpos (ar 0 0 2 0 false false)) (tField n b)); (t.me.pos, t.me.bound, t.leaving.map fun d => d.dst)
    let ng := nx (exec (.neigh (ar 3 0 2 0 false false))
      ((tField 0 9).modProc 5 fun p => { p with snap := [{ handle := 80, pos := 3, payload := 0 }, { handle := 8, pos := 6, payload := 0x66 }],
                                                halo := [{ handle := 96, pos := 7, payload := 0 }, { handle := 97, pos := 0, payload := 0 }] }))
    let nn (c : Nat) : List W64 × Option Nat :=
      let t := nx (exec (.nextn (ar 3 0 0 0 false false)) (tAt { tSlot with query := some (tQuery c) })); ([3, 4, 5].map t.me.arch.rd, t.me.query.map fun q => q.cursor)
    sp 13 15 = (15, true, none) ∧ sp 13 16 = (3, true, some 6) ∧ sp 14 15 = (3, true, some 5) ∧
    (nx (exec (.getpos (ar 3 0 0 0 false false)) (tField 0 0))).me.arch.rd 3 = w64 (2 ^ 63 + 3) ∧
    (nx (exec (.publ (ar 0 0 2 0 false false)) (tField 0 7))).me.payload = 7 ∧
    (ng.me.arch.rd 3, ng.me.query.map fun q => q.ents.map fun e => e.handle) = (3, some [80, 8, 97]) ∧
    nn 8 = ([w64 (2 ^ 63 + 8), w64 (2 ^ 63 + 5), 0x55], some 9) ∧ nn 7 = ([w64 (2 ^ 63 + 7), w64 (2 ^ 63 + 4), 0x44], some 8) ∧ (nn 9).1 = [0, 0, 0] := by
  decide +kernel

/-- LPN 5 with a send and a receive entry to LPN 38, which its core has cached, on channel 2, weights 7 and 9; g2 = b. -/
def tPeer (b : W64) : State :=
  put (put { tOps 0 b 0 with cores := [(5, { Core.init 5 with pcache := [(38, 38)] })] } 5 0x3640 (w64 (seqKey false 38 2 + 7 * 2 ^ 48))) 5 0x3648 (w64 (seqKey true 38 2 + 9 * 2 ^ 48))

/-- A peer with an entry, LPNs without a host, the own LPN, a swap that is accepted, and an anchor that a field keeps (R426, R445 to R447). -/
theorem test_meets_placement :
    (fld 18 0 ((tPeer (w64 (38 + 2 * 2 ^ 19))).rdB 2 none) = 38 ∧ (tPeer 38).placeLookup ((tPeer 38).hostOf 5) 38 = .host 38 ∧ 38 ≠ (tPeer 38).cur.lpn) ∧
    ((tPeer 38).placeLookup ((tPeer 38).hostOf 5) 0x7FFF = .none ∧ (tPeer 38).me.inTrap = false) ∧
    ((tPeer 5).myCore.host = 5 ∧ (tPeer 5).cur.slot ≠ 15 ∧ (tPeer 5).myCore.swap = none) ∧
    (tb 0 (tField 0 0).myProc.fieldcfg = true ∧ tb 0 ((tField 0 0).rdB 2 none) = false ∧ tb 0 ((tField 0 1).rdB 2 none) = true) ∧
    (let s : State := { tPeer 1 with cores := [(5, { Core.init 5 with swap := some 6 })] }
     s.myCore.swap ≠ none ∧ s.me.wait = none) := by decide +kernel

theorem test_meets_placementQuiet : (tField 0 0).me.Quiet ∧ (tOps 0 0x7FFF 0).me.Quiet ∧ Carriable (tOps 0 38 0).me :=
  ⟨quiet_of _ rfl rfl rfl rfl (fun h => nomatch h), quiet_of _ rfl rfl rfl rfl (fun h => nomatch h),
   ⟨quiet_of _ rfl rfl rfl rfl (fun h => nomatch h), rfl, rfl⟩⟩

/-- R445: core 38 stands at (6, 2), 3 hops from (5, 0); PEER reads both weights and the send entry; R446: the anchor; R426: MIGR; SEGV 4. -/
theorem test_placement :
    let d (i : Instr) (s : State) : W64 := (nx (exec i s)).me.arch.rd 3
    let r := ar 3 0 2 0 false false
    let m (b : W64) : Option (Nat × Bool) := (nx (exec (.migr r) (tPeer b))).leaving.map fun x => (x.dst, x.bound)
    d (.whereIs r) (tPeer 38) = 38 ∧ d (.peer r) (tPeer (w64 (38 + 2 * 2 ^ 19))) = w64 (7 + 9 * 2 ^ 16 + 3 * 2 ^ 32 + 2 ^ 63) ∧
    d (.peer r) (tPeer 38) = w64 (3 * 2 ^ 32) ∧ (m 38, m 5) = (some (38, false), none) ∧
    (nx (exec (.whereIs r) (tPeer 0x7FFF))).me.regs.tcause = w64 (3 + 4 * 2048) ∧ (nx (exec (.anchor r) (tPeer 1))).myProc.anc = true ∧
    (nx (exec (.anchor r) (tField 0 0))).me.regs.tcause = 1 := by decide +kernel

/-- A carry packet of slot 0 of LPN 5 to LPN 6. -/
def tCarry (why : CarryWhy) (tag : BitVec 24) (cfg : W64) : Carry :=
  { id := 4, origin := tWho, dst := 6, why := why, tag := tag, addr := 0x66, seg := 3, pc := 0x5000, ctx := { tBound 20 with st := .ready }, fieldcfg := cfg }

/-- The packet in flight; LPN 6 with n slots occupied and q packets in its arrival queue. -/
def tCarrying (i : Item) (n q : Nat) : State :=
  let o : Slot := { tSlot with st := .waiting, wait := some { kind := .carry, id := 4, since := 0, limit := 100, addr := 6 } }
  { State.reset with
    cur := tWho,
    procs := [(5, { Proc.init 5 with slots := [(0, o)] }),
              (6, { Proc.init 6 with slots := (List.range n).map (fun k => (k, tSlot)), arrq := List.replicate q (tCarry .migr 0 0) })],
    net := [(4, i)], nextId := 5 }

/-- A packet of another job, one under another field, one that finds slot 13 free, an arrival queue with a place and a full one (R416, R417). -/
theorem test_meets_carry :
    jobCheck (tCarry .migr 0x010007 0).tag ((tCarrying (.carry (tCarry .migr 0x010007 0)) 0 0).proc 6) = false ∧
    (jobCheck (tCarry .setpos 0 1).tag ((tCarrying (.carry (tCarry .setpos 0 1)) 0 0).proc 6) = true ∧
      tb 0 ((tCarrying (.carry (tCarry .setpos 0 1)) 0 0).proc 6).fieldcfg = false) ∧
    (((tCarrying (.carry (tCarry .migr 0 0)) 13 0).proc 6).freeSlot 13 = true ∧
      ∀ m, m < 13 → ((tCarrying (.carry (tCarry .migr 0 0)) 13 0).proc 6).freeSlot m = false) ∧
    ((∀ m, m < 14 → ((tCarrying (.carry (tCarry .migr 0 0)) 14 7).proc 6).freeSlot m = false) ∧ (tCarry .migr 0 0).ctx.bound = true ∧
      ((tCarrying (.carry (tCarry .migr 0 0)) 14 7).proc 6).arrq.length < 8 ∧ 8 ≤ ((tCarrying (.carry (tCarry .migr 0 0)) 14 8).proc 6).arrq.length) ∧
    (tCarrying (.carry (tCarry .migr 0 0)) 13 0).item 4 = some (.carry (tCarry .migr 0 0)) := by decide

/-- Its origin, awaiting an answer of each kind, before its limit and at it. -/
theorem test_meets_origin :
    AtOrigin (tCarrying (.carryRef (tCarry .migr 0 0) 0) 0 0) (tCarry .migr 0 0) { kind := .carry, id := 4, since := 0, limit := 100, addr := 6 } ∧
    ((tCarrying (.carryRef (tCarry .migr 0 0) 0) 0 0).proc 5).time - 0 < 100 ∧
    100 ≤ (((tCarrying (.carryRef (tCarry .migr 0 0) 0) 0 0).modProc 5 fun p => { p with time := 100 }).proc 5).time - 0 ∧
    ((tCarrying (.carryAck (tCarry .migr 0 0) 6) 0 0).item 4 = some (.carryAck (tCarry .migr 0 0) 6) ∧
      ((tCarrying (.carryAck (tCarry .migr 0 0) 6) 0 0).core ((tCarrying (.carryAck (tCarry .migr 0 0) 6) 0 0).hostOf 5)).streams = []) :=
  ⟨⟨quiet_of _ rfl rfl rfl rfl (fun h => nomatch h), rfl, rfl, rfl, rfl, rfl, by decide⟩, by decide, by decide, by decide⟩

/-- R416: the thread starts in slot 13; joins the queue; is refused busy; R32: refusals 5 and 4; the origin's answers; the retry after 64 cycles. -/
theorem test_carry :
    let arr (c : Carry) (n q : Nat) : List Item × SlotSt × Nat :=
      let t := nx (exec (.carryPacketArrive 4) (tCarrying (.carry c) n q)); (t.net.map (fun e => e.2), ((t.proc 6).slot 13).st, (t.proc 6).arrq.length)
    let c := tCarry .migr 0 0
    let ref (why : Nat) : W64 × W64 := let t := nx (exec (.carryRefused 4) (tCarrying (.carryRef c why) 0 0)); ((t.slot tWho).regs.tcause, (t.slot tWho).regs.taddr)
    arr c 13 0 = ([.carryAck c 6], .starting, 0) ∧ arr c 14 7 = ([.carryAck c 6], .ready, 8) ∧ arr c 14 8 = ([.carryRef c 0], .ready, 8) ∧
    (arr (tCarry .migr 0x010007 0) 0 0).1 = [.carryRef (tCarry .migr 0x010007 0) 5] ∧ (arr (tCarry .setpos 0 1) 0 0).1 = [.carryRef (tCarry .setpos 0 1) 4] ∧
    ((nx (exec (.carryAck 4) (tCarrying (.carryAck c 6) 0 0))).slot tWho).st = .absent ∧ ref 5 = (w64 (3 + 3 * 256 + 5 * 2048), 0x66) ∧
    ref 4 = (w64 (3 + 4 * 2048), w64 (winAddr 6 0)) ∧
    (nx (exec (.carryRefused 4) (tCarrying (.carryRef c 0) 0 0))).timers = [{ clock := .proc 5, left := 64, ev := .carryReoffer 4 }] := by decide +kernel

/-! ## Witnesses and effects: fields, Flutter, swaps -/

/-- A step of the field at its owner LPN 5, which core 6 has not taken yet. -/
def tStep : FieldStep := { gen := 9, bar := 511, left := [6], parts := [5], held := [], todo := [] }

/-- The field of tField with n bound threads of LPN 5 in bin 0 (x = 3) and LIMIT 1; the page of its table at 0x1000 is translated; that step. -/
def tStepping (n : Nat) (steps : List FieldStep) : State :=
  let p := tFieldProc 5 ((List.range n).map fun k => (k, tBound 3))
  { State.reset with
    cur := tWho,
    procs := [(5, { p with fsteps := steps, crowd := 1, xroot := 1, ftab := 0x1000, nbrs := [(5, n)], snap := [{ handle := 80, pos := 3, payload := 0x99 }] }), (6, tFieldProc 6 [])],
    ports := [(0, { Port.init with tlb := [{ tTlb 0 1 with gpa := 0x1000 }] })] }

/-- The table of the field has two bins (R420). -/
theorem tableKnown_of {p : Proc} (h : (List.range (fieldNBX p.fieldcfg * fieldNBY p.fieldcfg)).all (spHas p.ftabs) = true) : TableKnown p :=
  fun i hi => List.all_eq_true.mp h i (List.mem_range.mpr hi)

/-- FIELDCFG values: with a reserved bit, with a rectangle that leaves out the core, and a good one; steps, crowds, the hand-over (R419, R429, R430). -/
theorem test_meets_fieldSteps :
    (fld 63 41 (w64 (2 ^ 41)) ≠ 0 ∧ 19 < fld 5 1 (w64 (20 * 2))) ∧
    (tb 0 tFieldCfg = true ∧ fld 63 41 tFieldCfg = 0 ∧ fld 33 28 tFieldCfg + fld 20 15 tFieldCfg = 6 ∧ fld 23 16 (tField 0 0).myProc.lmmap = 4 ∧
      tb 0 (tField 0 0).myProc.fieldcfg = true ∧ (tField 0 0).me.inTrap = false) ∧
    (((tStepping 1 [tStep]).proc 5).fsteps = tStep :: [] ∧ 6 ∈ tStep.left ∧
      ((tStepping 1 [tStep]).proc ((tStepping 1 [tStep]).core 6).host).fieldcfg = ((tStepping 1 [tStep]).proc 5).fieldcfg ∧
      ((tStepping 1 [tStep]).tableAll 6).2.isSome = true) ∧
    spGet 0 ((tStepping 1 []).proc 5).nbrs 5 ≤ fld 3 0 ((tStepping 1 []).proc 5).crowd ∧
    (let f : FieldStep := { tStep with left := [], todo := [.fieldHandover 5, .fieldStepRelease 5] }
     let s : State := { tStepping 1 [f] with procs := (tStepping 1 [f]).procs.take 1 }
     s.procs.map (fun e => (e.1, e.2.fsteps)) = [(5, [f])] ∧ f.todo.head? = some (.fieldHandover 5)) ∧
    (fld 3 0 ((tStepping 2 []).proc 5).crowd < spGet 0 ((tStepping 2 []).proc 5).nbrs 5 ∧ ((tStepping 2 []).proc 5).residents.length ≤ 22 ∧
      ((tStepping 2 []).tableWrite 5 0 1).2 = .owner 0) := by decide +kernel

theorem test_meets_handover : TableKnown ((tStepping 2 []).proc 5) ∧ HandsAway ((tStepping 2 []).proc 5) (fieldIndex ((tStepping 2 []).proc 5).fieldcfg 5) 0 1 := by
  refine ⟨tableKnown_of (by decide), ?_⟩
  have hn : fieldNBX ((tStepping 2 []).proc 5).fieldcfg * fieldNBY ((tStepping 2 []).proc 5).fieldcfg = 2 := by decide
  have h0 : fieldIndex ((tStepping 2 []).proc 5).fieldcfg 5 = 0 := by decide
  have o0 : ownerOf ((tStepping 2 []).proc 5) 0 = 0 := by decide
  have o1 : ownerOf ((tStepping 2 []).proc 5) 1 = 1 := by decide
  have t : nextTo ((tStepping 2 []).proc 5).fieldcfg 0 1 := by unfold nextTo; decide
  have b : spGet 0 ((tStepping 2 []).proc 5).nbrs (fieldCore ((tStepping 2 []).proc 5).fieldcfg 1) < fld 3 0 ((tStepping 2 []).proc 5).crowd := by decide
  refine ⟨by rw [hn]; decide, by rw [h0, o0], ⟨1, by rw [hn]; decide, by rw [h0, o1]; decide, t⟩, ?_,
    ⟨by rw [h0]; decide, 1, by rw [hn]; decide, o1, t⟩, b, ?_⟩
  · intro k hk ho _
    rw [hn] at hk
    obtain rfl | rfl : k = 0 ∨ k = 1 := by omega
    · exact .inr ⟨rfl, Nat.le_refl _⟩
    · rw [h0, o1] at ho
      exact absurd ho (by decide)
  · intro m j hm hj ho _
    rw [hn] at hj
    obtain rfl | rfl : j = 0 ∨ j = 1 := by omega
    · rw [o0] at ho
      rw [h0] at hm
      exact absurd ho.symm hm
    · rw [o1] at ho
      subst ho
      exact .inr ⟨rfl, Nat.le_refl _⟩

/-- R419: ILLOP of a bad value; R429: the notice counts STEP, sets MIS under another field, and starts the later phases; R430: bin 0 is handed to
core 6 and both cores drop its entry; R431: the bound thread gets its snapshot entry. -/
theorem test_field_steps :
    let n := nx (exec (.fieldStepNotice 6 5 9) (tStepping 1 [tStep]))
    let m := nx (exec (.fieldStepNotice 6 5 9) ((tStepping 1 [tStep]).modProc 6 fun p => { p with fieldcfg := 1 }))
    let h := nx (exec (.fieldHandover 5) (tStepping 2 []))
    let p := nx (exec (.fieldSnapshot 5) (tField 0 0))
    (nx (exec (.fieldcfgWrite (w64 (2 ^ 41))) (tField 0 0))).me.regs.tcause = 1 ∧ (nx (exec (.fieldcfgWrite 0) (tField 0 0))).myProc.fieldcfg = 0 ∧
    (n.proc 6).fstat = 1 ∧ tb 21 (m.proc 6).fstat = true ∧
    n.agenda = [.fieldResidentCount 5 6 0, .fieldHandover 5] ∧ (n.proc 5).fsteps.map (fun f => f.todo) =
      [[.fieldHandover 5, .fieldHandover 6, .fieldSnapshot 5, .fieldSnapshot 6, .fieldHaloCopy 5 6, .fieldHaloCopy 6 5, .fieldStepRelease 5]] ∧
    (spHas (h.proc 5).ftabs 0, spHas (h.proc 6).ftabs 0) = (false, false) ∧ (nx (exec (.fieldHandover 5) (tStepping 1 []))).agenda = [] ∧
    ((p.proc 5).snap.map (fun e => (e.handle, e.payload)), (p.slot tWho).snaph) = ([(80, 0x99)], 80) ∧
    spGet 0 ((nx (exec (.fieldResidentCount 5 6 7) (tField 0 0))).proc 5).nbrs 6 = 7 := by decide +kernel

/-- A step whose waiter is slot 1 of LPN 5, and one followed by another (R429, R431). -/
def tRelease : State :=
  (tStepping 1 [{ tStep with held := [tBarWaiter] }]).modProc 5 fun p => { p with slots := p.slots ++ [(1, { tWaits .barrier (some tLatch) with bound := true })] }

theorem test_meets_snapshots :
    ((0, tBound 3) ∈ ((tStepping 1 []).proc 5).boundSlots ∧ TableKnown ((tStepping 1 []).proc 5)) ∧
    ((tRelease.proc 5).fsteps.map (fun f => f.held) = [[tBarWaiter]] ∧ (tRelease.slot tBarWaiter.who).holds 4 = true ∧
      (tRelease.slot tBarWaiter.who).latch = some tLatch ∧ tBarWaiter.remote = false) ∧
    ((tStepping 1 [tStep, { tStep with gen := 10 }]).proc 5).fsteps = tStep :: { tStep with gen := 10 } :: [] ∧
    (0 < 2 ∧ ownerOf ((tStepping 1 []).proc 6) 1 = 1 ∧ touching (binOf ((tStepping 1 []).proc 6).fieldcfg 3) (binAt ((tStepping 1 []).proc 6).fieldcfg 1) = true) :=
  ⟨⟨by decide, tableKnown_of (by decide)⟩, by decide, by decide, by decide⟩

/-- R429: the halo of core 6 takes the entry of bin 0, which touches its bin 1; the waiter reads generation 9 and looks for its bin's owner. -/
theorem test_snapshots :
    let c := nx (exec (.fieldHaloCopy 6 5) (tStepping 1 []))
    let r := nx (exec (.fieldStepRelease 5) tRelease)
    (c.proc 6).halo.map (fun e => e.handle) = [80] ∧ (r.slot tBarWaiter.who).arch.rd 4 = 9 ∧ (r.slot tBarWaiter.who).rebin = true ∧
    (nx (exec (.fieldStepRelease 5) (tStepping 1 [tStep, { tStep with gen := 10 }]))).agenda = [.fieldStepNotice 6 5 10] := by decide +kernel

/-- LPN 7 is hosted by core 9; core 5 waits for a lookup of it, core 8 has an entry for it and has not acknowledged. -/
def tPlace : State :=
  { tAt (tWaits .lookup none) with
    place := [(7, { core := 9, cachers := .s [8], acks := [8], fwdAt := [7] })],
    cores := [(7, { Core.init 7 with host := 70, fwd := [(7, 9)] }), (8, { Core.init 8 with pcache := [(7, 7), (6, 6)] }), (9, { Core.init 9 with host := 7 })],
    net := [(4, .weight 5 7 1 3)] }

/-- A lookup that is answered, an invalidation, an item at an old host, at a core without a forwarding entry and at its host (R433, R434, R449). -/
theorem test_meets_placementTable :
    (spHas tPlace.place 7 = true ∧ 5 < 8192 ∧ (tPlace.slot { lpn := (tPlace.core 5).host, slot := 0 }).st = .waiting ∧
      (tPlace.slot { lpn := (tPlace.core 5).host, slot := 0 }).wait.map (fun x => x.kind) = some .lookup) ∧
    ((tPlace.placeOf 7).fwdAt = [7] ∧ (tPlace.placeOf 7).acks = [8]) ∧
    ((tPlace.item 4).map Item.ends = some (some (7, 5)) ∧ (tPlace.core 9).host = 7 ∧ (tPlace.core 7).host ≠ 7 ∧
      ((tPlace.core 7).fwd.find? fun e => e.1 == 7) = some (7, 9) ∧ ((tPlace.core 8).fwd.find? fun e => e.1 == 7) = none ∧ (tPlace.core 8).host ≠ 7 ∧
      (tPlace.core 9).frozen = false ∧ (tPlace.core 9).gated = false) := by decide

/-- R433: the entry is cached and its cacher named; R449: core 8 drops its entry, and the last acknowledgement retires the forward; R434: the item. -/
theorem test_placement_table :
    let l := nx (exec (.placementLookup 5 7) tPlace)
    let i := nx (exec (.placementInvalidate 8 7) tPlace)
    ((l.core 5).pcache, (l.placeOf 7).cachers, (l.slot tWho).st) = ([(7, 9)], .s [8, 5], .ready) ∧
    ((i.core 8).pcache, i.agenda, (i.placeOf 7).fwdAt) = ([(6, 6)], [.forwardRetire 7 7], []) ∧
    ((nx (exec (.forwardRetire 7 7) tPlace)).core 7).fwd = [] ∧ ((nx (exec (.placementUpdate 8 7 3) tPlace)).core 8).pcache = [(6, 6), (7, 3)] ∧
    (nx (exec (.forwardItem 4 9) tPlace)).agenda = [.weightReport 4] ∧ (nx (exec (.forwardItem 4 7) tPlace)).agenda.getLast? = some (.weightReport 4) ∧
    (nx (exec (.forwardItem 4 8) tPlace)).agenda.getLast? = some (.weightReport 4) := by decide +kernel

/-- The machine of "A decision by hand" (23): p on X = 3065 at (57, 31), q on Y = 3593 at (57, 32), r on 3017, s on 3721; job 7; the draws 2 and
0x9C40 of DET = 1; a temperature; a proposal of X under way or none; an answer of Y. -/
def tAnneal (mode temp : W64) (idx : Nat) (prop : Option Proposal) (ans : Option Nat) : State :=
  let c (n r : Nat) : Core :=
    { Core.init n with anmode := mode, antemp := temp, anstat := w64 (idx * 2 ^ 48), andraw := [(0, 2), (1, 0x9C40)], pcache := [(r, r)] }
  let s : State := { State.reset with
    procs := [(3065, { Proc.init 3065 with coretag := 7 }), (3593, { Proc.init 3593 with coretag := 7 })],
    cores := [(3065, { c 3065 3017 with prop := prop }), (3593, { c 3593 3721 with answering := ans })] }
  put (put (put s 3065 0x3640 (w64 (seqKey false 3017 0 + 60 * 2 ^ 48))) 3065 0x3648 (w64 (seqKey true 3017 0 + 8 * 2 ^ 48)))
    3593 0x3640 (w64 (seqKey false 3721 0 + 20 * 2 ^ 48))

/-- The proposal of the example. -/
def tProp (dy : Int) (refused accept : Bool) : Proposal := { other := 3593, dx := 204, dy := dy, refused := refused, accept := accept }

/-- Sweeps of a frozen core and of one that is not (R436, R442). -/
theorem test_meets_sweeps :
    (({ tAnneal 3 1000 0 none none with cores := [(3065, { Core.init 3065 with frzSwap := true })] } : State).core 3065).frozen = true ∧
    ((tAnneal 3 1000 0 none none).core 3065).frozen = false ∧
    (tb 0 ((tAnneal 3 1000 0 none none).seqAt 3065 0) = true ∧ tb 1 ((tAnneal 3 1000 0 none none).seqAt 3065 0) = false ∧
      tb 1 ((tAnneal 3 1000 0 none none).seqAt 3065 1) = true) := by decide +kernel

/-- The states in which a proposal is skipped, refused, sent, answered, decided and received (R439 to R441). -/
theorem test_meets_proposals :
    tb 0 ((tAnneal 0 0 0 none none).core 3065).anmode = false ∧ tb 0 ((tAnneal 3 1000 0 none none).core 3065).anmode = true ∧
    (neighbour 3065 (drawn ((tAnneal 3 1000 0 none none).core 3065)) = some 3593 ∧ (tAnneal 3 1000 0 none none).refuses 3065 3593 false = false) ∧
    neighbour 0 (drawn ({ Core.init 0 with anmode := 3, andraw := [(0, 1)] } : Core)) = none ∧
    ((tAnneal 3 1000 0 none none).modProc 3065 fun p => { p with anc := true }).refuses 3065 3593 false = true ∧
    ((tAnneal 3 1000 1 (some (tProp 0 false false)) none).refuses 3593 3065 false = false ∧
      ((tAnneal 3 1000 1 (some (tProp 0 false false)) none).modProc 3593 fun p => { p with anc := true }).refuses 3593 3065 false = true) ∧
    ((tAnneal 3 1000 1 (some (tProp 60 false false)) none).refuses 3065 3593 true = false ∧
      ((tAnneal 3 1000 1 (some (tProp 60 false false)) none).modProc 3065 fun p => { p with lanc := true }).refuses 3065 3593 true = true) ∧
    (((tAnneal 3 1000 1 (some (tProp 60 false true)) (some 3065)).core 3593).answering = some 3065 ∧
      (tAnneal 3 1000 1 (some (tProp 60 false true)) (some 3065)).refuses 3593 3065 true = false ∧
      ((tAnneal 3 1000 1 (some (tProp 60 false true)) (some 3065)).modProc 3593 fun p => { p with anc := true }).refuses 3593 3065 true = true) := by
  decide +kernel

/-- The halves of the example: ΔX = 204, ΔY = 60; ΔC = 264 is accepted at T = 1,000 and rejected at T = 200 and at T = 0, where no draw is taken. -/
theorem test_decision_by_hand :
    let d (t : W64) : Option Bool × Nat :=
      let c := (nx (exec (.proposalDecide 3065) (tAnneal 3 t 1 (some (tProp 60 false false)) (some 3065)))).core 3065
      (c.prop.map fun p => p.accept, fld 51 48 c.anstat)
    ((tAnneal 3 1000 0 none none).costHalf 3065 3593 2, (tAnneal 3 1000 0 none none).costHalf 3593 3065 2) = (204, 60) ∧
    d 1000 = (some true, 2) ∧ d 200 = (some false, 2) ∧ d 0 = (some false, 1) := by decide +kernel

/-- R442: the sweep after it sets T to 938 and halves the weight 60; R439: the draw 2 proposes to Y; R441: Y's half; the acceptance. -/
theorem test_flutter :
    let s := tAnneal 3 1000 0 none none
    let w := nx (exec (.flutterSweep 3065) s)
    let p := nx (exec (.flutterPropose 3065) s)
    let a := nx (exec (.proposalAnswer 3593 3065) (tAnneal 3 1000 1 (some (tProp 0 false false)) none))
    let r := nx (exec (.decisionReceive 3593) (tAnneal 3 1000 1 (some (tProp 60 false true)) (some 3065)))
    ((w.core 3065).antemp, seqWT (w.seqAt 3065 0)) = (938, 30) ∧ ((p.core 3065).prop, p.agenda) = (some (tProp 0 false false), [.proposalAnswer 3593 3065]) ∧
    ((a.core 3065).prop, a.agenda) = (some (tProp 60 false false), [.proposalDecide 3065]) ∧
    ((r.core 3065).swap, (r.core 3593).swap, r.agenda, fld 31 16 (r.core 3065).anstat) = (some 3593, some 3065, [.swapFreeze 3065 3593], 1) := by
  decide +kernel

/-- Cores 5 and 6 with a swap accepted and a thread of core 5 that waits for it. -/
def tSwap : State :=
  { tAt (tWaits .swap none) with
    cores := [(5, { Core.init 5 with swap := some 6, sweeps := 1 }), (6, { Core.init 6 with swap := some 5 })],
    place := [(5, { core := 5, cachers := .s [8], acks := [], fwdAt := [] }), (6, { core := 6, cachers := .u, acks := [], fwdAt := [] })] }

theorem test_meets_swaps :
    ((tSwap.core 5).host ≠ (tSwap.core 6).host ∧ (tSwap.core 5).held = [] ∧ (tSwap.core 6).held = []) ∧ Freezable tSwap 5 ∧ Freezable tSwap 6 ∧
    ((tSwap.slot tWho).st = .waiting ∧ (tSwap.slot tWho).wait.map (fun x => x.kind) = some .swap) :=
  ⟨by decide, ⟨by decide, by decide, by decide⟩, ⟨by decide, by decide, by decide⟩, by decide⟩

/-- R448, R449: the freeze, the exchange of hosts, the arbiter's new entries with the forwarding entries, and the resume with the owed sweep. -/
theorem test_swaps :
    let f := nx (exec (.swapFreeze 5 6) tSwap)
    let m := nx (exec (.swapMove 5 6) tSwap)
    let p := nx (exec (.swapFlip 5 6) m)
    let r := nx (exec (.swapResume 5 6) tSwap)
    ((f.core 5).frzSwap, f.agenda.getLast?) = (true, some (.swapMove 5 6)) ∧ ((m.core 5).host, (m.core 6).host, (m.proc 5).core, (m.proc 6).core) = (6, 5, 6, 5) ∧
    ((p.placeOf 5).core, (p.placeOf 6).core, (p.core 5).fwd, (p.core 6).fwd) = (6, 5, [(5, 6)], [(6, 5)]) ∧ .placementInvalidate 8 5 ∈ p.agenda ∧
    ((r.core 5).swap, (r.slot tWho).st, r.agenda) = (none, .ready, [.flutterSweep 5]) := by decide +kernel

/-! ## Witnesses and effects: the way of a paged request -/

/-- A request of slot 0 of LPN 5 for the sector at guest-physical 0x1000 of a VMID; its line 0x10 has its home in slice 1 of die 0 (R85). -/
def tPg (k : PgKind) (vmid : Nat) : PgReq :=
  { kind := k, core := 5, who := tWho, vmid := vmid, la := 0x1000, gpa := 0x1000, w1 := true, u1 := true, mt := 0, hpa := none, w2 := false, parts := none,
    ld := none, stale := false, arr := none }

/-- An L2 line of that address with its first sector in a state. -/
def tLine (vmid : Nat) (dir : Dir) (st : SecSt) : L2Line :=
  { vmid := vmid, line := 0x10, way := 0, sec0 := st, sec1 := .absent, dir := dir, pins := 0, mt := 0, w2 := true, hline := 0x10, busy := none, waiting := [] }

/-- The request in flight as number 2 to slice 1 with lines; its thread waits for the fill. -/
def tHome (i : Item) (lines : List L2Line) : State :=
  { tAt (tWaits .fill none) with
    net := [(2, i)], nextId := 10, slices := [(1, { Slice.init with lines := lines })], secs := lines.map fun l => (secKey l.vmid 0x1000, 0x1234) }

/-- The same with a bucket of VMID 3 and the pool of die 0. -/
def tBucket (tok : Int) (pool : Nat) (misses : List Nat) : State :=
  { tHome (.pg (tPg (.fill false) 3)) [] with slices := [(1, { Slice.init with buckets := [(3, tok)], misses := misses })], pools := [(0, pool)] }

/-- Nothing stands in the way of these requests. -/
theorem clearPath_of {s : State} {r : PgReq} (b : s.blockOf r.vmid r.gpa = none) (p : s.repairs = [])
    (l : (s.l2Find r.vmid (r.gpa / 256)).all fun l => l.busy.isNone) (c : r.stale = false) (e : s.errs = [] ∧ s.soft = []) : ClearPath s r :=
  ⟨c, e, b, fun x h => (by rw [p] at h; cases h), fun m h => (by rw [h] at l; simpa using l)⟩

/-- A fill that a slice serves, whose owner it recalls, that pays a token of its bucket or of the pool, and that waits (R95, R105, R106). -/
theorem test_meets_sliceFills :
    ((tHome (.pg (tPg (.fill false) 0)) [tLine 0 .u .clean]).item 2 = some (.pg (tPg (.fill false) 0)) ∧
      (tHome (.pg (tPg (.fill false) 0)) [tLine 0 .u .clean]).l2Find 0 0x10 = some (tLine 0 .u .clean) ∧ (tLine 0 .u .clean).sec (0x1000 / 128 % 2) ≠ .absent ∧
      (tLine 0 (.o 9) .dirty).dir = .o 9 ∧ 9 ≠ (tPg (.fill false) 0).core) ∧
    ((tBucket 1 0 []).l2Find 3 0x10 = none ∧ (tBucket 1 0 []).missOf 1 3 = false ∧ (tBucket 1 0 []).tokens 1 3 = 1) ∧
    ((tBucket 0 1 []).tokens 1 3 < 1 ∧ spGet 0 (tBucket 0 1 []).pools 0 = 1 ∧ (tBucket 0 1 []).dieWaits 0 = false) ∧
    ((tBucket 0 0 []).tokens 1 3 < 1 ∧ spGet 0 (tBucket 0 0 []).pools 0 = 0) ∧
    ((tBucket 0 1 [2]).dieWaits 0 = true ∧ (tBucket 0 1 [2]).tokens 1 3 < 1) ∧
    (((tBucket 1 0 [2]).slice 1).misses = [2] ∧ ((tBucket 0 0 [2]).slice 1).misses = [2] ∧ (tBucket 1 0 [2]).askers 0 = [(1, 2)] ∧
      (tBucket 0 0 [2]).askers 0 = [(1, 2)] ∧ 1 ≤ (tBucket 1 0 [2]).tokens 1 3) := by decide

theorem test_meets_clearPath :
    ClearPath (tHome (.pg (tPg (.fill false) 0)) [tLine 0 .u .clean]) (tPg (.fill false) 0) ∧ ClearPath (tBucket 1 0 []) (tPg (.fill false) 3) ∧
    NoOwner (tLine 0 .u .clean) 5 ∧ (tPg (.fill false) 0).IsFill ∧ AwaitsFill (tHome (.pg (tPg (.fill false) 0)) []) tWho :=
  ⟨clearPath_of (by decide) rfl (by decide) rfl ⟨rfl, rfl⟩, clearPath_of (by decide) rfl (by decide) rfl ⟨rfl, rfl⟩, fun c h => (by rcases h with h | h <;> cases h), ⟨false, .inl rfl⟩,
   ⟨by decide, _, rfl, rfl⟩⟩

/-- A process with XROOT to a root table at 0x5000, whose walk of 0x1000 leads through tables at 0x6000, 0x7000, 0x8000 to a leaf or to nothing. -/
def tWalk (leaf : W64) (root : W64) : State :=
  let w (s : State) (a : Nat) (v : W64) : State := { s with mem := (List.range 8).foldl (fun m i => memPut m (a + i) (byteOf v i)) s.mem }
  let s : State := { tAt (tWaits .fill none) with ports := [(0, { Port.init with queue := [{ who := tWho, la := 0x1000, acc := 0, ld := none }] })] }
  w (w (w (w (w s 0x5000 0x6003) 0x6000 0x7003) 0x7000 0x8003) 0x8000 0x9003) 0x9008 leaf |>.modProc 5 fun p => { p with xroot := root }

/-- Walks that end in a leaf, in a fault, and with XROOT.E = 0 (R43). -/
theorem test_meets_walks :
    (match ((tWalk 0xA019 0x5001).walk1 ((tWalk 0xA019 0x5001).proc 5) 0x1000).res with
      | .ok l => (l.gpa, l.size, l.w, l.u)
      | _ => (0, 0, false, false)) = (0xA000, 4096, true, true) ∧
    (match ((tWalk 0 0x5001).walk1 ((tWalk 0 0x5001).proc 5) 0x1000).res with
      | .bad f => (f.kind, f.level)
      | _ => (9, 9)) = (0, 0) ∧
    (match ((tWalk 0 0).walk1 ((tWalk 0 0).proc 5) 0x1000).res with
      | .off => true
      | _ => false) = true := by decide +kernel

/-- The walk whose root entry is invalid and stands in a line of its slice, which may be busy. -/
def tWalkHit (busy : Option Busy) : State :=
  { (tWalk 0 0x4001) with
    slices := [(sliceOf 0x40, { Slice.init with lines := [{ (tLine 0 .u .clean) with line := 0x40, hline := 0x40, busy := busy }] })] }

/-- A walk that meets a busy line, one that reads in place, a thread that has settled; a store at the home with and without the right W. -/
theorem test_meets_walkReads :
    (((tWalkHit (some { acks := 1, req := 7 })).walk1 ((tWalkHit (some { acks := 1, req := 7 })).proc 5) 0x1000).res matches .wait) = true ∧
    (((tWalkHit none).walk1 ((tWalkHit none).proc 5) 0x1000).res matches .bad _) = true ∧
    (((tWalkHit none).walk1 ((tWalkHit none).proc 5) 0x1000).reads = [0x4000] ∧ (tWalkHit none).errs = [] ∧ (tWalkHit none).soft = []) ∧
    Settled (tWalkHit none) tWho ∧ KnownW (tPg (.home true) 3) true ∧ ¬ KnownW (tPg (.home true) 3) false ∧
    (tHome (.pg (tPg (.home true) 3)) [{ (tLine 3 .u .clean) with w2 := false }]).l2Find 3 0x10 = some { (tLine 3 .u .clean) with w2 := false } :=
  ⟨by decide +kernel, by decide +kernel, by decide +kernel, ⟨by decide, by decide⟩, fun _ => .inr rfl, fun h => absurd (h rfl) (by decide), by decide⟩

theorem test_meets_readInPlace : ReadInPlace (tWalkHit none) 0 [0x4000] := by
  intro a h
  obtain rfl : a = 0x4000 := List.mem_singleton.mp h
  exact ⟨{ (tLine 0 .u .clean) with line := 0x40, hline := 0x40 }, by decide +kernel, by decide, rfl⟩

/-- R43: the leaf enters the row's translations and the thread goes on; a fault parks it on record 0; R95, R105, R106: the slice's answers. -/
theorem test_slice_fills :
    let k (s : State) : State := nx (exec (.pageWalk 0) s)
    let f (s : State) : List Ev × Int × Nat × List Nat :=
      let t := nx (exec (.l2FillRequest 2) s); (t.agenda, t.tokens 1 3, spGet 0 t.pools 0, (t.slice 1).misses)
    ((k (tWalk 0xA019 0x5001)).port 5).tlb.map (fun e => (e.page, e.gpa)) = [(1, 0xA000)] ∧ ((k (tWalk 0 0x5001)).slot tWho).park = some 0 ∧
    ((k (tWalk 0 0)).slot tWho).st = .ready ∧ (f (tHome (.pg (tPg (.fill false) 0)) [tLine 0 .u .clean])).1 = [.stashFillReply 2] ∧
    (f (tHome (.pg (tPg (.fill false) 0)) [tLine 0 (.o 9) .dirty])).1 = [.stashRecall 9 (secKey 0 0x1000) false] ∧
    (f (tBucket 1 0 [])).1 = [.mscFill 2] ∧ (f (tBucket 1 0 [])).2.1 = 0 ∧ ((f (tBucket 0 1 [])).1, (f (tBucket 0 1 [])).2.2.1) = ([.mscFill 2], 0) ∧
    ((f (tBucket 0 0 [])).1, (f (tBucket 0 0 [])).2.2.2) = ([], [2]) ∧ (nx (exec (.tokenRetry 1) (tBucket 1 0 [2]))).agenda = [.mscFill 2] := by
  decide +kernel

/-- A memory-side line of that address. -/
def tMscLine : MscLine := { vmid := 0, line := 0x10, set := 0, way := 0, hline := 0x20, sec0 := .clean, sec1 := .absent }

/-- The fill at base die 0 with memory-side lines, stage-two entries and fills that wait for blocked leaves; the HBM holds 0x77 at 0x2000. -/
def tBase (r : PgReq) (lines : List MscLine) (s2 : List S2Ent) (blocked : List Nat) : State :=
  { tHome (.pg r) [] with bases := [(0, { BaseDie.init with lines := lines, s2 := s2, blocked := blocked })], mem := [(0x2000, 0x77)] }

/-- A leaf of VMID 3 from page 1 to 0x2000, perhaps blocked. -/
def tLeaf2 (b w : Bool) : S2Ent := { vmid := 3, page := 1, size := 4096, hpa := 0x2000, r := true, w := w, b := b, mt := 0, level := 0 }

/-- A hit and a miss of the memory side, a fault, a blocked leaf with and without a slot, data that return, stash and home replies. -/
theorem test_meets_memorySideFills :
    ((tBase (tPg (.fill false) 0) [tMscLine] [] []).mscFind 0 0x10 = some tMscLine ∧ tMscLine.sec (0x1000 / 128 % 2) ≠ .absent) ∧
    (tBase (tPg (.fill false) 3) [] [] []).mscFind 3 0x10 = none ∧
    (s2Check 3 0x1000 0 false ((tBase (tPg (.fill false) 3) [] [] []).s2Find 3 0x1000) matches .error _) = true ∧
    (s2Check 3 0x1000 0 false ((tBase (tPg (.fill false) 3) [] [tLeaf2 false true] []).s2Find 3 0x1000) matches .ok (_, 0)) = true ∧
    ((s2Check 3 0x1000 0 false ((tBase (tPg (.fill false) 3) [] [tLeaf2 true true] []).s2Find 3 0x1000)).toOption.map fun x => x.1.b) = some true ∧
    (tBase (tPg (.fill false) 3) [] [tLeaf2 true true] []).blockOf 3 0x1000 = none ∧ 2 ∈ ((tBase (tPg (.fill false) 3) [] [] [2]).base 0).blocked ∧
    (let r : PgReq := { tPg (.fill false) 0 with hpa := some 0x2000 }
     r.hpa = some 0x2000 ∧ (tBase r [] [] []).blockOf 0 0x1000 = none ∧ (tBase r [] [] []).l2Find 0 0x10 = none ∧
      spHas (tBase r [] [] []).secs (secKey 0 0x1000) = false ∧ (tBase r [] [] []).l2Mask 0 ≠ 0) ∧
    (let s : State := { tBase { tPg (.fill false) 3 with hpa := some 0x2000 } [] [] [] with regs := { State.reset.regs with l2part := [(3, 0xFFFF)] } }
     s.msMask 3 = 0 ∧ s.l2Mask 3 ≠ 0) := by decide

theorem test_meets_freeWay : FreeWay (tBase (tPg (.fill false) 0) [] [] []) (tPg (.fill false) 0) := .inr ⟨0, by decide⟩

/-- A reply with a present line for a stash of one unit. -/
def tReply (k : PgKind) : State :=
  (tHome (.pg { tPg k 0 with hpa := some 0x1000 }) [tLine 0 .u .clean]).modProc 5 fun p => { p with lmmap := 1 }

theorem test_meets_replies :
    (L2Has (tReply (.fill false)) { tPg (.fill false) 0 with hpa := some 0x1000 } (tLine 0 .u .clean)) ∧ Answers (tReply (.fill false)) 5 ∧
    stashSets ((tReply (.fill false)).proc ((tReply (.fill false)).core 5).host) ≠ 0 ∧ (tReply (.fill false)).stashLine 5 0 0x10 = none ∧
    (tReply (.fill false)).stashKept 5 0 0x10 = none ∧
    (tReply (.fill false)).stashWay 5 0x1000 = some (128, false) ∧ ((tReply (.home false)).slice (sliceOf 0x10)).watch.length < 64 :=
  ⟨⟨by decide, by decide⟩, ⟨by decide, by decide⟩, by decide, by decide, by decide, by decide, by decide⟩

/-- A blocked leaf whose page a block slot covers, with an empty queue; a fill of type 1; a thread that has settled. -/
theorem test_meets_blockedFills :
    (let s : State := { tBase (tPg (.fill false) 3) [] [tLeaf2 true true] [] with
       blocks := [(2, { active := true, val := w64 (3 * 2 ^ 56 + 2 ^ 12), drained := false, queue := [] })] }
     s.blockOf 3 0x1000 = some 2 ∧ spGet [] (s.block 2).queue (sliceOf 0x10) = []) ∧
    ({ tPg (.fill false) 3 with mt := 1 } : PgReq).mt ≠ 0 ∧ Settled (tBase (tPg (.fill false) 0) [] [] []) tWho ∧
    (tBase (tPg (.fill false) 0) [] [] []).repairs = [] :=
  ⟨by decide, by decide, ⟨by decide, by decide⟩, rfl⟩

/-- R115: the hit replies and charges; R47: the leaf's address; R121: 64 cycles; R124: a lost sector parks the thread; R73, R103: the replies. -/
theorem test_memory_side_fills :
    let m := nx (exec (.mscFill 2) (tBase (tPg (.fill false) 0) [tMscLine] [] []))
    let x (b : Bool) : State := nx (exec (.s2Translate 2) (tBase (tPg (.fill false) 3) [] [tLeaf2 b true] []))
    let l := nx (exec (.controllerFillReturn 2 true) (tBase { tPg (.fill false) 0 with hpa := some 0x2000 } [] [] []))
    let g := nx (exec (.controllerFillReturn 2 false) (tBase { tPg (.fill false) 0 with hpa := some 0x2000 } [] [] []))
    let r := nx (exec (.stashFillReply 2) (tReply (.fill false)))
    let h := nx (exec (.stashFillReply 2) (tReply (.home false)))
    (m.agenda.getLast?, (m.proc 5).chgfill) = (some (.stashFillReply 2), 1) ∧ ((x false).agenda, (x true).timers.length) = ([.controllerFillReturn 2 false], 1) ∧
    ((l.slot tWho).st, l.repairs.map fun e => e.gpa) = (.parked, [0x1000]) ∧ g.secAt 0 0x1000 0x2000 = 0x77 ∧
    (r.core 5).stash.map (fun e => (e.1, e.2.sec0, e.2.st)) = [(128, .clean, .s)] ∧ (h.slot tWho).grants.map (fun e => e.data) = [0x1234] := by
  decide +kernel

/-! ## Witnesses and effects: the directory, atomics at a slice, tiles, the memory side -/

/-- A stash line of core 9 for guest-physical 0x1000 of VMID 0, its first sector dirty. -/
def tHeldLine : StashLine := { tStashLine with st := .x, sec0 := .dirty }

/-- Core 9 holds that line, perhaps core 8 a shared copy, the slice the line with a transaction, the request r as number 2. -/
def tDir (r : PgReq) (dir : Dir) (busy : Option Busy) (waiting : List Nat) (copy : Bool) : State :=
  let c (n : Nat) (l : StashLine) : Nat × Core := (n, { Core.init n with stash := [(128, l)] })
  { tHome (.pg r) [{ tLine 0 dir .clean with busy := busy, waiting := waiting }] with
    cores := (if copy then [c 8 { tStashLine with st := .s }] else []) ++ [c 9 tHeldLine] }

theorem test_meets_stashHolds : StashHolds (tDir (tPg .drop 0) (.x 9) none [] true) 9 0 0x10 128 tHeldLine ∧ Answers (tDir (tPg .drop 0) (.x 9) none [] true) 9 :=
  ⟨⟨by decide, by decide⟩, by decide, by decide⟩

theorem test_meets_oneCopy : OneCopy (tDir (tPg .drop 0) (.x 9) none [] true) 0 0x10 := by
  intro c e he _ _ f hf _
  have h : ∀ c, ((tDir (tPg .drop 0) (.x 9) none [] true).core c).stash.length ≤ 1 := by
    intro c
    by_cases h8 : c = 8
    · subst h8
      decide
    · by_cases h9 : c = 9
      · subst h9
        decide
      · simp [tDir, tHome, State.core, spGet, Core.init, Ne.symm h8, Ne.symm h9]
  have hl := h c
  match hs : ((tDir (tPg .drop 0) (.x 9) none [] true).core c).stash with
  | [] => rw [hs] at he; cases he
  | [y] =>
    rw [hs] at he hf
    rw [List.mem_singleton.mp he, List.mem_singleton.mp hf]
  | _ :: _ :: _ => rw [hs] at hl; simp at hl

/-- Acknowledgements before the last and the last, notices of a sharer and of the owner, an ownership request that meets another owner (R95, R154). -/
theorem test_meets_directory :
    ((tDir (tPg .own 0) (.x 9) (some { acks := 1, req := 2 }) [] false).l2Find 0 0x10).map (fun l => l.busy) = some (some { acks := 1, req := 2 }) ∧ 1 < 2 ∧
    ((tDir (tPg .drop 0) (.s [5, 9]) none [] false).l2Find 0 0x10).map (fun l => l.dir) = some (.s [5, 9]) ∧
    (tDir (tPg .drop 0) (.s [5, 9]) none [] false).stashLine 5 0 0x10 = none ∧
    ((tDir (tPg .writeback 0) (.x 5) none [] false).l2Find 0 0x10).map (fun l => l.dir) = some (.x (tPg .writeback 0).core) ∧
    ((tDir (tPg .own 0) (.o 9) none [] false).l2Find 0 0x10).map (fun l => l.dir) = some (.o 9) ∧ 9 ≠ (tPg .own 0).core ∧ 0x1000 < 2 ^ 48 := by decide

/-- A thread that applies its chunk in domain 0 and awaits the ownership of that line. -/
def tOwning : State :=
  let k : Chunk := { start := tSlot.arch, count := 1, reads := [], writes := [.paged 0 0x10], touch := [], stores := [], pushes := [], pops := [], ended := true,
                     endId := 0, last := false }
  (tDir (tPg .own 0) .u none [] false).modProc 5 fun p =>
    { p with slots := [(0, { tSlot with commit := some { chunk := k, st := .applying [0], owns := [2], pinWait := none, begun := false } })] }

theorem test_meets_ownership :
    ((tOwning.slot tWho).commit.map fun c => (c.owns, c.st)) = some ([2], .applying (0 :: [])) ∧ ClearPath tOwning (tPg .own 0) :=
  ⟨by decide, clearPath_of (by decide) rfl (by decide) rfl ⟨rfl, rfl⟩⟩

/-- A notice that meets a busy line, a commit whose slice has the data, one whose right W is not known, a reader of an invalidated line. -/
theorem test_meets_directoryWaits :
    (((tDir (tPg .drop 0) (.s [5, 9]) (some { acks := 1, req := 7 }) [] false).l2Find 0 0x10).map fun l => (l.busy.isSome, l.line)) = some (true, 0x10) ∧
    OwnsData tOwning (tPg .own 0) ∧
    (let s : State := tHome (.pg (tPg .own 3)) [{ tLine 3 .u .clean with w2 := false }]
     s.stashLine 5 3 0x10 = none ∧ s.l2Sec 3 0x1000 ≠ .absent ∧ s.w2Ok (tPg .own 3) = false) ∧
    (let c : Chunk := { start := tSlot.arch, count := 1, reads := [.paged 0 0x10], writes := [], touch := [], stores := [], pushes := [], pops := [], ended := false,
                        endId := 0, last := false }
     let s : State := (tDir (tPg .drop 0) (.x 9) none [] false).modProc 9 fun p => { p with slots := [(3, { tSlot with chunk := some c })] }
     (s.slot { lpn := (s.core 9).host, slot := 3 }).chunk = some c ∧ (s.slot { lpn := 9, slot := 3 }).commit = none ∧
       (s.slot { lpn := 9, slot := 3 }).soloHeld = false) :=
  ⟨by decide, .inr ⟨.inl (by decide), by decide⟩, by decide, by decide⟩

/-- R95: the invalidation and the revocation drop the copy, a recall leaves it shared, a grant drops the others; R95: the last acknowledgement
serves what waited; the notices; R154: the owner's recall, and the commit that goes on. -/
theorem test_directory :
    let s := tDir (tPg .own 0) (.x 9) (some { acks := 1, req := 2 }) [] true
    let k := secKey 0 0x1000
    let st (t : State) : List (Option LineSt) := [9, 8].map fun c => (t.stashLine c 0 0x10).map fun e => e.2.st
    let d (t : State) : Option Dir := (t.l2Find 0 0x10).map fun l => l.dir
    st (nx (exec (.stashInvalidate 9 k) s)) = [none, some .s] ∧ st (nx (exec (.stashRevoke 9 k) s)) = [none, some .s] ∧
    st (nx (exec (.stashRecall 9 k false) s)) = [some .s, some .s] ∧ st (nx (exec (.stashRecall 9 k true) s)) = [none, some .s] ∧
    st (nx (exec (.exclusiveGrant 9 k) (tDir (tPg .drop 0) (.x 9) none [] true))) = [some .x, none] ∧
    (nx (exec (.l2InvalidateAck 2) s)).agenda = [.l2OwnershipRequest 2] ∧
    d (nx (exec (.l2DropNotice 2) (tDir (tPg .drop 0) (.s [5, 9]) none [] false))) = some (.s [9]) ∧
    d (nx (exec (.l2Writeback 2) (tDir (tPg .writeback 0) (.x 5) none [] false))) = some .u ∧
    (nx (exec (.l2OwnershipRequest 2) (tDir (tPg .own 0) (.o 9) none [] false))).agenda = [.stashRecall 9 k true] ∧
    (nx (exec (.l2OwnershipRequest 2) tOwning)).agenda = [.domainApply 0 5 0] := by decide +kernel

/-- Two AFAA.w of cores 5 and 6 of die 0 on the word at 0x1000, with the addends 3 and 4; the reply of their combination. -/
def tAfaa (core : Nat) (x : W64) (parts : Option (Nat × Nat × W64)) : PgReq :=
  { tPg (.atomic 0 4 true x 0) 0 with core := core, parts := parts, hpa := if parts.isSome then some 0x1000 else none }

/-- The two in flight as 2 and 3. -/
def tMeet : State :=
  let s := tHome (.pg (tAfaa 5 3 none)) [tLine 0 .u .clean]
  { s with net := [(2, .pg (tAfaa 5 3 none)), (3, .pg (tAfaa 6 4 none))], agenda := [.l2Atomic 2, .l2Atomic 3], regs := { s.regs with l2cfg := 0 } }

/-- The combined one, 4, answered with the old value 0xFFFFFFFE. -/
def tSplit : State :=
  { tMeet with net := [(2, .pg (tAfaa 5 3 none)), (3, .pg (tAfaa 6 4 none)), (4, .pgReply (tAfaa 5 7 (some (2, 3, 3))) 0xFFFFFFFE)], agenda := [] }

/-- An AFAA at its slice, two that combine, and the split of their reply (R91, R97). -/
theorem test_meets_sliceAtomics :
    (tMeet.item 2 = some (.pg (tAfaa 5 3 none)) ∧ (tAfaa 5 3 none).kind = .atomic 0 4 true 3 0 ∧ (tAfaa 5 3 none).parts = none ∧
      tMeet.lineHeld (.paged 0 0x10) (some tWho) = false ∧ tMeet.athresh = 0 ∧ 0x1000 % 4 = 0 ∧
      tMeet.w2Ok (tAfaa 5 3 none) = true) ∧
    (tMeet.unsent 2 = true ∧ tMeet.unsent 3 = true ∧ 3 < tMeet.nextId ∧ combinable (tAfaa 5 3 none) (tAfaa 520 4 none) = false) ∧
    (combinable (tAfaa 5 3 none) (tAfaa 6 4 none) = true ∧ (spGet [] tMeet.combine (meetAt (tAfaa 5 3 none) (tAfaa 6 4 none))).length < 8) ∧
    ((tAfaa 5 7 (some (2, 3, 3))).parts = some (2, 3, 3) ∧ (tAfaa 5 7 (some (2, 3, 3))).hpa = some 0x1000 ∧ tSplit.secBad 0 0x1000 0x1000 = false ∧
      tSplit.item 4 = some (.pgReply (tAfaa 5 7 (some (2, 3, 3))) 0xFFFFFFFE)) := by decide

/-- R97: the old word 0x1234 is returned and 0x1237 stands; R91: one request of 7, that of core 6 first, which comes on
input 0; the split returns 0xFFFFFFFE and, modulo 2^32, 1. -/
theorem test_slice_atomics :
    let a := nx (exec (.l2Atomic 2) tMeet)
    let c := nx (exec (.omegaCombine 2 3) tMeet)
    let p := nx (exec (.combineSplit 4) tSplit)
    (a.item 2 = some (.pgReply { tAfaa 5 3 none with arr := some 10 } 0x1234) ∧ a.pgRead 0 0x1000 0x1000 4 = 0x1237) ∧
    ((match c.item 10 with
      | some (.pg q) => some (q.kind, q.parts)
      | _ => none) == some (.atomic 0 4 true 7 0, some (3, 2, 4))) = true ∧
    (p.item 2 = some (.pgReply (tAfaa 5 3 none) 0xFFFFFFFE) ∧ p.item 3 = some (.pgReply (tAfaa 6 4 none) 1) ∧ p.agenda = [.landingResult 2, .landingResult 3]) := by
  decide +kernel

/-- A tile request of a core's slot 0 for the first sector, before its merge window or after it. -/
def tTileR (core : Nat) (held : Bool) : PgReq := { tPg (.tile 1 0 held) 0 with core := core, who := { lpn := core, slot := 0 } }

/-- A group of the requests of a list. -/
def tGroup (closed : Bool) (l : List Nat) : TileHold := { vmid := 0, line := 0x10, need := 1, closed := closed, reqs := l }

/-- The line with pins, for tile requests of core 5 as 2 and of core 6 as 3, with L2CFG, holds and waiting requests of slice 1; the unit of
core 5 waits for 2 and has pinned lines. -/
def tTile (pins : Nat) (cfg : W64) (held : Bool) (holds : List TileHold) (wait : List Nat) (mine : List (Nat × Nat)) : State :=
  let s := tHome (.pg (tTileR 5 held)) []
  { s with
    net := [(2, .pg (tTileR 5 held)), (3, .pg (tTileR 6 held))],
    slices := [(1, { Slice.init with lines := [{ tLine 0 .u .clean with pins := pins }], holds := holds, tileWait := wait })],
    secs := [(secKey 0 0x1000, 0x1234)],
    regs := { s.regs with l2cfg := cfg } } |>.modProc 5 fun p => { p with mx := { p.mx with pins := mine, queue := [{ tOp 5 with wants := [2] }] } }

/-- Room for the 15th pin and none, a line that the unit has pinned, a merge window, its group and its end, a release (R99, R100). -/
theorem test_meets_tiles :
    ((tTile 14 0 false [] [] []).item 2 = some (.pg (tTileR 5 false)) ∧ (tTileR 5 false).kind = .tile 1 0 false ∧
      ((tTile 14 0 false [] [] []).slice 1).shut = [] ∧ ((tTile 14 0 false [] [] []).slice 1).holds = [] ∧
      ((tTile 14 0 false [] [] []).core 5).host = 5 ∧ ((tTile 14 0 false [] [] []).proc 5).mx.pins = [] ∧
      ((tTile 14 0 false [] [] []).l2Find 0 0x10).map (fun l => (l.pins, l.sec 0)) = some (14, .clean)) ∧
    ((tTile 15 0 false [] [] []).l2Find 0 0x10).map (fun l => l.pins) = some 15 ∧
    (0, 0x10) ∈ ((tTile 15 0 false [] [] [(0, 0x10)]).proc 5).mx.pins ∧ fld 7 0 (tTile 0 8 false [] [] []).regs.l2cfg ≠ 0 ∧
    (((tTile 0 8 false [tGroup false [3]] [] []).slice 1).holds = [tGroup false [3]] ∧ (tTileR 6 false).core ≠ (tTileR 5 false).core ∧
      (tTile 0 8 false [tGroup false [3]] [] []).item 3 = some (.pg (tTileR 6 false))) ∧
    (((tTile 13 8 true [tGroup true [2, 3]] [] []).slice 1).holds = [tGroup true [2, 3]] ∧ 13 + 2 ≤ 15 ∧
      ((tTile 13 8 true [tGroup true [2, 3]] [] []).core 6).host = 6 ∧ ((tTile 13 8 true [tGroup true [2, 3]] [] []).proc 6).mx.pins = []) ∧
    ((tTile 13 8 false [tGroup false [2, 3]] [] []).slice 1).holds = [tGroup false [2, 3]] ∧
    ((tTile 1 0 false [] [3] [(0, 0x10)]).proc ((tTile 1 0 false [] [3] [(0, 0x10)]).core 5).host).mx.pins = (0, 0x10) :: [] := by decide

theorem test_meets_tilePath :
    ClearPath (tTile 14 0 false [] [] []) (tTileR 5 false) ∧ NoOwner { tLine 0 .u .clean with pins := 14 } 5 ∧ AskedFor (tTile 14 0 false [] [] []) tWho 2 :=
  ⟨clearPath_of (by decide) rfl (by decide) rfl ⟨rfl, rfl⟩, fun c h => (by rcases h with h | h <;> cases h),
   ⟨{ tOp 5 with wants := [2] }, by decide, rfl, by decide⟩⟩

/-- A dirty line of VMID 3 outside its mask in set 0 of slice 1, and its bucket with 2 tokens. -/
def tScrub : State :=
  { State.reset with
    slices := [(1, { Slice.init with lines := [tLine 3 .u .dirty |> fun l => { l with sec1 := .clean }], buckets := [(3, 2)] })],
    regs := { State.reset.regs with l2part := [(3, 0)], l2bw := [(3, w64 (5 + 6 * 2 ^ 16))] } }

theorem test_meets_shares :
    ((tScrub.slice 1).lines.map fun l => (homeSet l.line, l.vmid, l.way, l.sec0, l.sec1)) = [(0, 3, 0, .dirty, .clean)] ∧
    ((tScrub.slice 1).scrub + 128 - spGet 0 (tScrub.slice 1).scrubOf 3 % 128) % 128 = 0 ∧ tScrub.l2Mask 3 / 2 ^ 0 % 2 = 0 ∧
    spGet 0 tScrub.pools (1 / 512) ≤ fld 39 16 tScrub.regs.l2cfg ∧ tScrub.bwOld = [] := by decide

/-- R99: the 15th pin, the 16th waits, a line of the own unit takes no second; R100: the window and the group it collects. -/
theorem test_tile_pins :
    let t (s : State) : Option Nat × Bool × List Nat × List (List Nat) :=
      let u := nx (exec (.tileRequest 2) s)
      ((u.l2Find 0 0x10).map fun l => l.pins, (u.item 2 matches some (.pgReply _ 0)), (u.slice 1).tileWait, (u.slice 1).holds.map fun h => h.reqs)
    t (tTile 14 0 false [] [] []) = (some 15, true, [], []) ∧ (t (tTile 15 0 false [] [] [])).2 = (false, [2], []) ∧
    t (tTile 15 0 false [] [] [(0, 0x10)]) = (some 15, true, [], []) ∧ (t (tTile 0 8 false [] [] [])).2 = (false, [], [[2]]) ∧
    (t (tTile 0 8 false [tGroup false [3]] [] [])).2 = (false, [], [[3, 2]]) := by decide +kernel

/-- R100: a window's end with both requests; R99: the release; R109: the scrub; the registers. -/
theorem test_tiles :
    let m := nx (exec (.tileMergeClose 1 0x10) (tTile 13 8 false [tGroup false [2, 3]] [] []))
    let e := nx (exec (.tileRequest 2) (tTile 13 8 true [tGroup true [2, 3]] [] []))
    let r := nx (exec (.tilePinRelease 5 0x10) (tTile 1 0 false [] [3] [(0, 0x10)]))
    (m.agenda, (m.slice 1).holds) = ([.tileRequest 2], [tGroup true [2, 3]]) ∧
    ((e.l2Find 0 0x10).map (fun l => l.pins), (e.item 3 matches some (.pgReply _ 0)), (e.slice 1).holds.length) = (some 15, true, 0) ∧
    ((r.l2Find 0 0x10).map (fun l => l.pins) = some 0 ∧ r.agenda = [.tileRequest 3]) ∧ (nx (exec (.maskScrub 1) tScrub)).regs.l2stat = 1 ∧
    (nx (exec (.l2partWrite 3 0x000F000F) tScrub)).msMask 3 = 0xF ∧ (nx (exec (.l2bwWrite 4 9) tScrub)).regs.l2bw = [(3, w64 (5 + 6 * 2 ^ 16)), (4, 9)] := by
  decide +kernel

/-- A write-back of a dirty slice line with a memory-side line, and with no way open there; a write of two bytes; an upgrade; a repair wait. -/
def tBack2 (r : PgReq) (lines : List MscLine) (part : W64) : State :=
  let s := tHome (.pg r) [tLine r.vmid (.o 5) .dirty]
  { s with bases := [(0, { BaseDie.init with lines := lines })], regs := { s.regs with l2part := [(3, part)] },
           repairs := [{ seq := 0, vmid := 9, gpa := 0, hpa := 0x2000, since := 0, waiting := [2], first := none }] }

theorem test_meets_memorySide :
    ((tBack2 (tPg .writeback 0) [tMscLine] 0).l2Find 0 0x10).map (fun l => l.sec 0) = some .dirty ∧
    (tBack2 (tPg .writeback 0) [tMscLine] 0).mscFind 0 0x10 = some tMscLine ∧
    ((tBack2 (tPg .writeback 3) [] 0xFFFF).mscFind 3 0x10 = none ∧ (tBack2 (tPg .writeback 3) [] 0xFFFF).msMask 3 = 0 ∧
      ((tBack2 (tPg .writeback 3) [] 0xFFFF).l2Find 3 0x10).map (fun l => (l.sec0, l.sec1)) = some (.dirty, .absent)) ∧
    (spHas (tBack2 (tPg (.put 2 5) 0) [] 0).secs (secKey 0 0x1000) = true ∧ spHas (tBase (tPg (.put 2 5) 0) [] [] []).secs (secKey 0 0x1000) = false ∧
      0x1000 % 128 + 2 ≤ 128) ∧
    (s2Check 0 0x1000 0 true ((tBack2 (tPg .upgrade 0) [] 0).s2Find 0 0x1000) matches .ok (_, 0)) = true ∧
    (s2Check 3 0x1000 0 true ((tBase (tPg .upgrade 3) [] [tLeaf2 false false] []).s2Find 3 0x1000) matches .error _) = true ∧
    ((tBack2 (tPg (.tile 1 0 false) 0) [] 0).repairs.find? fun y => y.seq == 0).map (fun x => x.waiting) = some [2] ∧ (∀ y ∈ (tBack2 (tPg (.tile 1 0 false) 0) [] 0).repairs, y.seq ≠ 7) := by
  decide

/-- R115: the dirty sector moves to the memory side, or to memory at 0x1000; R103: the write merges; R126: the upgrade; R124: repaired and lost. -/
theorem test_memory_side :
    let b := nx (exec (.mscWriteback 2) (tBack2 (tPg .writeback 0) [tMscLine] 0))
    let m := nx (exec (.mscWriteback 2) (tBack2 (tPg .writeback 3) [] 0xFFFF))
    let p := nx (exec (.mscNonallocWrite 2) (tBack2 { tPg (.put 2 5) 0 with hpa := some 0x1000 } [] 0))
    let u := nx (exec (.s2UpgradeCheck 2) (tBase (tPg .upgrade 3) [] [tLeaf2 false false] []))
    let x (lost : Bool) : State := let s := tBack2 (tPg (.fill false) 0) [] 0; nx (if lost then exec (.psnansLost 0) s else exec (.psnansRepaired 0) s)
    ((b.mscFind 0 0x10).map (fun l => l.sec0), (b.l2Find 0 0x10).map fun l => l.sec0) = (some .dirty, some .clean) ∧ memRead m.mem 0x1000 2 = 0x1234 ∧
    p.pgRead 0 0x1000 0x1000 4 = 5 ∧ (u.slot tWho).st = .parked ∧ ((x false).poison, (x true).poison, (x true).agenda) = ([], [0x40], [.l2FillRequest 2]) := by
  decide +kernel

/-! ## Witnesses and effects: page migration, checkpoints, commits, returns -/

/-- A block value for slot 2: VMID 3, size 4 KiB, page n. -/
def tBlk (n : Nat) : W64 := w64 (2 + n * 2 ^ 12 + 3 * 2 ^ 56)

/-- The slot open for page 1 with a queued fill, its page's line pinned or not. -/
def tBlocked (pins : Nat) (drained : Bool) : State :=
  { tHome (.pg (tPg (.fill false) 3)) [{ tLine 3 .u .clean with pins := pins }] with
    blocks := [(2, { val := tBlk 1, active := true, drained := drained, queue := [(1, [2])] })] }

/-- Legal and illegal blocks, pages that may and may not drain, copies (R117 to R122). -/
theorem test_meets_pageMigration :
    (fld 7 6 (tBlk 1) = 0 ∧ fld 63 56 (tBlk 1) ≠ 0 ∧ fld 47 12 (tBlk 1) * 4096 % 0x1000 = 0 ∧ ∀ c, c < 8 → (State.reset.block c).active = false) ∧
    fld 47 12 (tBlk 1 + 0x10) * 4096 % 0x10000 ≠ 0 ∧
    (((tBlocked 1 false).block 2).active = true ∧ ((tBlocked 1 false).pageL2 ((tBlocked 1 false).block 2).val).map (fun l => l.pins) = [1]) ∧
    ((tBlocked 0 false).drainable ((tBlocked 0 false).block 2).val = true) ∧
    (((tBlocked 0 false).block 2).queue = [(1, [2])] ∧ (tBlocked 0 false).item 2 = some (.pg (tPg (.fill false) 3))) ∧
    (State.reset.copyBusy = false ∧ State.reset.ckPhase = .idle ∧ fld 2 0 (w64 (0x2000 + 1)) ≤ 4 ∧ fld 47 7 State.reset.regs.pgcsrc * 128 + 0x1000 ≤ fld 47 7 (w64 (0x2000 + 1)) * 128) ∧
    4 < fld 2 0 (5 : W64) := by decide

/-- A page copy of 4 KiB from 0 to 0x2000 in progress, with a byte and a poisoned sector. -/
def tCopyPage : State :=
  { State.reset with copyBusy := true, regs := { State.reset.regs with pgcdst := w64 (0x2000 + 1) }, mem := [(0x10, 0x77), (0x2020, 0x55)], poison := [3, 0x41] }

theorem test_meets_pageCopy : tCopyPage.copyBusy = true ∧ tCopyPage.copySrc % 128 = 0 ∧ tCopyPage.regs.pgcdst = w64 (0x2000 + 1) ∧ fld 2 0 (w64 (0x2000 + 1)) ≤ 4 := by decide

/-- R117: a block opens its slot; R119: a pinned page waits, another drains; R120: an abandon replays the queue; R122: the copy moves the bytes
and the poison of the page and no other. -/
theorem test_page_migration :
    let b := nx (exec (.pgblkBlock (tBlk 1)) State.reset)
    let c := nx (exec .pageCopyDone tCopyPage)
    let d := nx (exec (.pageDrainDone 2) (tBlocked 0 false))
    ((b.block 2).active, b.agenda.getLast?) = (true, some (.pageDrainDone 2)) ∧ (nx (exec (.pgblkBlock (tBlk 1)) (tBlocked 0 false))).agenda = [] ∧
    (nx (exec (.pageDrainDone 2) (tBlocked 1 false))).timers.length = 1 ∧ ((d.block 2).drained, (d.l2Find 3 0x10).isNone) = (true, true) ∧
    (nx (exec (.pgblkAbandon (tBlk 1)) (tBlocked 0 false))).agenda = [.l2FillRequest 2] ∧
    ([0x10, 0x2010, 0x2020].map (memGet c.mem), c.poison) = ([0x77, 0x77, 0], [3, 0x43]) := by decide +kernel

/-- A checkpoint in a phase, with every core frozen or not. -/
def tCkpt (p : CkPhase) (auto : W64) : State :=
  { State.reset with ckPhase := p, regs := { State.reset.regs with ckpt := auto }, mem := [(0x10, 0x77)], poison := [3], clk := 4000 }

/-- The phases of a checkpoint; AUTO set and clear (R128 to R130). -/
theorem test_meets_checkpoints :
    (tCkpt .idle 2).ckPhase = .idle ∧ tb 1 (tCkpt .idle 2).regs.ckpt = true ∧ tb 1 (tCkpt .idle 0).regs.ckpt = false ∧ (tCkpt .stop 1).ckPhase ≠ .idle ∧
    ((tCkpt .copy 1).ckPhase = .copy ∧ (tCkpt .seal 1).ckPhase = .seal ∧ (tCkpt .copy 1).errs = []) := by decide

/-- R128: GO starts once; R129: the header's magic half, time of 2 and DONE. -/
theorem test_checkpoints :
    let s := nx (exec .checkpointSeal (tCkpt .seal 1))
    (nx (exec .checkpointStart (tCkpt .idle 0))).agenda = [.checkpointFlush] ∧ (nx (exec .checkpointStart (tCkpt .stop 1))).agenda = [] ∧
    ((nx (exec .powerFailInput (tCkpt .idle 2))).ckPhase, (nx (exec .powerFailInput (tCkpt .idle 0))).ckPhase) = (.stop, .idle) ∧
    (memRead s.mem 0x010000000000 2, memRead s.mem 0x010000000008 8, fld 2 0 s.regs.ckpt) = (0x5C9E, 2, 4) := by decide +kernel

/-- A store of slot 0 of LPN 5 of two bytes to 0x4000, and its chunk. -/
def tStore : Store := { paged := false, space := 5, addr := 0x4000, size := 2, val := 0xBEEF, pc := 0x5000, la := w64 (winAddr 5 0x4000), priv := 0, bno := 0 }

/-- A chunk that wrote a line. -/
def tChunk (ws : List Line) (st : List Store) (touch : List Touch) : Chunk :=
  { start := { tSlot.arch with pc := 0x4800 }, count := 1, reads := [], writes := ws, touch := touch, stores := st, pushes := [], pops := [], ended := true,
    endId := 0, last := false }

/-- The thread with that chunk at a stage of its commit, a reader of the line in slot 1, and what domain 8197 holds. -/
def tCommit (c : Chunk) (st : CommitSt) (held : List Held) : State :=
  let r : Slot := { tSlot with chunk := some { tChunk [] [] [] with reads := [.loc 5 0x40], ended := false } }
  let t : Slot := { tSlot with commit := some { chunk := c, st := st, owns := [], pinWait := none, begun := false } }
  { tAt tSlot with procs := [(5, { Proc.init 5 with slots := [(0, t), (1, r)] })], doms := [(8197, { held := held, queue := [] })] }

/-- The store's chunk. -/
def tWriter : Chunk := tChunk [.loc 5 0x40] [tStore] []

/-- A conflicting commit. -/
def tOther : Held := { who := { lpn := 5, slot := 7 }, reads := [.loc 5 0x40], writes := [], solo := false }

/-- Chunks that wait with and without lines, that acquire a free and a held domain, that are refused, and that apply (R140 to R143). -/
theorem test_meets_commits :
    ((tCommit tWriter .waiting []).domsOf (tWriter.reads ++ tWriter.writes) = 8197 :: [] ∧ (tSlot.arch.landing = [] ∧ tSlot.atomics = [])) ∧
    ((tChunk [] [] []).reads = [] ∧ (tChunk [] [] []).writes = [] ∧ (tChunk [] [] []).pushes = [] ∧ (tChunk [] [] []).pops = []) ∧
    ((tCommit tWriter (.acquiring [8197]) []).lineRefused tWho (.loc 5 0x40) = false ∧ (tCommit tWriter (.acquiring [8197]) []).domOf (.loc 5 0x40) = 8197 ∧
      ((tCommit tWriter (.acquiring [8197]) []).dom 8197).held ++ ((tCommit tWriter (.acquiring [8197]) []).dom 8197).queue = []) ∧
    (((tCommit tWriter (.acquiring [8197]) [tOther]).dom 8197).held = [tOther] ∧ tOther.who ≠ tWho ∧ Line.loc 5 0x40 ∈ tOther.reads) ∧
    (let s : State := (tCommit (tChunk [.loc 6 0x40] [] [{ line := .loc 6 0x40, bno := 3, la := 0, seg := 1 }]) (.acquiring [8198]) []).modProc 5
       fun p => { p with coretag := 0x30001 }
     jobCheck (s.tagOf tWho) (s.proc 6) = false ∧ s.domOf (.loc 6 0x40) = 8198 ∧ 6 ≠ 5) ∧
    ((tCommit tWriter (.applying [8197]) []).slot tWho).chunk = none := by decide

theorem test_meets_oneStore : OneStore (tCommit tWriter (.applying [8197]) []) tWriter tStore := by
  refine ⟨rfl, rfl, rfl, .inr (.inl rfl), by decide, by decide, by decide, rfl, rfl⟩

/-- R140: the domain is acquired, the commit queued behind a conflicting one; R142: the store's bytes stand in memory and the line's reader is
squashed to its start; R31: a refused line restores the registers. -/
theorem test_commits :
    let a := nx (exec (.domainAcquire 8197 5 0) (tCommit tWriter (.acquiring [8197]) []))
    let q := nx (exec (.domainAcquire 8197 5 0) (tCommit tWriter (.acquiring [8197]) [tOther]))
    let d := nx (exec (.domainApply 8197 5 0) (tCommit tWriter (.applying [8197]) []))
    let f := nx (exec (.domainAcquire 8198 5 0) ((tCommit (tChunk [.loc 6 0x40] [] [{ line := .loc 6 0x40, bno := 3, la := 0, seg := 1 }]) (.acquiring [8198]) []).modProc
      5 fun p => { p with coretag := 0x30001 }))
    (nx (exec (.chunkCommit 5 0) (tCommit tWriter .waiting []))).agenda = [.domainAcquire 8197 5 0] ∧ a.agenda = [.domainApply 8197 5 0] ∧
    (q.agenda, (q.dom 8197).queue.map fun h => h.who) = ([], [tWho]) ∧ (d.locRead 5 2 0x4000 2, (d.slot tWho).commit) = (0xBEEF, none) ∧
    ((d.slot { lpn := 5, slot := 1 }).chunk, (d.slot { lpn := 5, slot := 1 }).arch.pc) = (none, 0x4800) ∧
    ((f.slot tWho).arch.pc, (f.slot tWho).cut.map fun c => c.1) = (0x4800, some 3) := by decide +kernel

/-- A chunk that wrote the paged line 0x10 while it is pinned (R153). -/
def tPinned (pinWait : Option Nat) (clk : Nat) : State :=
  let t : Slot := { tSlot with commit := some { chunk := tChunk [.paged 0 0x10] [] [], st := .applying [0], owns := [], pinWait := pinWait, begun := false } }
  { tHome (.pg (tPg (.tile 1 0 false) 0)) [{ tLine 0 .u .clean with pins := 1 }] with
    clk := clk, procs := [(5, { Proc.init 5 with slots := [(0, t)] })] }

theorem test_meets_pins :
    ((tPinned none 0).l2Find 0 0x10).map (fun l => l.pins) = some 1 ∧
    ((tPinned (some 4) 4100).slot tWho).commit.map (fun c => (c.chunk.writes, c.pinWait)) = some ([.paged 0 0x10], some 4) ∧
    4 + 4096 ≤ (tPinned (some 4) 4100).clk ∧ (tPinned (some 4) 4099).clk < 4 + 4096 := by decide

/-- R153: it waits, and after its 4,096 cycles the line is shut. -/
theorem test_pins :
    (nx (exec (.domainApply 0 5 0) (tPinned none 0))).timers.map (fun t => t.left) = [4096] ∧
    ((nx (exec (.pinWaitLimit 5 0) (tPinned (some 4) 4100))).slice 1).shut = [(0, 0x10)] ∧
    ((nx (exec (.pinWaitLimit 5 0) (tPinned (some 4) 4099))).slice 1).shut = [] := by decide +kernel

/-- A request of LPN 7 at LPN 5's word 0x4008, which holds 0x80, in flight as number 2. -/
def tAsk (op : WinOp) (tag : BitVec 24) (bad : List Nat) : State :=
  { tLoc 0 0 0 with net := [(2, .win { lpn := 7, slot := 0 } tag 5 op)], badWords := bad, nextId := 3 }

/-- Requests that pass the job check and one that does not, to a word that is whole and to a poisoned one (R31, R32). -/
theorem test_meets_remoteRequests :
    PlainWord (tAsk (.load 0x4008 8 false 0 0 true) 0 []) 5 (0x4008 / 8 * 8) ∧
    (jobCheck 0x010007 ((tAsk (.load 0x4008 8 false 0 0 true) 0x010007 []).proc 5) = false ∧ jobCheck 0 ((tAsk (.load 0x4008 8 false 0 0 true) 0 []).proc 5) = true) ∧
    ((tAsk (.load 0x4008 8 false 0 0 true) 0 []).locBad 5 (tagPriv 0) 0x4008 8 = false ∧
      (tAsk (.load 0x4008 8 false 0 0 true) 0 [winAddr 5 0x4008]).locBad 5 (tagPriv 0) 0x4008 8 = true ∧ (tAsk (.sync .ldsync 0x4008 0) 0 []).isFull 5 2 0x4008 = true) :=
  ⟨⟨by decide, by decide, by decide, by decide⟩, by decide, by decide⟩

/-- R31: a refusal; R78: the value 0x80 read, with the sign of a byte; R91: AFAA; R66: LDSYNC; R32: POISON. -/
theorem test_remote_requests :
    let r (op : WinOp) (tag : BitVec 24) (bad : List Nat) : State := nx (exec (.remoteRequest 2) (tAsk op tag bad))
    let reply (t : State) : Option Res := t.net.findSome? fun e => match e.2 with
      | .reply _ x => some x
      | _ => none
    reply (r (.load 0x4008 8 false 0 0 true) 0x010007 []) = some .refused ∧ reply (r (.load 0x4008 8 false 0 0 true) 0 []) = some (.value 0x80) ∧
    reply (r (.load 0x4008 1 true 0 0 true) 0 []) = some (.value 0xFFFFFFFFFFFFFF80) ∧
    (let t := r (.atomic 0 4 true 0x4008 5 0) 0 []
     (reply t, t.locRead 5 2 0x4008 4) = (some (.value 0x80), 0x85)) ∧
    (let t := r (.sync .ldsync 0x4008 0) 0 []
     (reply t, t.isFull 5 2 0x4008) = (some (.value 0x80), false)) ∧
    reply (r (.load 0x4008 8 false 0 0 true) 0 [winAddr 5 0x4008]) = some (.trap 6) := by decide +kernel

/-- A thread with one landing entry, 2, and an item for it. -/
def tLands (i : Item) : State :=
  let e : Landing := { id := 2, dst := .g 4, closeAt := 3, res := .pending, pc := 0x5000, bno := 0, addr := 0x99, seg := 3, sync := false }
  { tAt { tSlot with arch := { tSlot.arch with landing := [e] } } with net := [(2, i)], nextId := 3 }

theorem test_meets_results :
    Awaits (tLands (.reply tWho .refused)) tWho 2 { id := 2, dst := .g 4, closeAt := 3, res := .pending, pc := 0x5000, bno := 0, addr := 0x99, seg := 3, sync := false } ∧
    (tLands (.device tWho 0xF80000000010 4 none true)).item 2 = some (.device tWho 0xF80000000010 4 none true) ∧
    (tLands (.device tWho 0xF00000003000 4 (some 9) false)).item 2 = some (.device tWho 0xF00000003000 4 (some 9) false) ∧
    (0xF80000000000 ≤ 0xF80000000010 ∧ 0xF00000000000 ≤ 0xF00000003000 ∧ 0xF00000003000 < 0xF00010000000 ∧ 0xF00000003000 % 4096 = 0) :=
  ⟨⟨by decide, by decide, by decide, by decide⟩, by decide, by decide, by decide⟩

/-- A busy answer that finds its withdrawal on its way, and one that does not; an atomic's answers; a doorbell of the host with an earlier write
and without; a read of another address (R68, R228, R377, R462). -/
theorem test_meets_answersBack :
    (let s : State := tLands (.reply tWho (.busy 0 6 (.engRead 0 8)))
     s.withdrawn 2 = false ∧ ({ s with net := s.net ++ [(3, .win tWho 0 6 (.withdraw 2))] } : State).withdrawn 2 = true) ∧
    (tLands (.pgReply (tPg (.atomic 0 8 false 1 0) 0) 5)).item 2 = some (.pgReply (tPg (.atomic 0 8 false 1 0) 0) 5) ∧
    (let h : Who := { lpn := 5, slot := 17 }
     let s : State := tLands (.device h 0xF00000003000 4 (some 9) false)
     h.slot = 17 ∧ s.hostBefore 0 2 = false ∧ ({ s with net := (1, .device h 0xF00000004000 4 (some 9) false) :: s.net } : State).hostBefore 0 2 = true) ∧
    0xF00000003004 % 4096 = 4 ∧ 0xF00000003008 % 4096 ≠ 4 := by decide

/-- R78, R32: values, traps and refusals wait in the entry; R68: a busy answer waits 64 cycles; R463: the host's answer and its silence; R377: a
doorbell of queue 3. -/
theorem test_results :
    let l (t : State) : List Landed := (t.slot tWho).arch.landing.map fun e => e.res
    let rr (r : Res) : State := nx (exec (.remoteReply 2) (tLands (.reply tWho r)))
    let hw (ok : Bool) : State := nx (exec (.hostWindowCompletion 2 ok 0x80000000) (tLands (.device tWho 0xF80000000010 4 none true)))
    l (rr (.value 7)) = [.value 7] ∧ l (rr (.trap 7)) = [.trap 7 0 0 0x99] ∧ l (nx (exec (.refusalArrival 2) (tLands (.reply tWho .refused)))) = [.trap 3 3 5 0x99] ∧
    (rr (.busy 0 6 (.engRead 0 8))).timers.map (fun t => (t.left, t.ev)) = [(64, .busyReissue 5 0)] ∧ l (hw true) = [.value 0xFFFFFFFF80000000] ∧
    l (hw false) = [.value 0xFFFFFFFFFFFFFFFF] ∧
    (let s : State := { tLands (.device tWho 0xF00000003000 4 (some 9) false) with dqs := [(7, { DQ.init with ptr := w64 (2 ^ 48 + 3 * 2 ^ 32 + 5) })] }
     let t := nx (exec (.landingResult 2) s)
     (fld 31 16 (t.dq 7).ptr, fld 15 0 (t.dq 7).ptr, t.agenda) = (9, 5, [.depReread 7])) ∧
    (nx (exec (.landingResult 2) (tLands (.device tWho 0xF80000000010 4 none true)))).outbox = [.device tWho 0xF80000000010 4 none true] := by
  decide +kernel

/-! ## Witnesses and effects: the issue of a bundle, timing, pre-emption -/

/-- Core 5 at its position of slot 0, with a thread of slot 0 at 0x5000 whose bundle there is d. -/
def tIssue (d : W64) : State := { put (tAt tSlot) 5 0x5000 d with turn := 5 }

theorem test_meets_issue :
    ReadyToIssue (tIssue 0) tWho ∧ (tIssue 0).quiet 5 = false ∧ (tIssue 0).blanked 5 = false ∧ (tIssue 0).able tWho = true ∧
    ((tIssue 0x003A09800A29888F).dwordAtPc tWho = 0x003A09800A29888F ∧ (decodeBundle 0x003A09800A29888F).isSome = true ∧ (decodeBundle 0xFFFFFFFFFFFFFFFF) = none) :=
  ⟨(by refine ⟨(by constructor <;> decide +kernel), ?_, ?_, ?_, ?_, ?_, ?_, ?_, ?_, ?_⟩ <;> decide +kernel),
   by decide +kernel, by decide +kernel, by decide +kernel, by decide +kernel⟩

/-- A machine that goes on, with an event due, with none, and after its last core (R160; log 2). -/
theorem test_meets_steps :
    (tIssue 0).Live ∧ ({ tIssue 0 with agenda := [.thaw 5] } : State).agenda = .thaw 5 :: [] ∧ Ev.Is (.thaw 5) (.thaw 5) ∧ (tIssue 0).agenda = [] ∧
    ((tIssue 0).liveCores.find? fun c => (tIssue 0).turn ≤ c && !((tIssue 0).core c).gated) = some 5 ∧
    (∀ c ∈ (tIssue 0).liveCores, c < ({ tIssue 0 with turn := 8193 } : State).turn) :=
  ⟨(by decide +kernel : (tIssue 0).stopped = false), rfl, rfl, by decide +kernel, by decide +kernel, by decide +kernel⟩

/-- R178, R181: the bundle ADDI g5, g5, 3 beside NOP runs and the PC goes on; a dword of ones takes ILLOP with itself in TADDR. -/
theorem test_issue :
    let w : W32 := (Instr.addi (bi 5 5 false 3 0)).encB
    let r := (nx (step (tIssue (w64 (w.toNat * 2 ^ 32))))).slot tWho
    let i := (nx (step (tIssue 0xFFFFFFFFFFFFFFFF))).slot tWho
    (r.arch.rd 5, r.arch.pc) = (3, 0x5008) ∧ (i.regs.tcause, i.regs.taddr, i.st) = (1, 0xFFFFFFFFFFFFFFFF, .halted) := by decide +kernel

/-- A finished bundle that transfers, one that goes on, and one with a chunk (R218). -/
theorem test_meets_bundleEnd :
    let v : State := { tAt { tSlot with chunk := some (tChunk [] [] []) } with taken := true, npc := 0x6000 }
    v.leaving = none ∧ v.me.due = [] ∧ v.me.ending = none ∧ v.taken = true ∧ v.alone = false ∧ v.bpops = [] ∧ ((tAt tSlot).me.arch.endChecks (tAt tSlot).me.arch.pc).2 = none ∧
    v.me.chunk.map (fun c => (c.count, c.last, c.pushes, c.pops)) = some (1, false, [], []) := by decide

/-- R218: the transfer's target and the next bundle. -/
theorem test_bundle_end :
    let pc (s : State) : BitVec 20 := (s.finish true false false tSlot.arch).me.arch.pc
    pc { tAt tSlot with taken := true, npc := 0x6000 } = 0x6000 ∧ pc (tAt tSlot) = 0x5008 := by decide +kernel

/-- Core 5 at a cycle, with a starting slot, an arrival, an item in its egress latch; AUTO clear. -/
def tTiming (cycle : Nat) (slots : List (Nat × Slot)) (arr : List Carry) : State :=
  { State.reset with
    cur := tWho, procs := [(5, { Proc.init 5 with slots := slots, arrq := arr, taskcfg := 0 })], net := [(2, .win tWho 0 5 (.engRead 0x4000 8))],
    cores := [(5, { Core.init 5 with cycle := cycle, egress := [{ due := 16, id := 2 }] })] }

/-- Cycles that are and are not rotation boundaries, a starting slot, an arrival, the latch before its due cycle and at it, replays (R159, R333). -/
theorem test_meets_coreTiming :
    ((tTiming 17 [] []).core 5).cycle % 16 ≠ 0 ∧
    (((tTiming 16 [(0, { tSlot with st := .starting })] []).core 5).cycle % 16 = 0 ∧ ((tTiming 16 [] []).core 5).frozen = false ∧ ((tTiming 16 [] []).core 5).gated = false ∧
      ((tTiming 16 [] []).proc 5).alarm = false ∧ (tTiming 16 [] []).ckPhase = .idle ∧ tb 0 ((tTiming 16 [] []).proc 5).taskcfg = false) ∧
    ((tTiming 16 [] [tCarry .migr 0 0]).quiet 5 = false ∧ ((tTiming 16 [] [tCarry .migr 0 0]).proc 5).usable true = some 0) ∧
    (((tTiming 16 [] []).core 5).egress.map (fun e => (e.due, e.id)) = [(16, 2)] ∧ (tTiming 16 [] []).item 2 = some (.win tWho 0 5 (.engRead 0x4000 8)) ∧
      16 ≤ ((tTiming 16 [] []).core 5).cycle ∧ ((tTiming 15 [] []).core 5).cycle < 16) ∧
    (((tAt tSlot).slot tWho).st = .ready ∧ ((tAt tSlot).slot tWho).replays < 2 ∧ 2 ≤ ((tAt { tSlot with replays := 2 }).slot tWho).replays ∧
      ((tAt (tWaits .sleep none)).slot tWho).st ≠ .ready) := by decide

/-- R159: a starting slot is ready, an arrival starts in slot 0; R333: the item leaves, the third replay raises DIV to 3. -/
theorem test_core_timing :
    let b := nx (exec (.rotationBoundary 5) (tTiming 16 [(0, { tSlot with st := .starting })] []))
    let a := nx (exec (.rotationBoundary 5) (tTiming 16 [] [tCarry .migr 0 0]))
    let e (n : Nat) : List Ev := (nx (exec (.egressLatchRelease 5) (tTiming n [] []))).agenda
    let r := nx (exec (.timingReplay 5 0) (tAt { tSlot with replays := 2 }))
    (b.slot tWho).st = .ready ∧ ((a.slot tWho).st, (a.proc 5).arrq) = (.starting, []) ∧ (e 16, e 15) = ([.remoteRequest 2], []) ∧
    ((r.core 5).coreclk, (r.slot tWho).replays) = (0x103, 0) := by decide +kernel

/-- A record of level 1 and slots 0 and 1 with priority p, of which slot 1 has run longer and slot 2 is free. -/
def tPreempt (p : BitVec 2) (save : Option Nat) (st : SlotSt) : State :=
  let t (run : Nat) : Slot := { tSlot with st := st, pri := p, regs := { tSlot.regs with quantum := w64 (100 + run * 2 ^ 32) } }
  { State.reset with
    cur := tWho, procs := [(5, { Proc.init 5 with slots := [(0, t 100), (1, t 200)], ready := [tReady 1 none] })],
    cores := [(5, { Core.init 5 with save := save })] }

theorem test_meets_preempt :
    (((tPreempt 1 none .ready).core 5).save = none ∧ ((tPreempt 1 none .ready).core 5).frozen = false ∧ ((tPreempt 1 none .ready).proc 5).ready = [tReady 1 none]) ∧
    IsCandidate ((tPreempt 1 none .ready).proc 5) (tReady 1 none) 1 ∧ (tPreempt 1 none .ready).saveLater { lpn := 5, slot := 1 } = false ∧
    (((tPreempt 1 (some 1) .saving).core 5).save = some 1 ∧ (tPreempt 1 (some 1) .saving).inSlice { lpn := 5, slot := 1 } = false) :=
  ⟨by decide, ⟨by decide, by decide, by decide, by decide, by decide, 2, by decide⟩, by decide, by decide⟩

theorem test_meets_save : ((tPreempt 1 (some 1) .saving).slot { lpn := 5, slot := 1 }).Quiet := quiet_of _ rfl rfl rfl rfl (fun h => nomatch h)

/-- Slots that Lomter stops and restarts (R159). -/
theorem test_meets_stops :
    ((tAt tSlot).slot tWho).chunk = none ∧ ((tAt tSlot).slot tWho).st = .ready ∧ ((tAt { tSlot with st := .halted }).slot tWho).st = .halted ∧
    ((tAt { tSlot with st := .halted, park := some 3 }).slot tWho).park.isSome = true := by decide

/-- R394: slot 1, the longest running, is saved, and none of a higher priority; R159: stops and restarts. -/
theorem test_preemption :
    let st (t : State) : SlotSt := (t.slot tWho).st
    ((nx (exec (.preemptSelect 5) (tPreempt 1 none .ready))).core 5).save = some 1 ∧ ((nx (exec (.preemptSelect 5) (tPreempt 0 none .ready))).core 5).save = none ∧
    st (nx (exec (.stopByLomter 5 0) (tAt tSlot))) = .halted ∧ st (nx (exec (.slotRestart 5 0 false) (tAt { tSlot with st := .halted }))) = .ready ∧
    st (nx (exec (.slotRestart 5 0 true) (tAt { tSlot with st := .halted }))) = .absent ∧
    st (nx (exec (.slotRestart 5 0 false) (tAt { tSlot with st := .halted, park := some 3 }))) = .ready := by decide +kernel

/-! ## Witnesses and effects: the dispenser, launches, host and board, alarms, reset -/

/-- The bytes of dwords at rising addresses. -/
def cells (l : List (Nat × W64)) : List Host.Cell :=
  l.flatMap fun e => ((List.range 8).map fun i => (e.1 + i, byteOf e.2 i)).filter fun c => c.2 != 0

/-- Memory with those dwords after what it lists. -/
def inMem (s : State) (l : List (Nat × W64)) : State := { s with mem := s.mem ++ cells l }

/-- Page tables at 0x5000 to 0x9000 that lead 0x1000 to 0xA000, with other dwords above them (R37). -/
def tTables (l : List (Nat × W64)) : State :=
  inMem { State.reset with
          mem := [(0x5000, 3), (0x5001, 0x60), (0x6000, 3), (0x6001, 0x70), (0x7000, 3), (0x7001, 0x80), (0x8000, 3), (0x8001, 0x90), (0x9008, 0x19), (0x9009, 0xA0)] } l

/-- Slot 3 maps queue 17; queue 18 is unmapped, its summary bit set or not, its tail word 0x1234; DQSEL is 3. -/
def tDoor (sum : W64) : State :=
  let s := inMem State.reset [(0x30000, sum), (0x32020, 0x12340000)]
  { s with regs := { s.regs with dbsum := 0x30000, dqsel := 3, vfmap := [(0, 0x100)] }, dqs := [(3, { DQ.init with ptr := w64 (2 + 17 * 2 ^ 32 + 2 ^ 48) })] }

theorem test_meets_doorbells :
    ((tDoor 0).mapped (17 : BitVec 16).toNat = some 3 ∧ (tDoor 0).mapped (18 : BitVec 16).toNat = none) ∧ (tDoor 0).dbsum = 0x30000 ∧
    (tb 48 (w64 (18 * 2 ^ 32 + 2 ^ 48)) = true ∧ fld 47 32 (w64 (18 * 2 ^ 32 + 2 ^ 48)) = (18 : BitVec 16).toNat ∧ fld 9 0 (tDoor 0).regs.dqsel = 3) ∧
    ((tDoor 0).vfOn 17 = true ∧ State.reset.vfOn 17 = false ∧ (tDoor 0).hostBefore 0 0 = false ∧
      ({ tDoor 0 with net := [(0, .device { lpn := 0x80000, slot := 17 } 0xF00000003000 4 (some 9) false)], nextId := 1 } : State).hostBefore 0 1 = true) ∧
    ([0x30002, 0x32024].map fun a => (tDoor 0).secBad 0 a a) = [false, false] ∧
    ((memRead (tDoor 0x40000).mem (0x30000 + 18 / 8) 1).testBit (18 % 8) = true ∧ (memRead (tDoor 0).mem (0x30000 + 18 / 8) 1).testBit (18 % 8) = false) := by
  decide +kernel

theorem test_meets_nothingCached : NothingCached (tDoor 0) ∧ NothingCached (tTables []) := ⟨⟨rfl, fun _ h => nomatch h⟩, ⟨rfl, fun _ h => nomatch h⟩⟩

/-- R377: the mapped slot's TAIL; the tail word, bit 2 of byte 2 and the notice of the unmapped queue; HEAD and all ones; TAIL loaded at the mapping. -/
theorem test_doorbells :
    let w := nx (exec (.doorbellWrite 18 9) (tDoor 0))
    let m := nx (exec (.dqptrWrite (w64 (18 * 2 ^ 32 + 2 ^ 48))) (tDoor 0x40000))
    let h (u : BitVec 16) : List Item := (nx (exec (.doorbellHeadRead u) (tDoor 0))).outbox
    ((nx (exec (.doorbellWrite 17 9) (tDoor 0))).dq 3).ptr = w64 (2 + 9 * 2 ^ 16 + 17 * 2 ^ 32 + 2 ^ 48) ∧
    (memRead w.mem 0x32024 2, memRead w.mem 0x30002 1, w.imago.notices.length) = (9, 4, 1) ∧
    h 17 = [.reply { lpn := 0x80000, slot := 0 } (.value 2)] ∧ h 18 = [.reply { lpn := 0x80000, slot := 0 } (.value 0xFFFFFFFF)] ∧
    (fld 31 16 (m.dq 3).ptr, memRead m.mem 0x30002 1) = (memRead (tDoor 0).mem 0x32024 2, 0) := by decide +kernel

/-- A launch of one process on core 5, entry 0x8000, argument 0x77, with a status pointer. -/
def tRec (procs status : W64) : List W64 := [0x8000, 0x77, 5 * 64 + procs * 0x100000000, 0, 0x44, 0x55, 0, 0, status, 0, 0, 0, 0, 0, 0, 0]

/-- Slot 3: VMID 0, job 7, a ring of two records at 0x20000, its head filled; launches or tasks. -/
def tQ (launches : Bool) (dep : Option Bool) (stuck : Bool) : DQ :=
  { DQ.init with cfg := w64 (7 * 2 ^ 8 + 3 * 2 ^ 24 + (if launches then 2 ^ 26 else 0) + 2 ^ 28 + 2 ^ 32), base := 0x20000, root := 0x5001, ptr := 0x10000,
                 dep := dep, stuck := stuck }

/-- The dispenser with that slot and a record in its ring; LPN 5 has a placement entry and, for tasks, job 7 with n records. -/
def tDisp (q : DQ) (r : List W64) (n : Nat) : State :=
  { tTables ((List.range r.length).map fun i => (0x20000 + 8 * i, r.getD i 0)) with
    dqs := [(3, q)], place := [(5, { Place.init with core := 5 })], launches := if q.launches then [] else [{ tLaunch with job := 7 }],
    procs := [(5, { Proc.init 5 with coretag := 7, ready := if q.launches then [] else List.replicate n (tReady 1 none) })] }

/-- A task record of LID 9 in level 1 for LPN 5. -/
def tTaskRec : List W64 := [w64 (0x8000 + 2 ^ 20 + 9 * 2 ^ 24 + 5 * 2 ^ 40), 1, 2, 3, 4, 5, 6, 0]

/-- The task's core frozen by an alarm. -/
def tFrozenTask : State := { tDisp (tQ false none false) tTaskRec 7 with cores := [(5, { Core.init 5 with frzAlarm := true })] }

theorem test_meets_onlyHead :
    OnlyHead tFrozenTask 3 (tQ false none false) tTaskRec ∧
    OnlyHead (tDisp (tQ true (some true) false) (tRec 1 0) 0) 3 (tQ true (some true) false) (tRec 1 0) ∧
    OnlyHead (tDisp (tQ true (some true) false) (tRec 2 0x1000) 0) 3 (tQ true (some true) false) (tRec 2 0x1000) ∧
    OnlyHead (tDisp (tQ false none false) tTaskRec 7) 3 (tQ false none false) tTaskRec ∧
    OnlyHead (tDisp (tQ true none false) (tRec 1 0) 0) 3 (tQ true none false) (tRec 1 0) :=
  ⟨⟨rfl, by decide, by decide, by decide, by decide +kernel, rfl⟩, ⟨rfl, by decide, by decide, by decide, by decide +kernel, rfl⟩, ⟨rfl, by decide, by decide, by decide, by decide +kernel, rfl⟩,
   ⟨rfl, by decide, by decide, by decide, by decide +kernel, rfl⟩, ⟨rfl, by decide, by decide, by decide, by decide +kernel, rfl⟩⟩

/-- Refused and good launches, their pointers, tasks that may be placed, with room in their level and without, and ones that may not (R371 to R380). -/
theorem test_meets_dispatching :
    (let s := tDisp (tQ true (some true) false) (tRec 2 0x1000) 0
     s.recRefused (tRec 2 0x1000) 7 0 0x5001 false = true ∧ (tRec 2 0x1000).getD 8 0 ≠ 0 ∧ s.dispWritable 0x5001 0 0x1000 = some (0xA000, 0xA000) ∧
      (tRec 2 0x1000).getD 6 0 = 0 ∧ (tRec 2 0x1000).getD 7 0 = 0) ∧
    (let s := tDisp (tQ true (some true) false) (tRec 1 0) 0
     s.recRefused (tRec 1 0) 7 0 0x5001 false = false ∧ s.recHere (tRec 1 0) = true ∧ s.recCores (tRec 1 0) = some [5] ∧ (s.core 5).latch = none ∧
      s.withheldAt 5 0 = false ∧ s.launches = []) ∧
    ((tQ true (some true) false).job = 7 ∧ (tQ true (some true) false).vmid = 0 ∧ tb 26 (tQ true none false).cfg = true ∧ (tQ true none false).dep ≠ some true) ∧
    (let x : TaskRec := Vector.ofFn fun i : Fin 8 => tTaskRec.getD i.val 0
     (tDisp (tQ false none false) tTaskRec 7).taskPlaceable (tQ false none false) x = true ∧
      (tDisp (tQ false none false) tTaskRec 7).withheldAt ((tDisp (tQ false none false) tTaskRec 7).hostOf 5) 0 = false ∧
      ({ tDisp (tQ false none false) tTaskRec 7 with launches := [] } : State).taskPlaceable (tQ false none false) x = false) ∧
    (let x : TaskRec := Vector.ofFn fun i : Fin 8 => tTaskRec.getD i.val 0
     ((tDisp (tQ false none false) tTaskRec 7).core 5).frozen = false ∧ tFrozenTask.taskPlaceable (tQ false none false) x = true ∧
      (tFrozenTask.core (tFrozenTask.hostOf 5)).frozen = true) ∧
    (((tDisp (tQ false none false) tTaskRec 7).proc 5).ready.length = 7 ∧ ((tDisp (tQ false none true) tTaskRec 8).proc 5).ready.length = 8) := by
  decide +kernel

/-- Records whose pointers meet no busy line of the tables, and ones that do (R49). -/
theorem test_meets_waitingPointers :
    let s := tDisp (tQ true (some true) false) (tRec 2 0x1000) 0
    let b : State := { s with slices := [(sliceOf 0x50, { Slice.init with lines := [{ (tLine 0 .u .clean) with line := 0x50, hline := 0x50, busy := some { acks := 1, req := 7 } }] })] }
    s.recWaits (tRec 2 0x1000) 0x5001 0 = false ∧ (tDisp (tQ true (some true) false) (tRec 1 0) 0).recWaits (tRec 1 0) 0x5001 0 = false ∧
    b.recWaits (tRec 2 0x1000) 0x5001 0 = true ∧ b.ptrWaits 0x5001 0 false 0x1000 = true ∧ s.ptrWaits 0x5001 0 false 0x3000 = false ∧
    s.dispRead 0x5001 0 0x3000 = none := by decide +kernel

/-- R371: the refusal's status 2; R379: the launch gets LID 0 and a wake; R380: the task joins, or waits 256 cycles; R335: it waits at a
frozen core. -/
theorem test_dispatching :
    let d (s : State) : State := nx (exec .dispatch s)
    ((d tFrozenTask).proc 5).ready.length = 7 ∧ ((d tFrozenTask).dq 3).ptr = 0x10000 ∧
    memRead (d (tDisp (tQ true (some true) false) (tRec 2 0x1000) 0)).mem 0xA000 8 = 2 + 2 ^ 63 ∧
    (d (tDisp (tQ true (some true) false) (tRec 1 0) 0)).launches.map (fun l => (l.lid, l.starting)) = [(0, 1)] ∧
    ((d (tDisp (tQ false none false) tTaskRec 7)).proc 5).ready.length = 8 ∧ (d (tDisp (tQ false none false) tTaskRec 8)).timers.map (fun x => x.left) = [256] ∧
    ((nx (exec (.depReread 3) (tDisp (tQ true none false) (tRec 1 0) 0))).dq 3).dep = some true ∧
    ((nx (exec (.taskRecordRetry 3) (tDisp (tQ false none true) tTaskRec 7))).dq 3).stuck = false := by decide +kernel

/-! ## Witnesses and effects: launches at their cores, the host and board, alarms, reset -/

/-- A wake of LID 9 of job 7 for LPN 5: record r, launch 1, tables at 0x5000. -/
def tWakeOf (lpn : Nat) (r : List W64) : Wake := { lid := 9, job := 7, vmid := 0, root := 0x5001, lpn := lpn, rcd := r, launch := 1 }

/-- A record that starts LPN 5 from an image. -/
def tImg (image : W64) : List W64 := [0x8000, 0x77, 5 * 64 + 0x100000000, image, 0x44, 0x55, 0, 0, 0, 0, 0, 0, 0, 0, 0, 0]

/-- The tables of `tTables` and, at the page of 0x1000, an image of one dword 0x99 with LMMAP 1 and TVDEF 0x6000, all of them cached. -/
def tImage (magic : Nat) : Sp (BitVec 1024) :=
  [(0xA0, 0x6003), (0xC0, 0x7003), (0xE0, 0x8003), (0x100, 0x9003), (0x120, BitVec.ofNat 1024 (0xA019 * 2 ^ 64)),
   (0x140, BitVec.ofNat 1024 (magic + 8 * 2 ^ 64 + 2 ^ 128 + 0x6000 * 2 ^ 192)), (0x141, 0), (0x142, 0x99)]

/-- The wake in flight as item 2 and in the latch of core 5, which may be frozen or gated; the launch has one core to start. -/
def tLaunching (x : Wake) (magic : Nat) (latch frozen gated : Bool) : State :=
  { State.reset with
    secs := tImage magic,    net := [(2, .wake 5 x)], nextId := 10, launches := [{ tLaunch with job := 7, counter := 0, starting := 1 }],
    cores := [(5, { Core.init 5 with latch := if latch then some x else none, frzAlarm := frozen, gated := gated })] }

theorem test_meets_wakes :
    (let s := tLaunching (tWakeOf 5 (tRec 1 0)) 0 false false true
     s.item 2 = some (.wake 5 (tWakeOf 5 (tRec 1 0))) ∧ (s.core 5).host = 5 ∧ (s.core 5).frozen = false ∧ (s.core 5).stash = [] ∧ (s.core 5).gated = true) ∧
    (let s := tLaunching (tWakeOf 5 (tRec 1 0)) 0 false true false; s.item 2 = some (.wake 5 (tWakeOf 5 (tRec 1 0))) ∧ (s.core 5).frozen = true) ∧
    (let s := tLaunching (tWakeOf 6 (tRec 1 0)) 0 false false false; s.item 2 = some (.wake 5 (tWakeOf 6 (tRec 1 0))) ∧ (s.core 5).host ≠ 6 ∧ (tRec 1 0).getD 3 0 = 0) := by
  decide

/-- How the load of an image ends. -/
def endsAs (r : Load) : Nat :=
  match r with
  | .ok l => l.length
  | .stop => 1
  | .park _ _ => 2
  | .wait => 3

/-- Latches that may start: no image, a whole image (32 + 1 + 1 + 9 dwords), one with a wrong magic word, one that is not mapped; a busy core. -/
theorem test_meets_starts :
    let s (img : W64) (magic : Nat) : State := tLaunching (tWakeOf 5 (tImg img)) magic true false false
    let e (img : W64) (magic : Nat) : Nat := endsAs ((s img magic).loadAll { (s img magic).proc 5 with coretag := w64 (7 + 0 * 65536), xroot := 0x5001 } img.toNat 0)
    ((s 0 0).core 5).latch = some (tWakeOf 5 (tImg 0)) ∧ (s 0 0).latchReady 5 = true ∧ (s 0x1000 0x9E51).latchReady 5 = true ∧ (s 0x1000 0x9E51).coreNumber 5 = 5 ∧
    e 0x1000 0x9E51 = 43 ∧ e 0x1000 0x9E50 = 1 ∧ e 0x3000 0x9E51 = 2 ∧ (tLaunching (tWakeOf 5 (tImg 0)) 0 true true false).latchReady 5 = false := by decide +kernel

/-- Cores 5 and 6 that host each other's process, the wake or the latch at core 5; a table line that is busy. -/
def tMoved (x : Wake) (latch : Bool) : State :=
  { tLaunching x 0x9E51 latch false false with
    cores := [(5, { Core.init 5 with host := 6, latch := if latch then some x else none }), (6, { Core.init 6 with host := 5 })],
    procs := [(5, { Proc.init 5 with core := 6 }), (6, { Proc.init 6 with core := 5 })],
    place := [(5, { Place.init with core := 6 }), (6, { Place.init with core := 5 })] }

/-- An image for a core that hosts another process of no job, a latch whose process has moved, an image that waits (R49, R373; log 22). -/
theorem test_meets_moves :
    (let x := tWakeOf 5 (tImg 0x1000)
     let s := tMoved x false
     s.item 2 = some (.wake 5 x) ∧ (s.proc (s.core 5).host).job = 0 ∧ (s.core 5).frozen = false ∧ s.coreNumber 5 ≠ (s.core 5).host ∧
       s.hostOf (s.coreNumber 5) ≠ 5) ∧
    (let x := tWakeOf 5 (tImg 0)
     let s := tMoved x true
     (s.core 5).latch = some x ∧ s.latchReady 5 = true ∧ (s.core 5).host ≠ x.lpn ∧ s.hostOf x.lpn = 6 ∧ (s.core 6).latch = none) ∧
    (let s := tLaunching (tWakeOf 5 (tImg 0x1000)) 0x9E51 true false false
     let b : State := { s with slices := [(sliceOf 0x50, { Slice.init with lines := [{ (tLine 0 .u .clean) with line := 0x50, hline := 0x50, busy := some { acks := 1, req := 7 } }] })] }
     b.latchReady 5 = true ∧ endsAs (b.loadAll { b.proc 5 with coretag := 7, xroot := 0x5001 } 0x1000 0) = 3) := by decide +kernel

/-- R379: the latch, CORETAG and XROOT, a gated core wakes; the wake waits, and follows. R374: slot 0 of an image-less launch. -/
theorem test_launch_wakes :
    let x := tWakeOf 5 (tRec 1 0)
    let w (s : State) : State := nx (exec (.launchWake 2) s)
    let a := w (tLaunching x 0 false false true)
    let b := nx (exec (.launchStart 5) (tLaunching (tWakeOf 5 (tImg 0)) 0 true false false))
    (a.core 5).latch = some x ∧ (a.proc 5).coretag = 7 ∧ (a.proc 5).xroot = 0x5001 ∧ a.agenda = [.coreWake 5, .launchStart 5] ∧
    ((w (tLaunching x 0 false true false)).core 5).held = [2] ∧ (w (tLaunching (tWakeOf 6 (tRec 1 0)) 0 false false false)).item 2 = some (.wake 6 (tWakeOf 6 (tRec 1 0))) ∧
    ((b.slot tWho).st, (b.slot tWho).arch.pc, (b.slot tWho).arch.rd 1, (b.slot tWho).regs.fmt, (b.slot tWho).regs.launch) = (.starting, 0x8000, 0x77, 0x44, 9) ∧
    b.launches.map (fun l => (l.counter, l.starting)) = [(1, 0)] := by decide +kernel

/-- R373: the header and the body go in and slot 0 starts; a bad header ends the launch with status 2; an unmapped image parks the load. -/
theorem test_launch_image :
    let g (img : W64) (magic : Nat) : State := nx (exec (.launchStart 5) (tLaunching (tWakeOf 5 (tImg img)) magic true false false))
    let a := g 0x1000 0x9E51
    let b := g 0x1000 0x9E50
    let c := g 0x3000 0x9E51
    ((a.proc 5).lmmap, (a.proc 5).tvdef, a.hwRead 5 0x4000, (a.slot tWho).arch.pc, (a.slot tWho).regs.trapvec) = (1, 0x6000, 0x99, 0x8000, 0x6000) ∧
    (b.launches.map (fun l => (l.st, l.starting)), (b.core 5).latch) = ([(2, 0)], none) ∧ ((c.core 5).load, c.imago.faults.length) = (some 10, 1) := by decide +kernel

/-- A launch of LID 9 that has ended, foreign or not, with a status or a graph pointer; its job counts one; the graph dword holds n. -/
def tEnded (foreign : Bool) (st graph : W64) (n : W64) : State :=
  let r : List W64 := [0x8000, 0, 0, 0, 0, 0, graph, 0, st, 0, 0, 0, 0, 0, 0, 0]
  { tTables [(0xA000, n)] with
    launches := [{ tLaunch with job := 7, root := 0x5001, counter := 0, rcd := r, st := 2, foreign := foreign }], jobs := [(7, 1)] }

theorem test_meets_launchEnds :
    (let f (b : Bool) (st graph n : W64) : Option (List W64 × Bool) :=
       ((tEnded b st graph n).launches.find? fun x => x.id == 1 && x.past).map fun l => ((List.range 3).map fun k => l.rcd.getD (6 + k) 0, l.foreign)
     f true 0 0 0 = some ([0, 0, 0], true) ∧ f false 0 0 0 = some ([0, 0, 0], false) ∧ f false 0x1000 0 0 = some ([0, 0, 0x1000], false) ∧
      f false 0 0x1000 1 = some ([0x1000, 0, 0], false)) ∧
    (tEnded false 0x1000 0 0).dispWritable 0x5001 0 0x1000 = some (0xA000, 0xA000) ∧ memRead (tEnded false 0 0x1000 1).mem 0xA000 8 = 1 ∧
    memRead (tEnded false 0 0x1000 0).mem 0xA000 8 = 0 ∧ (∃ e ∈ (tEnded false 0 0 0).jobs, e.1 % 65536 = (7 : BitVec 16).toNat ∧ e.2 ≠ 0) ∧
    (∀ e ∈ ({ tEnded false 0 0 0 with jobs := [(7, 0)] } : State).jobs, e.1 % 65536 = (7 : BitVec 16).toNat → e.2 = 0) := by decide +kernel

theorem test_meets_launchEndsQuiet : NothingCached (tEnded false 0x1000 0 0) ∧ (∀ d, ((tEnded false 0x1000 0 0).dom d).held = []) :=
  ⟨⟨rfl, fun _ h => nomatch h⟩, fun _ => rfl⟩

/-- R382: status 2, LID 9 and V; R172: the graph counter falls, or is 0 already; R466: the report; R173: the job's process is cleared. -/
theorem test_launch_ends :
    let f (b : Bool) (st graph n : W64) : State := nx (exec (.launchComplete 1) (tEnded b st graph n))
    let j := nx (exec (.jobEnd 7) { State.reset with mem := tMem, jobs := [(7, 0)], procs := [(5, { Proc.init 5 with coretag := 7, used := 1 })], place := [(5, { Place.init with core := 5 })] })
    (memRead (f false 0x1000 0 0).mem 0xA000 8, (f false 0x1000 0 0).launches, spGet 0 (f false 0x1000 0 0).jobs 7) = (2 + 9 * 2 ^ 16 + 2 ^ 63, [], 0) ∧
    (memRead (f false 0 0x1000 3).mem 0xA000 8, memRead (f false 0 0x1000 0).mem 0xA000 8, (f false 0 0x1000 0).imago.notices.length) = (2, 0, 1) ∧
    (f true 0 0 0).outbox = [.launchReport 7 0 9 2] ∧ ((j.proc 5).coretag, (j.proc 5).used, j.place) = (0, 0, []) := by decide +kernel

/-- Function 1 of tenant 3, function 2 not enabled; an item as number 2, and the tenant's line of 0x1000 with its first sector in a state. -/
def tPort (i : Item) (st : SecSt) : State :=
  { tHome i [tLine 3 .u st] with
    timers := [{ clock := .network, left := 9, ev := .routeWaitTimeout 2 }],
    regs := { State.reset.regs with vfmap := [(1, 0x103)], brxcfg := 0x4200 }, procs := [] }

/-- The host's access to the tenant's dword at an address. -/
def tBar2 (wr : Bool) (gpa : Nat) : Item :=
  .pg { tPg (.eng wr 8 0x1122) 3 with core := 0x100000, who := { lpn := 0x80000, slot := 17 }, la := 1, gpa := gpa, w1 := false, u1 := false }

/-- A message that waits for a route. -/
def tRouted : State := tPort (.msg (tMsg 1 false)) .clean

/-- Functions with and without a tenant, accesses at their slice, an earlier write of the function, links, items without a route (R461, R467). -/
theorem test_meets_hostPorts :
    (tb 8 (spGet 0 tRouted.regs.vfmap (2 % 64)) = false ∧ spGet 0 tRouted.regs.vfmap (1 % 64) = 0x103) ∧
    ((tPort (tBar2 true 0x1000) .clean).item 2 = some (tBar2 true 0x1000) ∧ (tPort (tBar2 true 0x1000) .clean).hostBefore 1 2 = false ∧
      (tPort (tBar2 true 0x1000) .clean).l2Find 3 0x10 = some (tLine 3 .u .clean) ∧ (tLine 3 .u .clean).sec 0 ≠ .absent ∧
      (tPort (tBar2 true 0x1000) .clean).lineHeld (.paged 3 0x10) none = false ∧ (tPort (tBar2 true 0x1000) .clean).secBad 3 0x1000 0x1000 = false ∧
      (tPort (tBar2 true 0x1000) .poisoned).secBad 3 0x1000 0x1000 = true ∧ 0x1000 % 8 = 0) ∧
    (let s := tPort (tBar2 true 0x1000) .clean
     ({ s with net := (1, tBar2 true 0x1000) :: s.net } : State).hostBefore 1 2 = true) ∧
    (s2Check 3 0x9000 0 true (((tPort (tBar2 true 0x9000) .clean).s2Load 3 0x9000).s2Find 3 0x9000) matches .error _) = true ∧
    (35 < 36 ∧ (0x42 : BitVec 8).toNat = fld 15 8 tRouted.regs.brxcfg) ∧
    ((2, .msg (tMsg 1 false)) ∈ tRouted.net ∧ ∃ x ∈ tRouted.timers, x.ev = .routeWaitTimeout 2) ∧ tRouted.item 2 = some (.msg (tMsg 1 false)) ∧
    (tPort (.carry (tCarry .migr 0 0)) .clean).item 2 = some (.carry (tCarry .migr 0 0)) ∧
    (tPort (.win tWho 0 6 (.engRead 0x4000 8)) .clean).item 2 = some (.win tWho 0 6 (.engRead 0x4000 8)) := by decide +kernel

/-- The path of the access is clear, and the right W of its line is known. -/
theorem test_meets_hostPath :
    (match tBar2 true 0x1000 with
      | .pg r => ClearPath (tPort (tBar2 true 0x1000) .clean) r ∧ (tPort (tBar2 true 0x1000) .clean).w2Ok r = true
      | _ => False) :=
  ⟨clearPath_of (by decide) rfl (by decide) rfl ⟨rfl, rfl⟩, by decide⟩

/-- R461: an access goes to its slice, one without a tenant is aborted; the slice reads the tenant's dword and writes it; a poisoned sector and a
page that stage two lacks. -/
theorem test_host_ports :
    let d (vf : Nat) (wr : Bool) : State := nx (exec (.bar2Access vf 0x1003 wr 0x1122) tRouted)
    let m (r : Res) : List Item := [.reply { lpn := 0x80000, slot := 0 } r]
    let e (wr : Bool) (st : SecSt) : State := let s := tPort (tBar2 wr 0x1000) st; nx (if wr then exec (.engineElementWrite 2) s else exec (.engineElementRead 2) s)
    let x := nx (exec (.s2Translate 2) (tPort (tBar2 true 0x9000) .clean))
    (d 1 false).agenda = [.engineElementRead 10] ∧ (d 1 true).item 10 = some (tBar2 true 0x1000) ∧ (d 2 false).outbox = m .refused ∧
    (e false .clean).outbox = m (.value 0x1234) ∧ ((e true .clean).outbox, (e true .clean).pgRead 3 0x1000 0x1000 8) = (m .done, 0x1122) ∧
    (e false .poisoned).outbox = m .refused ∧ (x.outbox, x.imago.faults.length) = (m .refused, 1) := by decide +kernel

/-- R465, R467: links come up and fail; R32, R467: refusals for want of a route. -/
theorem test_links :
    let up := nx (exec (.bronexLinkUp 35 0x42) tRouted)
    let r (i : Item) : Option Item := (nx (exec (.routeWaitTimeout 2) (tPort i .clean))).item 2
    (up.regs.brxup, up.outbox, up.net) = (0x800000000, [.msg (tMsg 1 false)], []) ∧ (nx (exec (.bronexLinkUp 36 0x42) tRouted)).regs.brxup = 0 ∧
    (nx (exec (.bronexLinkUp 35 0x41) tRouted)).regs.brxup = 0 ∧ (nx (exec (.bronexLinkFail 35) up)).regs.brxup = 0 ∧
    r (.msg (tMsg 1 false)) = some (.msgRefused (tMsg 1 false) 2) ∧ r (.carry (tCarry .migr 0 0)) = some (.carryRef (tCarry .migr 0 0) 5) ∧
    r (.win tWho 0 6 (.engRead 0x4000 8)) = some (.reply tWho .refused) := by decide +kernel

/-- Core 5 idle for n cycles, gated or not, perhaps with a thread. -/
def tIdle (n : Nat) (gated thread : Bool) : State :=
  { (if thread then tAt tSlot else State.reset) with cores := [(5, { Core.init 5 with idle := n, gated := gated, cycle := 7 })] }

theorem test_meets_gates :
    (((tIdle 65536 false false).core 5).gated = false ∧ 2 ^ 16 ≤ ((tIdle 65536 false false).core 5).idle ∧ (tIdle 65536 false false).gateable 5 = true) ∧
    (((tIdle 65535 false false).core 5).idle < 2 ^ 16 ∧ ((tIdle 9 true false).core 5).gated = true ∧ (tIdle 65536 false true).gateable 5 = false) ∧
    (∃ e ∈ ((tIdle 65536 false true).proc ((tIdle 65536 false true).core 5).host).slots, e.2.st ≠ .absent) ∧
    (fld 35 24 State.reset.regs.thermcfg ≤ (420 : BitVec 12).toNat ∧ (State.reset.row 0).temp.toNat < fld 35 24 State.reset.regs.thermcfg) := by decide

/-- R469, R470: the gate and the wake; R472, R473: RUN is reached at 420, and the row goes to step 7. -/
theorem test_gates :
    let g (n : Nat) : Bool := ((nx (exec (.powerGate 5) (tIdle n false false))).core 5).gated
    let r := nx (exec (.rowSensorReading 0 420 9) State.reset)
    let k := nx (exec (.thermalRunaway 0) { r with procs := [(5, { Proc.init 5 with coretag := 0x30000 })] })
    (g 65536, g 65535, ((nx (exec (.coreWake 5) (tIdle 9 true false))).core 5).cycle) = (true, false, 0) ∧
    (r.rowStep 0, r.agenda, k.agenda.getLast?) = (7, [.thermalRunaway 0], some (.chrysalisAlarm 3 [3])) := by decide +kernel

/-- R475's example: three tenants on one core of a row each, drawing 2,800 W, 3,000 W and d W; row power is over a sixteenth. -/
def tPower (d : Nat) : State :=
  let t (tier floor cap : Nat) : W64 := w64 (floor + cap * 2 ^ 16 + tier * 2 ^ 32)
  let cores (v a n : Nat) : List (Nat × Proc) := (List.range n).map fun i => (a + i, { Proc.init (a + i) with coretag := w64 (v * 65536) })
  let row (n p : Nat) : Nat × Row := (n, { Row.init with pwr := BitVec.ofNat 12 p })
  { State.reset with
    procs := cores 1 0 16 ++ cores 2 16 16 ++ cores 3 32 16, rows := [row 0 2800, row 1 3000, row 2 d],
    regs := { State.reset.regs with pwrt := [(1, t 0 1500 3000), (2, t 1 1000 4000), (3, t 1 1000 2000)] } }

/-- Tenant 2 reaches its allotment of 1,933 W; tenant 1 its 2,800 W; tenant 3 reaches its 1,466 W at 2,000 W. -/
theorem test_power_example :
    ((tPower 2000).powerGrants.filter fun g => g.2 != 0) = [(1, 1300), (2, 933), (3, 466)] ∧
    (let p := (nx (exec .powerInterval (tPower 2000))).regs.pwrt
     [1, 2, 3].map (fun v => (fld 55 40 (spGet 0 p v), tb 56 (spGet 0 p v))) = [(2800, true), (3000, true), (2000, true)]) := by decide +kernel

/-- A module whose source 0 has level n, locked or not, with a tenant 3 on core 5 and a message in its egress queue. -/
def tAlarm (n : W64) (lock : Bool) : State :=
  { State.reset with
    procs := [(5, { Proc.init 5 with coretag := 0x30007 })],
    regs := { State.reset.regs with chalcfg := 0x554 + n + if lock then 0x10000 else 0, brxup := 1 }, chrys := { State.reset.chrys with attKey := true } }

theorem test_meets_alarms :
    ([1, 2, 3].map (fun n => fld (2 * 0 + 1) (2 * 0) (tAlarm n false).regs.chalcfg) = [1, 2, 3]) ∧
    (let z (v : W64) : Bool := (List.range 6).any fun k => fld (2 * k + 1) (2 * k) v == 0
     let l (v : W64) : Bool := (List.range 6).any fun k => decide (fld (2 * k + 1) (2 * k) v < fld (2 * k + 1) (2 * k) (tAlarm 3 true).regs.chalcfg)
     (z 0x554, z 0x555, l 0x555, l 0xFFF) = (true, false, true, false)) ∧ tb 16 (tAlarm 3 true).regs.chalcfg = true ∧
    ((tAlarm 1 false).chrys.attKey = true ∧ (tAlarm 1 false).chrys.booted = false ∧ (tAlarm 1 false).chrys.failed = false) ∧
    (tAlarm 1 false).chrys.fused.toNat ≤ (0 : W64).toNat ∧ State.reset.chrys.attKey = false := by decide

/-- R335: notice, frozen tenant, zeroisation; R478: the locked levels; R476, R477: a boot and a report. -/
theorem test_alarms :
    let a (n : W64) : State := nx (exec (.chrysalisAlarm 0 [3]) (tAlarm n false))
    let c (v : W64) (lock : Bool) : State := nx (exec (.chalcfgWrite v) (tAlarm 3 lock))
    ((a 1).imago.notices.length, ((a 2).proc 5).alarm, ((a 1).proc 5).alarm, fld 31 8 (a 1).regs.challog) = (1, true, false, 1) ∧
    ((a 3).stopped, (a 3).chrys.attKey, (a 3).regs.brxup) = (true, false, 0) ∧ (step (a 3) matches .fault .moduleStopped) = true ∧
    ((c 0x555 true).agenda, (c 0x555 true).regs.chalcfg, (c 0x555 false).regs.chalcfg, (c 0xFFF true).regs.chalcfg) =
      ([.chrysalisAlarm 4 []], 0x10557, 0x555, 0x10FFF) ∧
    ((nx (exec (.attestationReport 5) (tAlarm 1 false))).chrys.report.map fun r => r.nonce) = some 5 ∧
    (nx (exec (.chrysalisBoot true 4 6) State.reset)).chrys.booted = true ∧ (nx (exec (.chrysalisBoot false 4 6) State.reset)).chrys.failed = true := by
  decide +kernel

theorem test_meets_thaw :
    let s : State := { State.reset with cores := [(5, { Core.init 5 with frzAlarm := true })] }
    ((s.core 5).held = [] ∧ (s.core 5).sweeps = 0 ∧ s.ckPhase = .idle) ∧ ((nx (exec (.thaw 5) s)).core 5).frozen = false := by decide +kernel

/-- R479, R130: a reset keeps a durable byte of LPDDR6 and drops one of HBM4E. -/
theorem test_reset_keeps :
    let t := nx (exec .reset { tAt tSlot with mem := [(0x2000, 7), (0x010000000000, 8)] })
    (memRead t.mem 0x2000 1, memRead t.mem 0x010000000000 1, (t.slot tWho).st) = (0, 8, .absent) := by decide +kernel

/-- The memory of the reset state is in its form, and a step keeps it there. -/
theorem test_meets_memoryKept : State.reset.Inv ∧ step State.reset = .next State.reset.cycle := ⟨(by decide : Memory.wf State.reset.mem = true), rfl⟩

/-- Instructions and pairs that the round trip is about. -/
theorem test_meets_encodings :
    (Instr.add (br 31 31 true 31 true 7 0)).wf = true ∧ (Instr.add (br 31 31 true 31 true 7 0)).isWordB = true ∧
    decodeWords 0x0A29888F 0x003A0980 ≠ none := by decide +kernel

end Sys2Proof.Tests
end

section
/-!
SUPPORT. Little-endian numbers and the extension of a loaded value: which bytes and which bits they have.
-/

namespace Sys2Proof.Machine

/-! ## Bytes of a number (R2) -/

/-- The n bytes that `b` gives from address a on, as a little-endian number. -/
def leBytes (b : Nat → Byte) (a : Nat) : Nat → Nat
  | 0 => 0
  | n + 1 => (b a).toNat + 256 * leBytes b (a + 1) n

/-- The lowest byte of a little-endian number is the first one, and the others stand above it. -/
theorem byte_cons (x : Byte) (m : Nat) : BitVec.ofNat 8 (x.toNat + 256 * m) = x ∧ (x.toNat + 256 * m) / 256 = m := by
  have hx : x.toNat < 256 := x.isLt
  refine ⟨BitVec.eq_of_toNat_eq ?_, by omega⟩
  rw [BitVec.toNat_ofNat]
  omega

/-- Byte i of a little-endian number is the byte at address a + i. -/
theorem ofNat_leBytes_div (b : Nat → Byte) (a n i : Nat) (h : i < n) :
    BitVec.ofNat 8 (leBytes b a n / 2 ^ (8 * i)) = b (a + i) := by
  induction n generalizing a i with
  | zero => omega
  | succ n ih =>
    obtain ⟨low, rest⟩ := byte_cons (b a) (leBytes b (a + 1) n)
    cases i with
    | zero => simpa [leBytes] using low
    | succ i =>
      rw [show 2 ^ (8 * (i + 1)) = 256 * 2 ^ (8 * i) by rw [Nat.mul_add, Nat.pow_add]; omega, ← Nat.div_div_eq_div_mul]
      simp only [leBytes]
      rw [rest, ih (a + 1) i (by omega)]
      congr 1
      omega

/-- Byte functions that agree on n bytes give the same number. -/
theorem leBytes_congr {b c : Nat → Byte} {a n : Nat} (h : ∀ i, i < n → b (a + i) = c (a + i)) : leBytes b a n = leBytes c a n := by
  induction n generalizing a with
  | zero => rfl
  | succ n ih =>
    have first : b a = c a := h 0 (by omega)
    have rest : leBytes b (a + 1) n = leBytes c (a + 1) n :=
      ih fun i hi => by rw [Nat.add_assoc, Nat.add_comm 1 i]; exact h (i + 1) (by omega)
    simp only [leBytes, first, rest]

/-- n bytes that are 0 are the number 0. -/
theorem leBytes_zero (a n : Nat) : leBytes (fun _ => 0) a n = 0 := by
  induction n generalizing a with
  | zero => rfl
  | succ n ih => simp only [leBytes, ih]; rfl

/-! ## The value of a load (R224) -/

/-- Sign extension is the library's, of the low n bits. -/
theorem sext_eq_signExtend (n v : Nat) (hn : 0 < n) : sext n v = (BitVec.ofNat n v).signExtend 64 := by
  have half : 2 ^ n = 2 * 2 ^ (n - 1) := by rw [← Nat.pow_succ']; congr 1; omega
  simp only [sext, BitVec.signExtend, BitVec.toInt, BitVec.toNat_ofNat, half]
  by_cases h : v % (2 * 2 ^ (n - 1)) < 2 ^ (n - 1)
  · rw [if_pos h, if_pos (by omega)]; rfl
  · rw [if_neg h, if_neg (by omega)]; congr 1; push_cast; rw [show (2 : Int) ^ n = 2 * 2 ^ (n - 1) by exact_mod_cast half]

/-- A loaded value has its low bits from the bytes read, and above them zeros or copies of the top one of these. -/
theorem getLsbD_loadExt (sx : Bool) {n : Nat} (v : Nat) (hn : 0 < n) {j : Nat} (hj : j < 64) :
    (loadExt sx n v).getLsbD j = if j < 8 * n then v.testBit j else sx && v.testBit (8 * n - 1) := by
  have top : 8 * n - 1 < 8 * n := by omega
  cases sx with
  | false => simp [loadExt, w64, BitVec.getLsbD_ofNat, Nat.testBit_mod_two_pow, hj, -BitVec.getLsbD_eq_getElem]
  | true =>
    simp only [loadExt, if_true, sext_eq_signExtend (8 * n) v (by omega), BitVec.getLsbD_signExtend, hj, decide_true, Bool.true_and]
    by_cases h : j < 8 * n
    · simp [h, BitVec.getLsbD_ofNat, -BitVec.getLsbD_eq_getElem]
    · simp [h, BitVec.msb_eq_getLsbD_last, BitVec.getLsbD_ofNat, top, -BitVec.getLsbD_eq_getElem]

/-- The bytes of a loaded value are the bytes read. -/
theorem byteOf_loadExt (sx : Bool) {n : Nat} (v : Nat) (h8 : n ≤ 8) {i : Nat} (hi : i < n) :
    byteOf (loadExt sx n v) i = BitVec.ofNat 8 (v / 2 ^ (8 * i)) := by
  apply BitVec.eq_of_getLsbD_eq
  intro j hj
  rw [byteOf, BitVec.getLsbD_extractLsb', getLsbD_loadExt sx v (by omega) (by omega), if_pos (by omega)]
  rw [BitVec.getLsbD_ofNat, Nat.testBit_div_two_pow, Nat.add_comm j]

/-- A loaded value is extended from its bytes. -/
theorem extendedFrom_loadExt (sx : Bool) {n : Nat} (v : Nat) (hn : 0 < n) : ExtendedFrom sx n (loadExt sx n v) := by
  intro i hi h64
  rw [getLsbD_loadExt sx v hn h64, getLsbD_loadExt sx v hn (by omega), if_neg (by omega), if_pos (by omega)]

/-- Byte i of a dword as a part of its number. -/
theorem byteOf_eq_ofNat (v : W64) (i : Nat) : byteOf v i = BitVec.ofNat 8 (v.toNat / 2 ^ (8 * i)) := by
  rw [byteOf, BitVec.extractLsb', Nat.shiftRight_eq_div_pow]

end Sys2Proof.Machine
end

section
/-!
SUPPORT. The own local memory as the running thread sees it, the running chunk, and the segment check of an access that leads
there.
-/

namespace Sys2Proof.Machine

/-! ## Changes of the running slot leave the process and its memory -/

variable (s : State) (g : Slot → Slot)

/-- A process keeps everything but its slots. -/
theorem State.proc_modMe (j : Nat) : ∃ x, (s.modMe g).proc j = { s.proc j with slots := x } := by
  rw [State.modMe, State.modSlot, State.proc_modProc]
  split
  · next h => subst h; exact ⟨_, rfl⟩
  · exact ⟨_, rfl⟩

@[simp] theorem State.lmmap_modMe (j : Nat) : ((s.modMe g).proc j).lmmap = (s.proc j).lmmap := by
  obtain ⟨x, h⟩ := State.proc_modMe s g j
  rw [h]

@[simp] theorem State.core_proc_modMe (j : Nat) : ((s.modMe g).proc j).core = (s.proc j).core := by
  obtain ⟨x, h⟩ := State.proc_modMe s g j
  rw [h]

@[simp] theorem State.waitAt_modMe (j off : Nat) : ((s.modMe g).proc j).waitAt off = (s.proc j).waitAt off := by
  obtain ⟨x, h⟩ := State.proc_modMe s g j
  rw [h]
  rfl

@[simp] theorem State.lmmap_myProc_modMe : (s.modMe g).myProc.lmmap = s.myProc.lmmap := State.lmmap_modMe s g s.cur.lpn

@[simp] theorem State.stashSec_modMe (lpn off : Nat) : (s.modMe g).stashSec lpn off = s.stashSec lpn off := by
  simp only [State.stashSec, State.lmmap_modMe, State.core_proc_modMe, State.core_modMe]

/-- Local memory reads as before. -/
@[simp] theorem State.locByte_modMe (lpn priv off : Nat) : (s.modMe g).locByte lpn priv off = s.locByte lpn priv off := by
  rw [State.locByte, State.locByte, State.lmmap_modMe, State.waitAt_modMe, State.stashSec_modMe, State.modMe_secs, State.modMe_mem]

/-- A read of n bytes of local memory gives its bytes, little-endian (R2). -/
theorem State.locRead_eq_leBytes (lpn priv off n : Nat) : s.locRead lpn priv off n = leBytes (s.locByte lpn priv) off n := by
  induction n generalizing off with
  | zero => rfl
  | succ n ih => simp only [State.locRead, leBytes, ih]

/-! ## The running chunk -/

/-- The slot with another running chunk. -/
def Slot.withChunk (t : Slot) (x : Option Chunk) : Slot := { t with chunk := x }

/-- A change of the running chunk opens it if needed, and leaves the rest of the slot. -/
theorem State.me_modChunk (f : Chunk → Chunk) : (s.modChunk f).me = s.me.withChunk (some (f s.myChunk)) := by
  rw [State.modChunk, State.me_modMe, State.myChunk, Slot.openChunk]
  cases h : s.me.chunk with
  | none => rfl
  | some c => simp only [h, Option.map_some, Slot.withChunk]

/-- After a change, the running chunk is the changed one. -/
@[simp] theorem State.myChunk_modChunk (f : Chunk → Chunk) : (s.modChunk f).myChunk = f s.myChunk := by
  rw [State.myChunk, State.me_modChunk, Slot.withChunk]

/-- Of the running thread only its running chunk has changed, and no byte of memory and no other slot. -/
structure OnlyChunk (s t : State) : Prop where
  cur : t.cur = s.cur
  mem : SameMem s t
  slots : ∀ w : Who, w ≠ s.cur → t.slot w = s.slot w
  me : ∃ x, t.me = s.me.withChunk x

theorem OnlyChunk.trans {s t u : State} (a : OnlyChunk s t) (b : OnlyChunk t u) : OnlyChunk s u where
  cur := b.cur.trans a.cur
  mem := a.mem.trans b.mem
  slots w hw := (b.slots w (a.cur ▸ hw)).trans (a.slots w hw)
  me := by
    obtain ⟨x, hx⟩ := a.me
    obtain ⟨y, hy⟩ := b.me
    exact ⟨y, by rw [hy, hx]; rfl⟩

theorem onlyChunk_modChunk (f : Chunk → Chunk) : OnlyChunk s (s.modChunk f) :=
  ⟨rfl, fun _ => rfl, fun _ hw => State.slot_modMe_ne s _ hw, _, State.me_modChunk s f⟩

/-- An added line is in the list. -/
theorem mem_addNew {l : List Line} {x : Line} : x ∈ addNew x l := by
  unfold addNew
  split
  · next h => simpa using h
  · simp

/-- The state after an access has entered its line in the running chunk (R133, R134). -/
def State.joinLine (l : Line) (wr : Bool) (la : Nat) : State :=
  s.modChunk fun c =>
    { c with reads := if wr then c.reads else addNew l c.reads,
             writes := if wr then addNew l c.writes else c.writes,
             touch := if c.touch.any fun t => t.line = l then c.touch
                      else c.touch ++ [{ line := l, bno := s.me.arch.bno, la := w64 la, seg := s.useg }] }

/-- A line entered for a read is in the read set, and the chunk's stores are as before. -/
theorem State.chunk_joinLine_read (l : Line) (la : Nat) :
    ∃ c, (s.joinLine l false la).me.chunk = some c ∧ l ∈ c.reads ∧ c.stores = s.myChunk.stores :=
  ⟨_, congrArg Slot.chunk (State.me_modChunk s _), mem_addNew, rfl⟩

/-- A line entered for a write is in the write set. -/
theorem State.mem_writes_joinLine (l : Line) (la : Nat) : l ∈ (s.joinLine l true la).myChunk.writes := by
  rw [State.joinLine, State.myChunk_modChunk]
  exact mem_addNew

/-- With room for the line, and outside a solo attempt, an access enters its line and is performed. -/
theorem State.withLine_of_room {s : State} {l : Line} {wr : Bool} (room : Room s l wr) (la : Nat) (f : State → State) :
    s.withLine l wr la f = f (s.joinLine l wr la) := by
  have may : s.soloMay l = true := by simp [State.soloMay, Slot.soloRun, room.solo]
  simp only [State.withLine, may, room.room, Bool.not_true, Bool.false_eq_true, ↓reduceIte]
  rfl

/-- So does a load outside a single-access chunk. -/
theorem State.readLine_of_room {s : State} {l : Line} (room : Room s l false) (la : Nat) (f : State → State) :
    s.readLine l la f = f (s.joinLine l false la) := by
  rw [State.readLine, room.single, if_neg Bool.false_ne_true, State.withLine_of_room room]

/-! ## Bytes as the thread sees them (R63, R136) -/

/-- A byte with stores merged over it: the newest that covers it, or the byte below. -/
def storedByte (l : List Store) (paged : Bool) (space : Nat) (b : Nat → Byte) (a : Nat) : Byte :=
  match l.reverse.findSome? fun st : Store => st.byteAt paged space a with
  | some x => x
  | none => b a

/-- Merging stores over n bytes merges them over each. -/
theorem mergeStores_leBytes (l : List Store) (paged : Bool) (space : Nat) (b : Nat → Byte) (a n : Nat) :
    mergeStores l paged space a n (leBytes b a n) = leBytes (storedByte l paged space b) a n := by
  induction n generalizing a with
  | zero => rfl
  | succ n ih =>
    obtain ⟨low, rest⟩ := byte_cons (b a) (leBytes b (a + 1) n)
    have first : ((b a).toNat + 256 * leBytes b (a + 1) n) % 256 = (b a).toNat := by
      have := (b a).isLt
      omega
    simp only [leBytes, mergeStores, rest, first, ih, storedByte]
    cases l.reverse.findSome? fun st => st.byteAt paged space a <;> rfl

/-- A value read by the running chunk has the chunk's stores merged over each of its bytes (R136). -/
theorem State.merged_leBytes (paged : Bool) (space a n : Nat) (b : Nat → Byte) :
    s.merged paged space a n (leBytes b a n) = leBytes (storedByte s.myChunk.stores paged space b) a n := by
  rw [State.merged, State.myChunk]
  cases s.me.chunk with
  | none => rfl
  | some c => exact mergeStores_leBytes c.stores paged space b a n

/-- The stores that the thread's accesses see: those of the running chunk, none when no chunk runs. -/
theorem State.seenByte_eq (o : Nat) : s.seenByte o =
    if s.me.priv ≠ 2 ∧ hwArea s.myProc.lmmap o = true then 0
    else storedByte s.myChunk.stores false s.cur.lpn (s.locByte s.cur.lpn s.me.priv) o := by
  rw [State.seenByte, storedByte, State.myChunk]
  cases h : s.me.chunk <;> rfl

/-- A byte as the thread sees it after a change of its running chunk. -/
theorem State.seenByte_modChunk (f : Chunk → Chunk) (o : Nat) : (s.modChunk f).seenByte o =
    if s.me.priv ≠ 2 ∧ hwArea s.myProc.lmmap o = true then 0
    else storedByte (f s.myChunk).stores false s.cur.lpn (s.locByte s.cur.lpn s.me.priv) o := by
  have priv : (s.modChunk f).me.priv = s.me.priv := by rw [State.me_modChunk]; rfl
  have area : (s.modChunk f).myProc.lmmap = s.myProc.lmmap := State.lmmap_myProc_modMe s _
  have bytes : (s.modChunk f).locByte s.cur.lpn s.me.priv o = s.locByte s.cur.lpn s.me.priv o := State.locByte_modMe s _ _ _ _
  have cur : (s.modChunk f).cur = s.cur := rfl
  rw [State.seenByte_eq, State.myChunk_modChunk, priv, area, cur, storedByte, bytes, storedByte]

/-- Entering a line changes no byte that the thread sees. -/
@[simp] theorem State.seenByte_joinLine (l : Line) (wr : Bool) (la : Nat) : (s.joinLine l wr la).seenByte = s.seenByte := by
  funext o
  rw [State.joinLine, State.seenByte_modChunk, State.seenByte_eq]

/-- The sizes of an access (R224, R225). -/
theorem size_of_dvd_eight {size : Nat} (h : size ∣ 8) : size = 1 ∨ size = 2 ∨ size = 4 ∨ size = 8 := by
  have cases : ∀ n : Fin 9, n.val ∣ 8 → n.val = 1 ∨ n.val = 2 ∨ n.val = 4 ∨ n.val = 8 := by decide
  exact cases ⟨size, Nat.lt_succ_of_le (Nat.le_of_dvd (by decide) h)⟩ h

/-- The areas of local memory begin and end at multiples of 8 bytes, so that an aligned access lies in one (R61). -/
theorem hwArea_aligned (lmmap : W64) {o size i : Nat} (h8 : size ∣ 8) (ho : o % size = 0) (hi : i < size) :
    hwArea lmmap (o + i) = hwArea lmmap o := by
  have cell : (o + i) / 8 = o / 8 := by rcases size_of_dvd_eight h8 with rfl | rfl | rfl | rfl <;> omega
  have low : o + i < 0x4000 ↔ o < 0x4000 := by omega
  have high : imageTop lmmap ≤ o + i ↔ imageTop lmmap ≤ o := by
    simp only [imageTop, varBytes, Config.localSize]
    omega
  simp only [hwArea, low, high]

/-- What an aligned load of the own local memory reads: the bytes as the thread sees them (R2, R63, R136). -/
theorem State.ownValue_eq {o size : Nat} (h8 : size ∣ 8) (ho : o % size = 0) :
    (if s.me.priv != 2 && hwArea s.myProc.lmmap o then 0
      else s.merged false s.cur.lpn o size (s.locRead s.cur.lpn s.me.priv o size)) = leBytes s.seenByte o size := by
  by_cases h : s.me.priv ≠ 2 ∧ hwArea s.myProc.lmmap o = true
  · have zero (i : Nat) (hi : i < size) : s.seenByte (o + i) = 0 := by
      rw [State.seenByte_eq, hwArea_aligned s.myProc.lmmap h8 ho hi, if_pos h]
    rw [leBytes_congr (c := fun _ => 0) zero, leBytes_zero, if_pos (by simpa using h)]
  · have seen (i : Nat) (hi : i < size) : s.seenByte (o + i) =
        storedByte s.myChunk.stores false s.cur.lpn (s.locByte s.cur.lpn s.me.priv) (o + i) := by
      rw [State.seenByte_eq, hwArea_aligned s.myProc.lmmap h8 ho hi, if_neg h]
    rw [leBytes_congr seen, if_neg (by simpa using h), State.locRead_eq_leBytes, State.merged_leBytes]

/-! ## The segment check (R9, R18) -/

/-- The state in which an access through segment n is performed (R18). -/
def State.through (n : Seg) : State := { s with useg := n.toNat }

@[simp] theorem State.through_cur (n : Seg) : (s.through n).cur = s.cur := rfl
@[simp] theorem State.through_me (n : Seg) : (s.through n).me = s.me := rfl
@[simp] theorem State.through_mem (n : Seg) : (s.through n).mem = s.mem := rfl
@[simp] theorem State.through_secs (n : Seg) : (s.through n).secs = s.secs := rfl
@[simp] theorem State.through_proc (n : Seg) (j : Nat) : (s.through n).proc j = s.proc j := rfl
@[simp] theorem State.through_core (n : Seg) (j : Nat) : (s.through n).core j = s.core j := rfl
@[simp] theorem State.through_myProc (n : Seg) : (s.through n).myProc = s.myProc := rfl
@[simp] theorem State.through_myChunk (n : Seg) : (s.through n).myChunk = s.myChunk := rfl

@[simp] theorem State.through_stashSec (n : Seg) (lpn off : Nat) : (s.through n).stashSec lpn off = s.stashSec lpn off := by
  rw [State.stashSec, State.stashSec, State.through_proc, State.through_core]

@[simp] theorem State.through_locByte (n : Seg) (lpn priv : Nat) : (s.through n).locByte lpn priv = s.locByte lpn priv := by
  funext off
  rw [State.locByte, State.locByte, State.through_proc, State.through_stashSec, State.through_secs, State.through_mem]

@[simp] theorem State.through_seenByte (n : Seg) : (s.through n).seenByte = s.seenByte := by
  funext o
  rw [State.seenByte_eq, State.seenByte_eq, State.through_me, State.through_myProc, State.through_myChunk, State.through_cur,
    State.through_locByte]

/-- An access that the check sends to the window is performed through its segment. -/
theorem State.onSeek_window (n : Seg) (la : Nat) (paged window : Nat → State → State) :
    s.onSeek n (.window la) paged window = window la (s.through n) := rfl

/-- There the line of an access is entered. -/
theorem onlyChunk_joinLine (n : Seg) (l : Line) (wr : Bool) (la : Nat) : OnlyChunk s ((s.through n).joinLine l wr la) := by
  obtain ⟨cur, mem, slots, me⟩ := onlyChunk_modChunk (s.through n) _
  exact ⟨cur, mem, slots, me⟩

/-- A window address names its process. -/
theorem lpnOf_winAddr (lpn : Nat) {o : Nat} (h : o < 2 ^ 20) : lpnOf (winAddr lpn o) = lpn := by
  simp only [lpnOf, winAddr, Config.wbase]
  omega

/-- A window address names its offset. -/
theorem offOf_winAddr (lpn : Nat) {o : Nat} (h : o < 2 ^ 20) : offOf (winAddr lpn o) = o := by
  simp only [offOf, winAddr, Config.wbase]
  omega

/-- The check of an access to the own local memory leads to its window address, without a question to the arbiter. -/
theorem OwnAccess.seek_eq {s : State} {n : Seg} {off : W64} {size need o : Nat} (h : OwnAccess s n off size need o) (h8 : size ∣ 8) :
    s.seek n off size need false = .window (winAddr s.cur.lpn o) := by
  obtain ⟨rights, limit, address, fits, aligned, lpn, hosted⟩ := h
  have pos : 0 < size := Nat.pos_of_dvd_of_pos h8 (by decide)
  have host : (s.core (s.hostOf s.cur.lpn)).host = s.cur.lpn := hosted
  have notImago : s.cur.lpn ≠ Config.imagoLpn := by simp only [Config.imagoLpn]; omega
  have inLimit : ¬ (off.toNat > segLimit (s.seg s.cur n.toNat) ∨ off.toNat + size - 1 > segLimit (s.seg s.cur n.toNat)) := by omega
  have inSpace : ¬ 2 ^ 56 ≤ winAddr s.cur.lpn o + size - 1 := by simp only [winAddr, Config.wbase]; omega
  have isAligned : winAddr s.cur.lpn o % size = 0 := by
    simp only [winAddr, Config.wbase]
    rcases size_of_dvd_eight h8 with rfl | rfl | rfl | rfl <;> omega
  have notPaged : ¬ winAddr s.cur.lpn o + size - 1 < 2 ^ 55 := by simp only [winAddr, Config.wbase]; omega
  have above : Config.wbase ≤ winAddr s.cur.lpn o := by simp only [winAddr]; omega
  have last : lpnOf (winAddr s.cur.lpn o + size - 1) = s.cur.lpn := by
    rw [show winAddr s.cur.lpn o + size - 1 = winAddr s.cur.lpn (o + size - 1) by simp only [winAddr]; omega,
      lpnOf_winAddr _ (by omega)]
  have first : lpnOf (winAddr s.cur.lpn o) = s.cur.lpn := lpnOf_winAddr _ (by omega)
  have found : s.placeLookup (s.hostOf s.cur.lpn) s.cur.lpn = .host (s.hostOf s.cur.lpn) := by
    rw [State.placeLookup, if_pos host]
  simp [State.seek, State.segCheck, host, notImago, rights, inLimit, address, inSpace, isAligned, notPaged, above, last, first, found,
    -Nat.reducePow]

end Sys2Proof.Machine
end

section
/-!
SUPPORT. Loads and stores of the own local memory (R136, R164, R224, R225): what the thread sees, and what stays as it is.
-/

namespace Sys2Proof.Machine

/-! ## Landing entries -/

/-- A landing is entered in the slot's registers and leaves its running chunk. -/
@[simp] theorem State.chunk_openLand (s : State) (d : Reg) (la : Nat) (res : Landed) (addr : W64) (sync : Bool) :
    (s.openLand d la res addr sync).me.chunk = s.me.chunk := by
  have m : (s.openLand d la res addr sync).me = _ := State.me_modMe s.fresh _
  rw [m]
  rfl

/-- It leaves every other slot. -/
theorem State.slot_openLand_ne (s : State) (d : Reg) (la : Nat) (res : Landed) (addr : W64) (sync : Bool) {w : Who} (hw : w ≠ s.cur) :
    (s.openLand d la res addr sync).slot w = s.slot w :=
  State.slot_modMe_ne s.fresh _ hw

/-- A landing entered after a change of the running chunk alone is entered in the slot as it was. -/
theorem LandEntry.of_onlyChunk {s t u : State} {d : Reg} {la : Nat} {v : W64} (only : OnlyChunk s t) (e : LandEntry t u d la v) :
    LandEntry s u d la v := by
  obtain ⟨x, me⟩ := only.me
  obtain ⟨entry, full, regs, pw⟩ := e
  rw [me] at entry full regs pw
  exact ⟨entry, full, regs, pw⟩

section
variable {s : State} {n : Seg} {off : W64} {size o : Nat}

/-- An access to the own local memory lies below its end. -/
theorem OwnAccess.lt {need : Nat} (access : OwnAccess s n off size need o) (h8 : size ∣ 8) : o < 2 ^ 20 := by
  have fits := access.fits
  have pos : 0 < size := Nat.pos_of_dvd_of_pos h8 (by decide)
  omega

/-- The segment of an access plays no part in the room of its chunk. -/
theorem Room.through {l : Line} {wr : Bool} (room : Room s l wr) (n : Seg) : Room (s.through n) l wr :=
  ⟨room.solo, room.settled, room.single, room.room⟩

/-! ## Loads (R224) -/

/-- What a load of the own local memory leaves: its value on its way, the bytes as the thread sees them, the line in the read set. -/
def LoadedOwn (s : State) (d : Reg) (la size : Nat) (sx : Bool) (o : Nat) (t : State) : Prop :=
  ∃ v : W64, Landing1 s t d la v ∧ (∀ i, i < size → byteOf v i = s.seenByte (o + i)) ∧ ExtendedFrom sx size v ∧
    ∃ c, t.me.chunk = some c ∧ locLine s.cur.lpn o ∈ c.reads ∧ c.stores = s.myChunk.stores

/-- A load of the own local memory enters its line and opens a landing with the bytes that the thread sees. -/
theorem State.loadWindow_own (d : Reg) (sx : Bool) (win : Nat) (h8 : size ∣ 8) (fits : o < 2 ^ 20) (aligned : o % size = 0)
    (room : Room s (locLine s.cur.lpn o) false) (good : s.locBad s.cur.lpn s.me.priv o size = false) :
    s.loadWindow n d (winAddr s.cur.lpn o) size sx win =
      (s.joinLine (locLine s.cur.lpn o) false (winAddr s.cur.lpn o)).openLand d win
        (.value (loadExt sx size (leBytes s.seenByte o size))) (w64 (winAddr s.cur.lpn o)) false := by
  have value := State.ownValue_eq (s.joinLine (locLine s.cur.lpn o) false (winAddr s.cur.lpn o)) h8 aligned
  rw [State.seenByte_joinLine] at value
  simp only [State.loadWindow, lpnOf_winAddr _ fits, offOf_winAddr _ fits, good, room.settled, State.readLine_of_room room,
    ↓reduceIte, Bool.false_eq_true]
  rw [← value]
  rfl

/-- So does a load through a segment that leads there. -/
theorem State.load_own (d : Reg) (sx : Bool) (win : Nat) (h8 : size ∣ 8) (free : s.me.landFull = false)
    (access : OwnAccess s n off size 1 o) (room : Room s (locLine s.cur.lpn o) false)
    (good : s.locBad s.cur.lpn s.me.priv o size = false) :
    s.load n d off size sx win =
      ((s.through n).joinLine (locLine s.cur.lpn o) false (winAddr s.cur.lpn o)).openLand d win
        (.value (loadExt sx size (leBytes s.seenByte o size))) (w64 (winAddr s.cur.lpn o)) false := by
  have seek : s.seek n off size rR false = _ := access.seek_eq h8
  have window := State.loadWindow_own (s := s.through n) (n := n) d sx win h8 (access.lt h8) access.aligned (room.through n) good
  rw [State.through_cur, State.through_seenByte] at window
  rw [State.load, seek, State.onSeek_window, State.withEntry, State.through_me, free, if_neg Bool.false_ne_true, window]

/-- What such a load leaves. -/
theorem loadedOwn_openLand (d : Reg) (sx : Bool) (win la : Nat) (addr : W64) (h8 : size ∣ 8) :
    LoadedOwn s d win size sx o (((s.through n).joinLine (locLine s.cur.lpn o) false la).openLand d win
      (.value (loadExt sx size (leBytes s.seenByte o size))) addr false) := by
  have only := onlyChunk_joinLine s n (locLine s.cur.lpn o) false la
  obtain ⟨c, chunk, line, stores⟩ := State.chunk_joinLine_read (s.through n) (locLine s.cur.lpn o) la
  refine ⟨_, { toLandEntry := (openLand_entry _ d win _ _ _).of_onlyChunk only, mem := only.mem, slots := fun w hw => ?_ },
    fun i hi => ?_, extendedFrom_loadExt sx _ (Nat.pos_of_dvd_of_pos h8 (by decide)), c, ?_, line, stores⟩
  · exact (State.slot_openLand_ne _ d win _ _ _ (only.cur ▸ hw)).trans (only.slots w hw)
  · rw [byteOf_loadExt sx _ (Nat.le_of_dvd (by decide) h8) hi, ofNat_leBytes_div _ _ _ _ hi]
  · rw [State.chunk_openLand, chunk]

/-- What a load of the own local memory leaves. -/
theorem State.loadedOwn_load (d : Reg) (sx : Bool) (win : Nat) (h8 : size ∣ 8) (free : s.me.landFull = false)
    (access : OwnAccess s n off size 1 o) (room : Room s (locLine s.cur.lpn o) false)
    (good : s.locBad s.cur.lpn s.me.priv o size = false) : LoadedOwn s d win size sx o (s.load n d off size sx win) := by
  rw [State.load_own d sx win h8 free access room good]
  exact loadedOwn_openLand d sx win _ _ h8

/-! ## Stores (R225) -/

/-- What a store to the own local memory leaves: the thread sees it, nothing else has changed, the line is in the write set. -/
def StoredInChunk (s : State) (d : Reg) (size o : Nat) (t : State) : Prop :=
  SameMem s t ∧ t.me.arch = s.me.arch ∧ t.me.regs = s.me.regs ∧ (∀ w : Who, w ≠ s.cur → t.slot w = s.slot w) ∧
  (∀ a, t.seenByte a = if (o ≤ a ∧ a < o + size) ∧ (s.me.priv = 2 ∨ hwArea s.myProc.lmmap a = false) then byteOf (s.rd d) (a - o)
    else s.seenByte a) ∧
  ∃ c, t.me.chunk = some c ∧ locLine s.cur.lpn o ∈ c.writes

/-- The newest store decides the bytes that it covers. -/
theorem storedByte_append (l : List Store) (st : Store) (paged : Bool) (space : Nat) (b : Nat → Byte) (a : Nat) :
    storedByte (l ++ [st]) paged space b a = (st.byteAt paged space a).getD (storedByte l paged space b a) := by
  rw [storedByte, List.reverse_append, List.reverse_singleton, List.singleton_append, List.findSome?_cons]
  cases st.byteAt paged space a <;> rfl

/-- A store of the low bytes of a dword gives the dword's bytes. -/
theorem ofNat_stored_div (v : W64) {size i : Nat} (hi : i < size) :
    BitVec.ofNat 8 ((w64 (v.toNat % 2 ^ (8 * size))).toNat / 2 ^ (8 * i)) = byteOf v i := by
  have small : v.toNat % 2 ^ (8 * size) < 2 ^ 64 := Nat.lt_of_le_of_lt (Nat.mod_le _ _) v.isLt
  rw [byteOf_eq_ofNat, BitVec.toNat_ofNat, Nat.mod_eq_of_lt small]
  apply BitVec.eq_of_getLsbD_eq
  intro j hj
  have inside : j + 8 * i < 8 * size := by omega
  simp only [BitVec.getLsbD_ofNat, Nat.testBit_div_two_pow, Nat.testBit_mod_two_pow, inside, decide_true, Bool.true_and]

/-- A store leaves the write set of the running chunk. -/
theorem State.chunk_addStore (lpn : Nat) (v : W64) (la : Nat) :
    ∃ c, (s.addStore false lpn o size v la).me.chunk = some c ∧ c.writes = s.myChunk.writes :=
  ⟨_, congrArg Slot.chunk (State.me_modChunk s _), rfl⟩

/-- After a store the thread sees the stored bytes, but in a hardware area below M, and every other byte as before (R63, R136). -/
theorem State.seenByte_addStore (v : W64) (la a : Nat) :
    (s.addStore false s.cur.lpn o size v la).seenByte a =
      if (o ≤ a ∧ a < o + size) ∧ (s.me.priv = 2 ∨ hwArea s.myProc.lmmap a = false) then byteOf v (a - o) else s.seenByte a := by
  rw [State.addStore, State.seenByte_modChunk, storedByte_append, State.seenByte_eq]
  by_cases hidden : s.me.priv ≠ 2 ∧ hwArea s.myProc.lmmap a = true
  · rw [if_pos hidden, if_pos hidden, if_neg (by simp [hidden.1, hidden.2])]
  · have shown : s.me.priv = 2 ∨ hwArea s.myProc.lmmap a = false := by
      by_cases m : s.me.priv = 2
      · exact Or.inl m
      · exact Or.inr (Bool.eq_false_iff.mpr fun area => hidden ⟨m, area⟩)
    rw [if_neg hidden, if_neg hidden]
    by_cases covered : o ≤ a ∧ a < o + size
    · rw [if_pos ⟨covered, shown⟩, ← ofNat_stored_div v (show a - o < size by omega)]
      simp [Store.byteAt, covered.1, covered.2]
    · rw [if_neg (fun h => covered h.1)]
      simp [Store.byteAt, covered]

/-- A store to the own local memory enters its line and joins the chunk buffer. -/
theorem State.storeWindow_own (v : W64) (fits : o < 2 ^ 20) (room : Room s (locLine s.cur.lpn o) true)
    (good : s.locBad s.cur.lpn s.me.priv o size = false) :
    s.storeWindow n (winAddr s.cur.lpn o) size v =
      (s.joinLine (locLine s.cur.lpn o) true (winAddr s.cur.lpn o)).addStore false s.cur.lpn o size v (winAddr s.cur.lpn o) := by
  simp only [State.storeWindow, lpnOf_winAddr _ fits, offOf_winAddr _ fits, good, room.settled, State.withLine_of_room room,
    Bool.and_false, ↓reduceIte, Bool.false_eq_true]

/-- So does a store through a segment that leads there. -/
theorem State.store_own (d : Reg) (h8 : size ∣ 8) (access : OwnAccess s n off size 2 o)
    (room : Room s (locLine s.cur.lpn o) true) (good : s.locBad s.cur.lpn s.me.priv o size = false) :
    s.store n d off size = ((s.through n).joinLine (locLine s.cur.lpn o) true (winAddr s.cur.lpn o)).addStore false s.cur.lpn o size
      (s.rd d) (winAddr s.cur.lpn o) := by
  have seek : s.seek n off size rW false = _ := access.seek_eq h8
  rw [State.store, seek, State.onSeek_window]
  exact State.storeWindow_own (s := s.through n) (s.rd d) (access.lt h8) (room.through n) good

/-- What such a store leaves. -/
theorem storedInChunk_addStore (d : Reg) (la : Nat) :
    StoredInChunk s d size o (((s.through n).joinLine (locLine s.cur.lpn o) true la).addStore false s.cur.lpn o size (s.rd d) la) := by
  have joined := onlyChunk_joinLine s n (locLine s.cur.lpn o) true la
  have line := State.mem_writes_joinLine (s.through n) (locLine s.cur.lpn o) la
  have area : ((s.through n).joinLine (locLine s.cur.lpn o) true la).myProc.lmmap = s.myProc.lmmap := by
    rw [State.joinLine, State.modChunk, State.lmmap_myProc_modMe, State.through_myProc]
  have before := (State.seenByte_joinLine (s.through n) (locLine s.cur.lpn o) true la).trans (State.through_seenByte s n)
  generalize (s.through n).joinLine (locLine s.cur.lpn o) true la = m at *
  obtain ⟨cur, mem, slots, x, me⟩ := joined.trans (onlyChunk_modChunk m _)
  obtain ⟨c, chunk, writes⟩ := State.chunk_addStore (s := m) (size := size) (o := o) s.cur.lpn (s.rd d) la
  refine ⟨mem, (congrArg Slot.arch me :), (congrArg Slot.regs me :), slots, fun a => ?_, c, chunk, writes ▸ line⟩
  have priv : m.me.priv = s.me.priv := by
    obtain ⟨y, hy⟩ := joined.me
    rw [hy]
    rfl
  rw [← joined.cur, State.seenByte_addStore, priv, area, before]

/-- What a store to the own local memory leaves. -/
theorem State.storedInChunk_store (d : Reg) (h8 : size ∣ 8) (access : OwnAccess s n off size 2 o)
    (room : Room s (locLine s.cur.lpn o) true) (good : s.locBad s.cur.lpn s.me.priv o size = false) :
    StoredInChunk s d size o (s.store n d off size) := by
  rw [State.store_own d h8 access room good]
  exact storedInChunk_addStore d _

end

/-! ## The obligation -/

/-- The size field of two bits names 1, 2, 4 or 8 bytes (R224, R225). -/
theorem two_pow_dvd_eight (k : BitVec 2) : 2 ^ k.toNat ∣ 8 := Nat.pow_dvd_pow 2 (show k.toNat ≤ 3 by omega)

/-- A load in format AM that leads to the own local memory. -/
theorem guarded_loadAM {i : Instr} {r : AM} {s : State} {size o : Nat} {sx : Bool} (h : exec i s = s.loadAM r size sx) (h8 : size ∣ 8)
    (free : s.me.landFull = false) (ok : OwnAccess s r.seg (s.offAM r size) size 1 o ∧ Room s (locLine s.cur.lpn o) false ∧
      s.locBad s.cur.lpn s.me.priv o size = false) : Guarded i r.g s (LoadedOwn s r.d r.la.toNat size sx o) := by
  obtain ⟨access, room, good⟩ := ok
  exact guarded_when h fun _ => State.loadedOwn_load r.d sx r.la.toNat h8 free access room good

/-- Loads of the own local memory, in every form (R224). -/
theorem loads_own : Clause.Loads := by
  intro s free
  refine ⟨fun r o => ?_, fun r o ok => ?_⟩
  · have dvd1 : 1 ∣ 8 := by decide
    have dvd2 : 2 ∣ 8 := by decide
    have dvd4 : 4 ∣ 8 := by decide
    exact ⟨guarded_loadAM rfl dvd1 free, guarded_loadAM rfl dvd2 free, guarded_loadAM rfl dvd4 free, guarded_loadAM rfl (Nat.dvd_refl 8) free,
      guarded_loadAM rfl dvd1 free, guarded_loadAM rfl dvd2 free, guarded_loadAM rfl dvd4 free⟩
  · obtain ⟨access, room, good⟩ := ok
    exact guarded_when (f := fun s => s.load r.seg r.d (s.offAX r) (2 ^ r.sz.toNat) r.sx r.la.toNat) rfl fun _ =>
      State.loadedOwn_load r.d r.sx r.la.toNat (two_pow_dvd_eight r.sz) free access room good

/-- Stores to the own local memory, in both forms (R225). -/
theorem stores_own : Clause.Stores := by
  intro s
  refine ⟨fun r o ok => ?_, fun r o ok => ?_⟩
  · obtain ⟨access, room, good⟩ := ok
    exact guarded_when (f := fun s => s.store r.seg r.d (s.offAS r (2 ^ r.f.toNat)) (2 ^ r.f.toNat)) rfl fun _ =>
      State.storedInChunk_store r.d (two_pow_dvd_eight r.f) access room good
  · obtain ⟨access, room, good⟩ := ok
    exact guarded_when (f := fun s => s.store r.seg r.d (s.offAX r) (2 ^ r.sz.toNat)) rfl fun _ =>
      State.storedInChunk_store r.d (two_pow_dvd_eight r.sz) access room good

/-- Settles O11: a load lands the bytes that its thread sees, and a store joins the chunk buffer, through which they are seen. -/
theorem localLoadsAndStores : Obligations.LocalLoadsAndStores := ⟨loads_own, stores_own⟩

end Sys2Proof.Machine
end
